-- ==== Sys2Proof/Word.lean ====
section
/-!
DEFINITION. Sys2Proof/Word.lean: the machine's bytes and words, and the plainest helpers on them.
Every multi-byte field is little-endian (R1); bits are numbered from 0 at the least significant end (R2).
-/

namespace Sys2Proof

abbrev Byte := BitVec 8
abbrev Word := BitVec 64

end Sys2Proof
end

