-- ==== Sys2Proof/Syntax.lean ====
section
/-!
DEFINITION. Sys2Proof/Syntax.lean: the commands the block takes, one constructor of `Instr` per row of
spec/opcode_table.json, and the plain data their operands are made of.
A row of the table is a step of the part, whole and indivisible (spec/95_what_each_step_holds.md); the
operands say which unit the step concerns and what the outside world supplies to it.
-/

namespace Sys2Proof

/-- An instruction at issue: the physical core site (field × 20 + p, R12), the VEC cycles it was held at
issue (R105), and the fields D, A, B, C and IMM of the instruction word (Table 5-2). -/
structure Issue where
  site : Nat
  held : Nat
  d : Nat
  a : Nat
  b : Nat
  c : Nat
  imm : BitVec 32
  deriving DecidableEq, Repr, Inhabited

/-- A command packet (Table 12-4) as its source delivers it: the path (0 CXL port A, 1 port B,
2 management lane, 3 MCTP, Table 13-5), the requester's endpoint, the header fields and the parameters.
`reserved` is the byte offset of the first reserved header field that is not zero (R290, order 3). -/
structure Packet where
  path : Nat
  origin : Nat
  flags : Nat
  seq : Nat
  target : Nat
  jobTag : Nat
  rdaddr : Nat
  rdlen : Nat
  cookie : Nat
  reserved : Option Nat
  params : List Byte
  deriving DecidableEq, Repr, Inhabited

/-- The payload of an authenticated heartbeat (Table 9-10). -/
structure Heartbeat where
  tick : Nat
  period : Nat
  tag : Nat
  flags : Nat
  deriving DecidableEq, Repr, Inhabited

/-- Kinds of unit a fence names (Table 12-12 FENCE; Table 7-5 FENCE). -/
inductive FenceKind where
  | site | cluster | field | routerPlane | arbiter | port | stackChannel
  deriving DecidableEq, Repr, Inhabited

/-- A unit named in a fence: its kind, its field, and its index (Table 12-12). -/
structure FenceUnit where
  kind : FenceKind
  field : Nat
  index : Nat
  deriving DecidableEq, Repr, Inhabited

/-- A rectangle of wafer core coordinates (R13, R168). -/
structure Rect where
  x0 : Nat
  y0 : Nat
  x1 : Nat
  y1 : Nat
  deriving DecidableEq, Repr, Inhabited

/-- What a router finds when it checks a flit's 34 words (R155): corrected words, the data words found
uncorrectable, and how many of the two control words are. (Log 74 DESIGN CHOICE.) -/
structure FlitError where
  corrected : Nat
  uncorrectable : List Nat
  control : Nat
  deriving DecidableEq, Repr, Inhabited

/-- A peer record (R221); the hash is its 32 bytes read little-endian. -/
structure PeerRec where
  hash : Nat
  place : Nat
  port : Nat
  kind : Nat
  deriving DecidableEq, Repr, Inhabited

/-- The certificate chains that come with IDENT (R217, R307). -/
structure ChainPair where
  ed : List Byte
  ml : List Byte
  deriving DecidableEq, Repr, Inhabited

/-- A key exchange message (R217): the initiator's X25519 public key and ML-KEM-768 encapsulation key; the responder's X25519 public key
and ML-KEM-768 ciphertext; an end's Ed25519 and ML-DSA-65 signatures over the transcript. -/
inductive KeyxMsg where
  | offer (x kem : List Byte)
  | answer (x kem : List Byte)
  | signed (ed ml : List Byte)
  deriving DecidableEq, Repr, Inhabited

/-- What a hop receives (R210, R215): the 256 bytes of a frame, and the lane of a codeword of it that the FEC decoder could not
correct. -/
structure Received where
  bytes : List Byte
  fecLane : Option Nat
  deriving DecidableEq, Repr, Inhabited

/-- The fields of a Towpath frame (Tables 9-3 and 9-4); the payload is its first PLEN bytes. A command after HOP_FRAME_RECEIVE concerns
frames that the link layer has delivered. (Log 74 DESIGN CHOICE.) -/
structure Frame where
  vl : Nat
  ftype : Nat
  prot : Bool
  kph : Bool
  seq : Nat
  plen : Nat
  tag : Nat
  payload : List Byte
  deriving DecidableEq, Repr, Inhabited

/-- A VL0 message: the bodies of its frames in order, after the link layer has passed them (R242). (Log 74 DESIGN CHOICE.) -/
structure Vl0Msg where
  port : Nat
  stream : Nat
  reply : Bool
  prot : Bool
  body : List Byte
  deriving DecidableEq, Repr, Inhabited

/-- An MCTP message: the endpoint it arrives at (0 on I3C, 1 carried by the management lane), its sender,
its message type and its body (R324). -/
structure MctpMsg where
  via : Nat
  src : Nat
  mtype : Nat
  body : List Byte
  deriving DecidableEq, Repr, Inhabited

/-- A job fault notice payload (Table 16-4). -/
structure Notice where
  tag : Nat
  cls : Nat
  tick : Nat
  origin : Nat
  detail : Nat
  deriving DecidableEq, Repr, Inhabited

/-- What marks a message on the signal canal as the one it is (R167): the node it comes from and its 16-bit number. -/
structure ScnId where
  source : Nat
  seq : Nat
  deriving DecidableEq, Repr, Inhabited

/-- What a FENCE message tells (R23): the unit and the class of the cause. -/
structure FenceNews where
  unit : FenceUnit
  cause : Nat
  deriving DecidableEq, Repr, Inhabited

/-- What a RECT message tells (R168): a plane and a rectangle. -/
structure RectNews where
  plane : Nat
  rect : Rect
  deriving DecidableEq, Repr, Inhabited

/-- What a JOB_FAULT message tells (R369): the job's tag, the class and its detail. -/
structure FaultNews where
  tag : Nat
  cls : Nat
  detail : Nat
  deriving DecidableEq, Repr, Inhabited

/-- A write of LCK_SRC with PPSSEED set (R55): its path and value. -/
structure SeedWrite where
  path : Nat
  value : BitVec 64
  deriving DecidableEq, Repr, Inhabited

/-- An error location (Table 16-1): kind 1 to 9, field, unit as in Table 16-3, stack or port as in
Table 7-3, and the row, lane, link or router input within the unit. -/
structure ErrLoc where
  kind : Nat
  field : Nat
  unit : Nat
  runit : Nat
  index : Nat
  deriving DecidableEq, Repr, Inhabited

/-- JTAG operations R392 tells apart. -/
inductive JtagOp where
  | boundaryScan
  | readReg (off : Nat)
  | writeReg (off : Nat) (value : BitVec 64)
  | bistField (field : Nat)
  | bistStack (stack : Nat)
  | bistPort (port : Nat)
  deriving DecidableEq, Repr, Inhabited

/-- One contact group's reading (R332): resistance in µΩ and current in mA. -/
structure CrackReading where
  group : Nat
  res : Nat
  cur : Nat
  deriving DecidableEq, Repr, Inhabited

/-- The junction temperatures of a field's four clusters, °C (R345). -/
structure FieldTemps where
  field : Nat
  t0 : Nat
  t1 : Nat
  t2 : Nat
  t3 : Nat
  deriving DecidableEq, Repr, Inhabited

/-- What the flood's tests of one field show (R352 to R354, Table 15-2): whether it passed as a relay, its
first failing test (0 for none), the sites and routers that work, the clusters whose memory, GME and assist
regulators pass, its scribe and signal canal links (Table 15-5 LINKS), the area port lanes that fail, the
measured wave latencies, and the contact baselines of a full memory test. (Log 74 DESIGN CHOICE.) -/
structure FieldTest where
  field : Nat
  relay : Bool
  cause : Nat
  siteOk : Nat
  rtrFail : Nat
  clusterOk : Nat
  links : Nat
  laneFail : Nat
  wlat : Nat
  wlatAlt : Nat
  baselines : List CrackReading
  deriving DecidableEq, Repr, Inhabited

/-- The readings of a margin survey of one field (R361, R362): the slack found at each gear and rail tried,
the field's Vmin in mV and the wear-oscillator loss of each cluster in ppm. -/
structure SurveyMeas where
  slacks : List (Nat × Nat × Nat)
  vmin : Nat
  wear : List Nat
  deriving DecidableEq, Repr, Inhabited

/-- The commands, in the order of spec/opcode_table.json. -/
inductive Instr where
  /-- TICK_BOUNDARY (R22). When the counter reaches the start value of tick n, the module applies the boundary effects of Table 1-5 in order. -/
  | tickBoundary (takeLimit : Nat)
  /-- SCAN_TIME_BOUND (R287). When 0.4 × P of the tick has passed, the interpreter stops taking packets and counts the scan in CMD_FULLSCANS. -/
  | scanTimeBound
  /-- REGISTER_WRITE (R8). A host write to a register field with no behaviour of its own sets RW fields, clears W1C bits, and tallies or refuses locked fields. -/
  | registerWrite (path : Nat) (off : Nat) (value : BitVec 64) (lanes : Nat)
  /-- REFERENCE_SWITCH (R28). On loss of its primary reference, a field PLL switches to its alternate or its rim line within 1 µs. -/
  | referenceSwitch (field : Nat)
  /-- TICK_SCHEDULE (R34). The command sets a new epoch, base tick and period at step 7 and cancels any pending rate change. -/
  | tickSchedule (p : Packet)
  /-- TICK_RATE_CHANGE (R36). The command is checked and staged, and the new period is applied at the boundary of tick T. -/
  | tickRateChange (p : Packet)
  /-- HEARTBEAT (R37). A received authenticated heartbeat is checked for tick and period, and it resets the partner-loss count. -/
  | heartbeat (port : Nat) (hb : Heartbeat)
  /-- TICK_WAVE_SEND (R38). Once per tick, ahead of the boundary, the timebase master sends the wave message on the signal canal. -/
  | tickWaveSend
  /-- TICK_WAVE (R38). A field receives the wave message, corrects it by its latency, and arms its tick at the start value. -/
  | tickWave (field : Nat)
  /-- TICK_WAVE_REROOT (R39). When a parent field goes dark, its children switch to their alternate parents within 10 µs. -/
  | tickWaveReroot (parent : Nat)
  /-- TICK_WAVE_LOST (R40). A field with no wave message for 64 ticks, or with a late period change, is fenced. -/
  | tickWaveLost (field : Nat)
  /-- TIMING_FRAME (R50). A received timing frame updates the port servo's delay and offset, and it may slew or step the counter. -/
  | timingFrame (port : Nat) (msg : List (BitVec 8)) (dt : Nat) (eighth : Nat)
  /-- UPSTREAM_LOST (R54). On loss of the active upstream, the module switches to ALT1 or ALT2 within 2 ticks and holds its frequency. -/
  | upstreamLost
  /-- TIME_LOST (R54). Holdover beyond 10 s, or a re-acquisition offset above 5 µs, raises a job fault while a job runs. -/
  | timeLost (reacquired : Bool)
  /-- PPSSEED (R55). A write of 1 to LCK_SRC.PPSSEED arms a counter load at the next PPS edge, unless a job is armed or running. -/
  | ppsseed (write : SeedWrite)
  /-- PPS_EDGE (R55). A rising PPS_IN edge aligns the servo and performs an armed PPSSEED load if no job is armed or running. -/
  | ppsEdge (dt : Nat)
  /-- LCK_WALL_READ (R56). A read of LCK_WALL latches the counter value into LCK_WALLCNT. -/
  | lckWallRead (dt : Nat)
  /-- NTP_PACKET (R56). A received RFC 5905 packet disciplines Shepherd's wall clock. -/
  | ntpPacket (server : Nat) (offsetNs : Int)
  /-- MAT_MODE (R63). The instruction reads a mode descriptor and sets the engine's current mode. -/
  | matMode (i : Issue)
  /-- MAT_LOAD (R64). The instruction checks its load descriptor, makes the tile pending, and starts the weight feeder or the GME. -/
  | matLoad (i : Issue)
  /-- MAT_STREAM (R65). The instruction checks its stream descriptor and queues one pass on the engine. -/
  | matStream (i : Issue)
  /-- MAT_WAIT (R66). The instruction issues once the engine has at most c passes outstanding. -/
  | matWait (i : Issue)
  /-- SHADOW_LOAD_START (R69). A pending tile's shadow load begins at the latest of the previous swap issue, its load acceptance and feeder readiness. -/
  | shadowLoadStart (site : Nat) (e : Nat)
  /-- PASS_ISSUE (R68). A queued pass issues at the earliest cycle that meets R68 and swaps in any new tile along the front. -/
  | passIssue (site : Nat) (e : Nat) (paused : Nat)
  /-- PASS_COMPLETE (R67). A pass's last output row is written, freeing its queue place and bank claim. -/
  | passComplete (site : Nat) (e : Nat) (paused : Nat)
  /-- MAT_CLEAR (R377). MAT_CTL.CLEAR clears the engine counters at the next boundary. -/
  | matClear (path : Nat) (site : Nat) (e : Nat)
  /-- SEQ_NOP (R107). The instruction does nothing. -/
  | seqNop (i : Issue)
  /-- SEQ_LDI (R107). The instruction loads a sign-extended immediate into sD. -/
  | seqLdi (i : Issue)
  /-- SEQ_LDIH (R107). The instruction sets the upper 32 bits of sD from IMM. -/
  | seqLdih (i : Issue)
  /-- SEQ_ADD (R107). sD gets sA plus sB. -/
  | seqAdd (i : Issue)
  /-- SEQ_ADDI (R107). sD gets sA plus the sign-extended immediate. -/
  | seqAddi (i : Issue)
  /-- SEQ_SUB (R107). sD gets sA minus sB. -/
  | seqSub (i : Issue)
  /-- SEQ_MUL (R107). sD gets the low 64 bits of sA times sB. -/
  | seqMul (i : Issue)
  /-- SEQ_AND (R107). sD gets the bitwise AND of sA and sB. -/
  | seqAnd (i : Issue)
  /-- SEQ_OR (R107). sD gets the bitwise OR of sA and sB. -/
  | seqOr (i : Issue)
  /-- SEQ_XOR (R107). sD gets the bitwise XOR of sA and sB. -/
  | seqXor (i : Issue)
  /-- SEQ_SHL (R107). sD gets sA shifted left by sB[5:0]. -/
  | seqShl (i : Issue)
  /-- SEQ_SHR (R107). sD gets sA shifted right logically by sB[5:0]. -/
  | seqShr (i : Issue)
  /-- SEQ_SRA (R107). sD gets sA shifted right arithmetically by sB[5:0]. -/
  | seqSra (i : Issue)
  /-- SEQ_LD (R107). sD is loaded with 8 bytes of core memory. -/
  | seqLd (i : Issue)
  /-- SEQ_ST (R107). sB is stored as 8 bytes of core memory, outside the code region. -/
  | seqSt (i : Issue)
  /-- SEQ_BEQ (R107). The core branches if sA equals sB. -/
  | seqBeq (i : Issue)
  /-- SEQ_BNE (R107). The core branches if sA differs from sB. -/
  | seqBne (i : Issue)
  /-- SEQ_BLT (R107). The core branches if sA is less than sB, signed. -/
  | seqBlt (i : Issue)
  /-- SEQ_BGE (R107). The core branches if sA is at least sB, signed. -/
  | seqBge (i : Issue)
  /-- SEQ_BLTU (R107). The core branches if sA is less than sB, unsigned. -/
  | seqBltu (i : Issue)
  /-- SEQ_BGEU (R107). The core branches if sA is at least sB, unsigned. -/
  | seqBgeu (i : Issue)
  /-- SEQ_JAL (R107). The instruction saves the return address in sD and jumps relative. -/
  | seqJal (i : Issue)
  /-- SEQ_JR (R107). The instruction jumps to sA. -/
  | seqJr (i : Issue)
  /-- SEQ_RDSYS (R107). sD gets the system value of Table 5-4 that IMM selects. -/
  | seqRdsys (i : Issue)
  /-- MOV_COPY (R109). The instruction starts a block copy between core memory, cluster memory and the accumulator store. -/
  | movCopy (i : Issue)
  /-- MOV_FILL (R109). The instruction starts a block fill with the 64-bit value in sB. -/
  | movFill (i : Issue)
  /-- MOV_WAIT (R109). The instruction issues once at most IMM copies remain outstanding. -/
  | movWait (i : Issue)
  /-- COPY_COMPLETE (R109). A copy finishes and posts its semaphore. -/
  | copyComplete (site : Nat) (idx : Nat)
  /-- CNL_SEND (R156). The instruction checks its descriptor and injects unicast flits, or XFER flits towards a port. -/
  | cnlSend (i : Issue)
  /-- CNL_MCAST (R161). The instruction sends multicast flits to a rectangle. -/
  | cnlMcast (i : Issue)
  /-- CNL_CONF (R163). The instruction sends confluence flits with CARRIED 1. -/
  | cnlConf (i : Issue)
  /-- CNL_POST (R156). The instruction sends one SIGNAL flit that adds VALUE to a remote semaphore. -/
  | cnlPost (i : Issue)
  /-- CNL_WAIT (R110). The instruction issues once at most IMM sends are outstanding. -/
  | cnlWait (i : Issue)
  /-- SEND_COMPLETE (R158). A send's last flit leaves the local port, which frees the source and posts LSEM. -/
  | sendComplete (site : Nat) (idx : Nat)
  /-- SYN_MARK (R112). The instruction ends the stage once every uncarried unit has completed. -/
  | synMark (i : Issue)
  /-- SYN_SEMWAIT (R115). The instruction issues when the semaphore reaches v, and it subtracts v. -/
  | synSemwait (i : Issue)
  /-- SYN_SEMPOST (R115). The instruction adds IMM to a semaphore. -/
  | synSempost (i : Issue)
  /-- SYN_SEMREAD (R115). The instruction copies a semaphore into sD. -/
  | synSemread (i : Issue)
  /-- SYN_ATTIME (R114). The instruction issues once the time into the tick reaches sA plus IMM. -/
  | synAttime (i : Issue)
  /-- VEC_ADD (R120). The vector unit adds vA and vB. -/
  | vecAdd (i : Issue)
  /-- VEC_SUB (R120). The vector unit subtracts vB from vA. -/
  | vecSub (i : Issue)
  /-- VEC_MUL (R120). The vector unit multiplies vA by vB. -/
  | vecMul (i : Issue)
  /-- VEC_FMA (R120). The vector unit computes vA × vB + vC with one rounding. -/
  | vecFma (i : Issue)
  /-- VEC_MAX (R120). The vector unit takes the elementwise maximum. -/
  | vecMax (i : Issue)
  /-- VEC_MIN (R120). The vector unit takes the elementwise minimum. -/
  | vecMin (i : Issue)
  /-- VEC_ABS (R120). The vector unit takes absolute values. -/
  | vecAbs (i : Issue)
  /-- VEC_NEG (R120). The vector unit negates the elements. -/
  | vecNeg (i : Issue)
  /-- VEC_SEL (R120). The vector unit selects vA or vB per mask bit. -/
  | vecSel (i : Issue)
  /-- VEC_CMPGT (R120). The vector unit writes a greater-than mask. -/
  | vecCmpgt (i : Issue)
  /-- VEC_CMPGE (R120). The vector unit writes a greater-or-equal mask. -/
  | vecCmpge (i : Issue)
  /-- VEC_CMPEQ (R120). The vector unit writes an equality mask. -/
  | vecCmpeq (i : Issue)
  /-- VEC_BCAST (R120). The vector unit broadcasts a scalar into every element. -/
  | vecBcast (i : Issue)
  /-- VEC_EXP (R121). The vector unit computes the exponential. -/
  | vecExp (i : Issue)
  /-- VEC_LOG (R121). The vector unit computes the logarithm. -/
  | vecLog (i : Issue)
  /-- VEC_RCP (R121). The vector unit computes the reciprocal. -/
  | vecRcp (i : Issue)
  /-- VEC_RSQRT (R121). The vector unit computes the reciprocal square root. -/
  | vecRsqrt (i : Issue)
  /-- VEC_TANH (R121). The vector unit computes tanh. -/
  | vecTanh (i : Issue)
  /-- VEC_ERF (R121). The vector unit computes erf. -/
  | vecErf (i : Issue)
  /-- VEC_GELU (R121). The vector unit computes GELU. -/
  | vecGelu (i : Issue)
  /-- VEC_SIGMOID (R121). The vector unit computes the sigmoid. -/
  | vecSigmoid (i : Issue)
  /-- VEC_GELUT (R121). The vector unit computes the tanh-form GELU. -/
  | vecGelut (i : Issue)
  /-- VEC_RSUM (R122). The vector unit sums the lanes in a fixed tree. -/
  | vecRsum (i : Issue)
  /-- VEC_RMAX (R122). The vector unit reduces to the lane maximum. -/
  | vecRmax (i : Issue)
  /-- VEC_RMIN (R122). The vector unit reduces to the lane minimum. -/
  | vecRmin (i : Issue)
  /-- VEC_RARGMAX (R122). The vector unit writes the maximum and its index. -/
  | vecRargmax (i : Issue)
  /-- VEC_RARGMIN (R122). The vector unit writes the minimum and its index. -/
  | vecRargmin (i : Issue)
  /-- VEC_TOPK (R123). The vector unit selects the top K values per lane group from memory rows. -/
  | vecTopk (i : Issue)
  /-- VEC_LD (R120). vD is loaded with 512 bytes of core memory. -/
  | vecLd (i : Issue)
  /-- VEC_ST (R120). vB is stored as 512 bytes of core memory. -/
  | vecSt (i : Issue)
  /-- VEC_LDACC (R74). vD is loaded from an accumulator row, held while the bank is claimed. -/
  | vecLdacc (i : Issue)
  /-- VEC_STACC (R74). vB is written into an accumulator row, held while the bank is claimed. -/
  | vecStacc (i : Issue)
  /-- VEC_CVT (R124). The vector unit converts between FP32 and a narrow format. -/
  | vecCvt (i : Issue)
  /-- VEC_QMX (R125). The vector unit quantises 512 FP32 values into MX blocks. -/
  | vecQmx (i : Issue)
  /-- VEC_RAND (R126). vD is filled with Philox random words. -/
  | vecRand (i : Issue)
  /-- SEQ_CLEAR (R377). SEQ_CTL.CLEAR clears the core counters and SEQ_MARGIN at the next boundary. -/
  | seqClear (path : Nat) (site : Nat)
  /-- SPARE_REMAP (R129). After the job stops, Shepherd remaps a cluster around a failed site to its spare, or retires the cluster. -/
  | spareRemap (cluster : Nat)
  /-- GME_LANE_TAKE (R138). A free GME lane takes the oldest sparse load request and begins setup. -/
  | gmeLaneTake (cluster : Nat)
  /-- GME_SETUP_DONE (R144). After 64 cycles of setup and checks, the lane begins emission or ends the tile with a fault. -/
  | gmeSetupDone (cluster : Nat) (lane : Nat)
  /-- GME_EMISSION_DONE (R138). The lane finishes writing 256 rows into the feeder and becomes free. -/
  | gmeEmissionDone (cluster : Nat) (lane : Nat)
  /-- GME_CLEAR (R377). GME_CTL.CLEAR clears the GME counters at the next boundary. -/
  | gmeClear (path : Nat) (cluster : Nat)
  /-- CANAL_FLIT_HOP (R169). A router forwards a flit one hop, with ECC correction, detours around fenced rectangles, or discards. -/
  | canalFlitHop (idx : Nat) (err : FlitError)
  /-- CANAL_FLIT_DELIVER (R157). An arriving unicast, multicast or signal flit is written and posts its semaphore, or is discarded with DEST. -/
  | canalFlitDeliver (idx : Nat)
  /-- CONF_MERGE (R163). A confluence flit at a router takes or merges into a partial-sum buffer, which is sent on when CARRIED reaches COUNT. -/
  | confMerge (idx : Nat)
  /-- CONF_BUFFER_TIMEOUT (R164). A partial-sum buffer held 4,096 cycles is sent on with PARTIAL set. -/
  | confBufferTimeout (router : Nat) (idx : Nat)
  /-- CONF_LANDING (R165). A confluence flit at its destination adds into a landing entry, which writes and posts when complete. -/
  | confLanding (idx : Nat)
  /-- CANAL_LANDING (R166). A flit waiting 65,536 cycles for a landing entry is discarded with a job fault. -/
  | canalLanding (site : Nat) (idx : Nat)
  /-- FENCE_MESSAGE (R23). A signal canal FENCE broadcast marks a unit fenced and reaches Shepherd as a management event. -/
  | fenceMessage (msg : ScnId) (news : FenceNews)
  /-- RECT (R168). A signal canal RECT message updates the routers' fenced rectangle lists. -/
  | rect (msg : ScnId) (news : RectNews)
  /-- JOB_FAULT (R369). A raised job fault stops the job's cores, stops trains, chains and collectives, records the fault and sends notices. -/
  | jobFault (msg : ScnId) (news : FaultNews)
  /-- ARB_SHEEPDOG_BITE (R175). An arbiter with no beat moved for LIMIT cycles under pending requests fences its resource. -/
  | arbSheepdogBite (base : Nat) (oldest : Nat)
  /-- ARB_SWAP (R176). ARB_CTL.SWAP exchanges the shadow and active slot tables at step 6 of the next boundary. -/
  | arbSwap (path : Nat) (base : Nat)
  /-- RTR_CLEAR (R377). RTR_CTL.CLEAR clears the router counters and RTR_ERR at the next boundary. -/
  | rtrClear (path : Nat) (router : Nat)
  /-- RIM_WRITE (R180). A stack controller writes a 256-byte line from a WRITE flit, or discards it. -/
  | rimWrite (idx : Nat)
  /-- RIM_ACC (R185). A stack controller accumulates an ACC flit into a basin line in FP32. -/
  | rimAcc (idx : Nat)
  /-- RIM_READ (R181). A READ request is checked whole and returns its lines as reply flits. -/
  | rimRead (idx : Nat)
  /-- RIM_ACK (R183). When its gathering window of up to 64 SMC cycles ends, the controller sends an acknowledgement SIGNAL for performed flits. -/
  | rimAck (stack : Nat) (idx : Nat)
  /-- CXL_MEM_WRITE (R187). A host CXL.mem write to the quay is merged into whole code words atomically. -/
  | cxlMemWrite (port : Nat) (addr : Nat) (data : List (BitVec 8)) (enable : List Bool)
  /-- CXL_MEM_READ (R187). A host CXL.mem read of the quay returns data, reporting poison. -/
  | cxlMemRead (port : Nat) (addr : Nat)
  /-- CHAMBER_WRITE (R285). A host write into a command chamber slot stores packet bytes or STATE. -/
  | chamberWrite (port : Nat) (off : Nat) (data : List (BitVec 8))
  /-- HEAT_WINDOW_END (R194). At the end of each 64-tick window, each cluster promotes hot pages into frames. -/
  | heatWindowEnd
  /-- TIR_PREFETCH (R197). The instruction pins pages and starts frame fills by a deadline. -/
  | tirPrefetch (i : Issue)
  /-- TIR_RELEASE (R196). The instruction ends the pins that its descriptor names. -/
  | tirRelease (i : Issue)
  /-- TIR_GET (R198). The instruction copies reservoir bytes from frames, pending fills or stacks into core or scratch memory. -/
  | tirGet (i : Issue)
  /-- FRAME_FILL_DONE (R197). A frame fill completes, and the page becomes resident. -/
  | frameFillDone (cluster : Nat) (frame : Nat)
  /-- PIN_EXPIRY (R197). A pin ends at the end of tick deadline plus HOLD. -/
  | pinExpiry (cluster : Nat)
  /-- GET_DEADLINE_MISS (R198). At the deadline boundary, a GET waiting on a fill changes to the in-place path and a miss is counted. -/
  | getDeadlineMiss (cluster : Nat) (idx : Nat)
  /-- TIR_GET_COMPLETE (R196). A GET finishes writing its bytes and posts its semaphore. -/
  | tirGetComplete (cluster : Nat) (idx : Nat)
  /-- PATROL_SCRUB (R203). The scrubber reads and corrects a word of SRAM or stack on its patrol schedule. -/
  | patrolScrub (mem : Nat) (addr : Nat) (flips : List Nat)
  /-- STK_CLEAR (R377). STK_CTL.CLEAR clears the stack counters and STK_ERR at the next boundary. -/
  | stkClear (path : Nat) (stack : Nat)
  /-- TIR_CLEAR (R377). TIR_CTL.CLEAR clears the tier counters at the next boundary. -/
  | tirClear (path : Nat) (cluster : Nat)
  /-- LINK_TRAINING_DONE (R216). Lane lock, deskew and FEC alignment complete, and IDENT frames begin. -/
  | linkTrainingDone (port : Nat)
  /-- IDENT (R221). A received peer record is compared with the expected entry, giving UP, MGMT_ONLY or quarantine; on an up session it restarts the session. -/
  | ident (port : Nat) (rec : PeerRec) (chains : ChainPair)
  /-- KEYX (R217). A key-exchange frame advances the hybrid exchange; on success, session keys are derived. -/
  | keyx (port : Nat) (msg : KeyxMsg)
  /-- QUARANTINE_RETRY (R221). Every 10 s, a quarantined port retries identification. -/
  | quarantineRetry (port : Nat)
  /-- HOP_FRAME_RECEIVE (R214). A hop receiver checks CRC and SEQ, NAKs gaps, and passes in-order frames to the link layer for authentication and tag checks. -/
  | hopFrameReceive (port : Nat) (rx : Received)
  /-- CREDIT (R212). A received CREDIT frame returns credits for all four lanes. -/
  | credit (port : Nat) (counts : List Nat)
  /-- ACK (R214). A cumulative ACK frees acknowledged frames from the replay buffer. -/
  | ack (port : Nat) (seq : Nat)
  /-- NAK (R214). A NAK makes the sender resend from the named SEQ. -/
  | nak (port : Nat) (seq : Nat)
  /-- REPLAY_TIMEOUT (R214). After 20 µs with no ACK progress, the sender replays; after 16 resends the hop goes down. -/
  | replayTimeout (port : Nat)
  /-- LANE_SER_EXCEEDED (R215). A 1 ms window with pre-FEC symbol errors above 10^-4 reports a lane error. -/
  | laneSerExceeded (port : Nat) (lane : Nat)
  /-- LINK_WIDTH_CHANGED (R215). Both ends finish changing to half width, and LINK_DEGRADED is posted. -/
  | linkWidthChanged (port : Nat)
  /-- REKEY (R219). After 2^32 protected frames, the sender changes to the next key and inverts KPH. -/
  | rekey (port : Nat)
  /-- OLD_KEY_EXPIRY (R219). The receiver drops the previous key once all lanes show the new phase, or after 10 ms. -/
  | oldKeyExpiry (port : Nat)
  /-- XFER_FLIT_EGRESS (R226). A SHORT flit reaching a port becomes one VL1 XFER frame, or it is discarded with XFER_PORT. -/
  | xferFlitEgress (idx : Nat)
  /-- XFER_FRAME (R227). A received XFER frame is resolved to a core and landed as a SHORT unicast flit. -/
  | xferFrame (port : Nat) (fr : Frame)
  /-- LOSS_OF_LIGHT (R232). No signal on all lanes for 1 µs takes the link down and fences job ports. -/
  | lossOfLight (port : Nat)
  /-- PARTNER_LOST (R232). Missing heartbeats for three ticks, or none within 2 ms plus 3 ticks, take the link down. -/
  | partnerLost (port : Nat)
  /-- TPX_CLEAR (R377). TPx_CTL.CLEAR clears the port counters and TPx_ERR at the next boundary. -/
  | tpxClear (path : Nat) (port : Nat)
  /-- MANIFEST (R241). A received manifest is checked and held, or refused with MANIFEST_REFUSED. -/
  | manifest (m : Vl0Msg)
  /-- BARGE (R243). A received barge is hash- and tag-checked and written to the reservoir, or marked failed. -/
  | barge (m : Vl0Msg)
  /-- SEGMENT (R244). A received segment is verified against ROOT and held. -/
  | segment (m : Vl0Msg)
  /-- KEYWRAP (R245). A content key is unwrapped and applied, or kept for a later manifest, or refused. -/
  | keywrap (m : Vl0Msg)
  /-- KEYWRAP_HOLD_EXPIRY (R245). A kept KEYWRAP with no matching manifest after 64 ticks is dropped as KEY_REFUSED. -/
  | keywrapHoldExpiry (src : Nat)
  /-- KEY_FETCH (R245). Every 16 ticks without a key after the manifest, the module sends a FETCH for the content key. -/
  | keyFetch (src : Nat)
  /-- READY (R248). A READY received from a train output is recorded. -/
  | ready (m : Vl0Msg)
  /-- READY_SEND (R248). Once its conditions hold, the module sends READY upstream on the train. -/
  | readySend (train : Nat)
  /-- TRAIN_RELAY (R249). A train frame of the expected generation is relayed to every train output. -/
  | trainRelay (port : Nat) (fr : Frame)
  /-- FETCH (R254). A FETCH from a successor is answered from the reservoir, queued, or NAKed. -/
  | fetch (m : Vl0Msg)
  /-- FETCH_SERVE (R254). A waiting fetch request is served once its chunk passes. -/
  | fetchServe (idx : Nat)
  /-- FETCH_NAK (R253). A received FETCH_NAK fails the refetch attempt. -/
  | fetchNak (m : Vl0Msg)
  /-- ADAPTER_FETCH_SEND (R252). The module sends FETCH messages for an adapter's manifest, segments and held chunks. -/
  | adapterFetchSend (src : Nat)
  /-- FETCH_TIMEOUT (R253). A refetch without a reply within its limit fails; a second failure raises INGEST_CHUNK or INGEST_SEGMENT. -/
  | fetchTimeout (idx : Nat)
  /-- WST_CLEAR (R377). WST_CTL.CLEAR clears the ingest counters at the next boundary. -/
  | wstClear (path : Nat)
  /-- GRAD (R267). A GRAD frame reaches its junction, where it is summed with other inputs and the local slice and sent on. -/
  | grad (port : Nat) (fr : List (BitVec 8))
  /-- CHAIN_COMPLETE (R268). The LAST frame leaves OUT, and a SIGNAL posts the completion semaphore. -/
  | chainComplete (port : Nat) (chain : Nat)
  /-- CHAIN_STALL (R269). No frame on an expected input for DELAY plus 2 ticks raises a job fault. -/
  | chainStall (port : Nat) (chain : Nat)
  /-- VERDICT (R273). A weight-server verdict is counted; a mismatch raises REDUCE_MISMATCH and fences the output port. -/
  | verdict (port : Nat) (fr : List (BitVec 8))
  /-- COLL_COUNT (R277). A COLL_COUNT frame advances the capacity pre-phase. -/
  | collCount (port : Nat) (fr : List (BitVec 8))
  /-- COLL_DATA (R278). A COLL_DATA frame is checked, added to the vector, and advances the step; the last step writes the result and posts SEM. -/
  | collData (port : Nat) (fr : List (BitVec 8))
  /-- COLL_STALL (R280). A step waiting DELAY plus 2 ticks for its partner raises a job fault. -/
  | collStall
  /-- JNC_CLEAR (R377). JNC_CTL.CLEAR clears the junction counters at the next boundary. -/
  | jncClear (path : Nat) (port : Nat)
  /-- COLL_CLEAR (R377). COLL_CTL.CLEAR clears the collective counters at the next boundary. -/
  | collClear (path : Nat)
  /-- LOAD (R127). The command copies a lock program image from the quay and checks it. -/
  | load (p : Packet)
  /-- PLACE (R128). The command maps logical fields to physical fields, writes core memories, sets SCRATCH and wakes the fields. -/
  | place (p : Packet)
  /-- ARM (R300). The command checks, computes the gear floor, stages tags, forwards to its children and zeroes the basin. -/
  | arm (p : Packet)
  /-- ARM_BASIN_ZEROED (R300). Basin zeroing completes, and the ARM replies DONE once its children have replied. -/
  | armBasinZeroed
  /-- ARM_CHILD_REPLY (R301). A child's ARM reply arrives, and a non-DONE status makes the ARM reply 0x0504. -/
  | armChildReply (child : Nat) (status : Nat)
  /-- ARM_CHILD_TIMEOUT (R301). A child silent for 64 ticks plus 32 ms makes the ARM reply 0x0504. -/
  | armChildTimeout (child : Nat)
  /-- ARM_EXPIRY (R301). An ARM not started within 10 s expires, returning to PLACED and clearing staged tags. -/
  | armExpiry
  /-- START (R301). The command commits T0, makes the staged tag current, and forwards to the children. -/
  | start (p : Packet)
  /-- QUIESCE (R299). The command stops further stages, clears tags and drains the job's egress queues. -/
  | quiesce (p : Packet)
  /-- QUIESCE_DRAINED (R299). The job's VL0 and VL1 queues are empty, so QUIESCE completes and the quiescing flag ends. -/
  | quiesceDrained
  /-- ABORT (R299). The command stops the job at its boundary and discards queued frames. -/
  | abort (p : Packet)
  /-- STATUS (R299). The command returns the job status data at once. -/
  | status (p : Packet)
  /-- NOP (R302). The command completes with no effect. -/
  | nop (p : Packet)
  /-- IDENTIFY (R302). The command returns the module identity data. -/
  | identify (p : Packet)
  /-- SEQ_RESET (R288). The command sets the source's NEXT to s + 1. -/
  | seqReset (p : Packet)
  /-- PLACE_SET (R319). The command commits a new place address, effective at the next boundary. -/
  | placeSet (p : Packet)
  /-- QUAY_WRITE (R302). The command writes data into the quay. -/
  | quayWrite (p : Packet)
  /-- QUAY_READ (R302). The command returns quay bytes. -/
  | quayRead (p : Packet)
  /-- PEN_QUOTA (R195). The command sets a pen's quotas, checked against any standing admission. -/
  | penQuota (p : Packet)
  /-- ADMIT (R236). The command defines sources and sizes the reservoir and basin, all or nothing. -/
  | admission (p : Packet)
  /-- TRAIN_SET (R247). The command writes the barge train table. -/
  | trainSet (p : Packet)
  /-- FLIP_PLAN (R255). The command names the loop stage at which flips happen. -/
  | flipPlan (p : Packet)
  /-- PORT_PLAN (R230). The command stages a port plan for its target boundary. -/
  | portPlan (p : Packet)
  /-- FENCE (R368). The command fences a unit at its boundary. -/
  | fence (p : Packet)
  /-- UNFENCE (R24). The command lifts the fences that stood at acceptance, unless a new fence or a retirement forbids it. -/
  | unfence (p : Packet)
  /-- PEER_EXPECT (R222). The command sets a port's expected-peer entry, which may quarantine, upgrade or downgrade the link. -/
  | peerExpect (p : Packet)
  /-- ROUTE_LOAD (R323). The command stages route, prefix, multicast and arbiter tables. -/
  | routeLoad (p : Packet)
  /-- CHAIN_LOAD (R264). The command stages chain entries after checking them. -/
  | chainLoad (p : Packet)
  /-- MEMBER_LOAD (R302). The command stages the job membership table. -/
  | memberLoad (p : Packet)
  /-- TIME_SOURCE (R49). The command sets the time sources and port asymmetries. -/
  | timeSource (p : Packet)
  /-- TIME_SERVERS (R56). The command names the wall-clock servers. -/
  | timeServers (p : Packet)
  /-- TIME_READ (R302). The command returns the counter, tick, wall clock and sync status. -/
  | timeRead (p : Packet)
  /-- CAP_SET (R339). The command sets the power cap at the next boundary. -/
  | capSet (p : Packet)
  /-- BRAKE (R341). The command applies or releases the command brake source. -/
  | brake (p : Packet)
  /-- GEAR_SET (R302). The command sets the commanded gear for step 4. -/
  | gearSet (p : Packet)
  /-- FIELD_STATE (R333). The command moves a field to RUN, REST, DOZE or FALLOW through RUN. -/
  | fieldState (p : Packet)
  /-- POWER_READ (R327). The command returns the power and thermal measurements. -/
  | powerRead (p : Packet)
  /-- SNAP_READ (R25). The command returns counters from a snapshot. -/
  | snapRead (p : Packet)
  /-- MAP_READ (R359). The command returns wafer map bytes or the re-placement proposal. -/
  | mapRead (p : Packet)
  /-- FLOOD_TEST (R350). The command starts a commanded cold flood or full memory test. -/
  | floodTest (p : Packet)
  /-- MARGIN_SURVEY (R363). The command starts a full margin survey. -/
  | marginSurvey (p : Packet)
  /-- MARGIN_READ (R365). The command returns the margin plan. -/
  | marginRead (p : Packet)
  /-- TALLY_READ (R318). The command returns tally entries from the named index. -/
  | tallyRead (p : Packet)
  /-- FW_WRITE (R310). The command writes firmware bytes into a slot and marks it WRITTEN. -/
  | fwWrite (p : Packet)
  /-- FW_COMMIT (R310). The command checks a slot's image and commits its record. -/
  | fwCommit (p : Packet)
  /-- FW_ACTIVATE (R310). The command writes the boot record for the next reset. -/
  | fwActivate (p : Packet)
  /-- ROOT_ADD (R308). The command installs an authorised partner root pair. -/
  | rootAdd (p : Packet)
  /-- ROOT_REMOVE (R308). The command removes an authorised partner root pair. -/
  | rootRemove (p : Packet)
  /-- RESET (R374). The command performs a reset of the named class. -/
  | reset (p : Packet)
  /-- COLL_LOAD (R275). The command stages collective entries. -/
  | collLoad (p : Packet)
  /-- REPLY_WRITE (R293). A reply entry is written into the ring, or held while the ring is full. -/
  | replyWrite (port : Nat)
  /-- CMD_RINGTAIL_WRITE (R293). Host software advances the tail, freeing room for held replies. -/
  | cmdRingtailWrite (path : Nat) (port : Nat) (tail : Nat)
  /-- RING_ENABLE (R293). A write of 1 to CMD_RINGCFG.EN resets head, tail and phase. -/
  | ringEnable (path : Nat) (port : Nat) (value : BitVec 64)
  /-- CMD_CLEAR (R377). CMD_CTL.CLEAR clears the port command counters at the next boundary. -/
  | cmdClear (path : Nat) (port : Nat)
  /-- MGMT_FRAME (R322). A VL2 frame is delivered to a local unit, relayed by route, or dropped. -/
  | mgmtFrame (port : Nat) (fr : Frame)
  /-- MCTP_MESSAGE (R324). An MCTP message on I3C or VL2 is dispatched by its message type. -/
  | mctpMessage (msg : MctpMsg)
  /-- SET_ENDPOINT_ID (R324). The rack manager assigns the I3C endpoint ID. -/
  | setEndpointId (eid : Nat)
  /-- PLDM_REQUEST (R324). A PLDM discovery or sensor request is answered. -/
  | pldmRequest (msg : MctpMsg)
  /-- GET_VERSION (R312). The SPDM responder returns its versions. -/
  | getVersion (conn : Nat) (req : List (BitVec 8))
  /-- GET_CAPABILITIES (R312). The SPDM responder returns its capabilities. -/
  | getCapabilities (conn : Nat) (req : List (BitVec 8))
  /-- NEGOTIATE_ALGORITHMS (R312). The SPDM responder selects Ed25519 and SHA3-256. -/
  | negotiateAlgorithms (conn : Nat) (req : List (BitVec 8))
  /-- GET_DIGESTS (R312). The SPDM responder returns the certificate slot digests. -/
  | getDigests (conn : Nat) (req : List (BitVec 8))
  /-- GET_CERTIFICATE (R312). The SPDM responder returns a certificate chain. -/
  | getCertificate (conn : Nat) (req : List (BitVec 8))
  /-- CHALLENGE (R312). The SPDM responder returns a signed CHALLENGE_AUTH. -/
  | challenge (conn : Nat) (req : List (BitVec 8))
  /-- GET_MEASUREMENTS (R314). The SPDM responder returns the measurements of Table 13-4. -/
  | getMeasurements (conn : Nat) (req : List (BitVec 8))
  /-- PQSIG (R313). A vendor-defined request returns the ML-DSA-65 signature over the last signed transcript. -/
  | pqsig (conn : Nat) (req : List (BitVec 8))
  /-- PAIR_LOCKSTEP_MISMATCH (R305). Disagreeing cores in a lockstep pair restart the pair. -/
  | pairLockstepMismatch (pair : Nat)
  /-- PAIR_SHEEPDOG_EXPIRY (R305). A pair unserviced for 100 ms restarts. -/
  | pairSheepdogExpiry (pair : Nat)
  /-- PAIR_RESTART_DONE (R305). A restarted pair resumes its duties; a third restart within 1 h retires it. -/
  | pairRestartDone (pair : Nat)
  /-- BOOT (R311). The boot ROM checks the slots and runs the first passing image, or the recovery service. -/
  | boot
  /-- FUSE_BURN (R311). After self-test, fuses are blown up to the running image's SVN. -/
  | fuseBurn
  /-- TALLY_FLUSH (R317). Buffered tally entries are written to flash, with a gap entry when room returns. -/
  | tallyFlush (count : Nat)
  /-- SEC_NONCE_READ (R308). A read of SEC_NONCE0 draws a new authorisation nonce. -/
  | secNonceRead
  /-- INPUT_UNDERVOLTAGE (R341). Input below 38 V applies the undervoltage brake source. -/
  | inputUndervoltage
  /-- INPUT_LOW (R348). Input below 36 V for 1 ms makes every field fallow and drops the module to standby. -/
  | inputLow
  /-- INPUT_HIGH (R347). Input above 52 V raises an event, and above 54 V for 100 µs it starts an ordered shutdown. -/
  | inputHigh (shutdown : Bool)
  /-- INPUT_RESTORED (R348). Input at or above 40 V for 100 ms lets fields be powered and starts a cold flood. -/
  | inputRestored
  /-- STANDBY_POWER_UP (R374). The return of standby power gives a COLD reset and boot. -/
  | standbyPowerUp (strap : Nat)
  /-- INPUT_SAMPLE (R327). Every 1 µs, input voltage and current are measured and the power averages updated; overpower applies the brake. -/
  | inputSample (volt : Nat) (curr : Nat) (tin : Nat) (tout : Nat)
  /-- PHASE_FAIL (R328). A phase slot with no ripple for 1 ms is marked failed; a second fences the field. -/
  | phaseFail (field : Nat) (phase : Nat)
  /-- POWER_REGION_LOST (R329). A shorted region latches off, and its fields are fenced and marked lost. -/
  | powerRegionLost (region : Nat)
  /-- ASSIST_FAIL (R330). An assist regulator failure raises the stagger to 4; a third fences the cluster. -/
  | assistFail (cluster : Nat) (reg : Nat)
  /-- POWER_DROOP (R331). A rail below the hard floor for 5 ns fences the field. -/
  | powerDroop (field : Nat)
  /-- CRACK_CHECK (R332). Once per second, contact group resistances are checked for suspect or failed cracks. -/
  | crackCheck (field : Nat) (readings : List CrackReading)
  /-- FIELD_ENTRY_DONE (R336). A field's commit window closes and it latches its new power state. -/
  | fieldEntryDone (field : Nat) (level : Nat)
  /-- FIELD_WAKE_EVENT (R336). A wake source asserts, and the field begins its wake steps. -/
  | fieldWakeEvent (field : Nat) (source : Nat)
  /-- WAKE_REPEAT (R336). Every 10 µs, Shepherd repeats the wake message until the field reports RUN. -/
  | wakeRepeat (field : Nat)
  /-- FIELD_WAKE_STEP_DONE (R335). A wake step's ready signal arrives, and the next step starts or the field reaches RUN. -/
  | fieldWakeStepDone (field : Nat)
  /-- FIELD_WAKE_FAIL (R335). A wake step overrunning twice its time returns the field to FALLOW, unusable. -/
  | fieldWakeFail (field : Nat)
  /-- GEAR_PREPARE (R338). 16 µs before a boundary, the gear is fixed and rails slew up for raises. -/
  | gearPrepare
  /-- RAIL_READY (R338). A rail that reports ready after its boundary lets a held gear raise switch at the next boundary. -/
  | railReady (field : Nat)
  /-- CAP_LOOP_SAMPLE (R340). Every 10 µs, the cap loop samples power and applies the brake if the 10 µs average exceeds the cap by 10 %. -/
  | capLoopSample (volt : Nat) (curr : Nat)
  /-- CAP_GRACE_EXPIRY (R340). CAP_PRESSURE standing for GRACE ms applies the brake at the cap. -/
  | capGraceExpiry
  /-- BRAKE_N_ASSERT (R341). Filtered BRAKE_N low applies the pin brake source. -/
  | brakeNAssert
  /-- BRAKE_N_DEASSERT (R343). BRAKE_N high releases the pin brake source. -/
  | brakeNDeassert
  /-- BRAKE_TRIM (R342). Every 10 µs under the brake, pulse removal is trimmed towards the level. -/
  | brakeTrim (dt : Nat)
  /-- BRAKE_SOURCE_RELEASE (R343). A 1 ms release condition of a brake source ends; with no source left, pulse removal ends at the next boundary. -/
  | brakeSourceRelease (src : Nat)
  /-- PWR_BRAKE_APPLY (R341). A write to PWR_BRAKE.APPLY applies or releases the command source at once. -/
  | pwrBrakeApply (path : Nat) (apply : Bool) (level : Nat)
  /-- PWR_BRAKE_LEVEL (R342). A write of PWR_BRAKE.LEVEL moves the command brake level at once. -/
  | pwrBrakeLevel (path : Nat) (level : Nat)
  /-- PWR_CAP_WRITE (R339). A write to PWR_CAP sets the cap and brake fields, refusing a cap below 12,000 W. -/
  | pwrCapWrite (path : Nat) (value : BitVec 64)
  /-- PWR_CLEAR (R377). PWR_CTL.CLEAR clears the power counters at the next boundary. -/
  | pwrClear (path : Nat)
  /-- FPW_CLEAR (R377). FPW_CTL.CLEAR clears FPW_DROOP and VMIN at the next boundary. -/
  | fpwClear (path : Nat) (field : Nat)
  /-- THERMAL_POLL (R345). Every 1 ms, Shepherd reads Tj and lowers or raises each field's thermal gear. -/
  | thermalPoll (temps : List FieldTemps)
  /-- THERMAL_FALLOW (R346). A cluster at 105 °C makes its field fallow by hardware. -/
  | thermalFallow (field : Nat) (cluster : Nat)
  /-- THERMAL_COOLDOWN (R346). Tj below 85 °C for 1 s releases a thermally fallowed field for wake. -/
  | thermalCooldown (field : Nat)
  /-- THERMAL_SHUTDOWN (R347). A cluster at 115 °C starts the ordered shutdown. -/
  | thermalShutdown (field : Nat) (cluster : Nat)
  /-- COOLANT_DT (R347). An outlet-minus-inlet rise above 18 K for 1 s starts the ordered shutdown. -/
  | coolantDt
  /-- COOLANT_WARM (R344). An inlet above 35 °C raises a management event. -/
  | coolantWarm (tin : Nat)
  /-- FLOOD_START (R350). A flood begins, at step 1 or step 2, with every field in FALLOW. -/
  | floodStart (kind : Nat) (step1 : Bool)
  /-- FLOOD_LEVEL_DONE (R351). A flood level finishes, recording statuses and paths, and the next depth begins. -/
  | floodLevelDone (results : List FieldTest)
  /-- FLOOD_STACK_TEST_DONE (R354). A stack and its edge ports finish their tests. -/
  | floodStackTestDone (stack : Nat) (chanFail : Nat) (laneFail0 : Nat) (laneFail1 : Nat)
  /-- FLOOD_COMMIT (R359). The flood commits the wafer map and margin plan and clears SERVICE. -/
  | floodCommit
  /-- SURVEY_PERIOD_EXPIRY (R363). A field not in a job whose last survey is older than PERIOD hours is surveyed. -/
  | surveyPeriodExpiry (field : Nat)
  /-- SURVEY_FIELD_DONE (R362). A field's margin survey ends, committing offsets and top gear and raising margin events. -/
  | surveyFieldDone (field : Nat) (meas : SurveyMeas)
  /-- CANARY_WATCH (R364). Every 1 s in a running job, canaries are read, and low slack raises an offset or lowers the top gear. -/
  | canaryWatch (field : Nat) (slacks : List Nat)
  /-- ERROR_REPORT (R366). A reported error is classified transient or permanent, and permanent locations take their retirement step. -/
  | errorReport (loc : ErrLoc) (lost : Option Nat)
  /-- JOB_FAULT_NOTICE (R370). A received notice with a matching tag raises remote job fault 0x0C01 and forwards it. -/
  | jobFaultNotice (port : Nat) (notice : Notice)
  /-- REPLACE_READY (R372). Shepherd completes the re-placement proposal and posts REPLACE_READY. -/
  | replaceReady
  /-- HLT_FCLEAR (R377). HLT_FCTL.CLEAR clears the fault counters at the next boundary. -/
  | hltFclear (path : Nat)
  /-- RESET_N_ASSERT (R374). RESET_N low for 1 µs gives a COLD reset. -/
  | resetNAssert (strap : Nat)
  /-- PERST_N (R386). PERST_N asserted for 1 µs resets that CXL port's link. -/
  | perstN (port : Nat)
  /-- CXL_HOT_RESET (R282). A CXL hot reset or link disable resets that port's link only. -/
  | cxlHotReset (port : Nat)
  /-- REFCLK_LOSS (R387). An absent REFCLK is reported, and a REFCLK frequency selection falls back to the oscillator. -/
  | refclkLoss
  /-- PPS_OUT_PULSE (R391). PPS_OUT pulses whenever the counter passes a multiple of 1 s. -/
  | ppsOutPulse (dt : Nat)
  /-- JTAG_INSTRUCTION (R392). A JTAG instruction is performed, or refused on units held by a job. -/
  | jtagInstruction (op : JtagOp)
  /-- LANE_LOSS_OF_LOCK (R215). A single lane losing lock is reported as one error at that lane's location to error classification. -/
  | laneLossOfLock (port : Nat) (lane : Nat)
  /-- ALL_POWER_LOST (R179). Input falls below the 20 V standby converter minimum, so all power is lost, with stack contents, the tally buffer and the volatile state going with it. -/
  | allPowerLost
  /-- REFCLK_PRESENT (R387). A reference clock appears on REFCLK_P/N, ending the fall-back to the oscillator for a REFCLK frequency selection. -/
  | refclkPresent
  /-- ADMIT_BASIN_ZEROED (R186). The write of every basin line to +0 started by an accepted ADMIT completes, and ADMIT gets its reply. -/
  | basinZeroed
  /-- CREDIT_FRAME_SEND (R212). When 256 ns have passed with credits waiting to be returned, the hop receiver sends a CREDIT frame. -/
  | creditFrameSend (port : Nat)
  /-- ACK_SEND (R214). When 256 ns have passed since the last ACK, the hop receiver sends a cumulative ACK. -/
  | ackSend (port : Nat)
  /-- CXL_LINK_DOWN (R303). A CXL port's link goes down without a hot reset or PERST_N, and the replies held for that port are discarded. -/
  | cxlLinkDown (port : Nat)
  /-- FLOOD_SERVICE_TEST_DONE (R350). Flood step 2, Shepherd's test of the service complex, completes and the fields at depth 0 begin their tests. -/
  | floodServiceTestDone (passed : Bool)
  deriving DecidableEq, Repr, Inhabited

end Sys2Proof
end

