-- ==== Sys2Proof/Decode.lean ====
section
/-!
DEFINITION. Sys2Proof/Decode.lean: the words the spec gives bits to. No row of the command table has an encoding, so
`decodeTableWord` reads none. The 64-bit instruction word of a core's lock program (Table 5-2) is decoded and encoded
here; a word whose CLASS is reserved is rejected by name.
-/

namespace Sys2Proof

/-- No row of spec/opcode_table.json gives bits. (Log 1 DESIGN CHOICE.) -/
def decodeTableWord (_nbits _w : Nat) : Option Instr := none

/-- Instruction classes (Table 5-2). -/
inductive OpClass where
  | seq | mat | vec | mov | cnl | syn | tir
  deriving DecidableEq, Repr, Inhabited

/-- The fields of an instruction word (Table 5-2). -/
structure InstrWord where
  cls : OpClass
  op : BitVec 8
  d : BitVec 5
  a : BitVec 5
  b : BitVec 5
  c : BitVec 5
  imm : BitVec 32
  deriving DecidableEq, Repr, Inhabited

/-- Why a word is no instruction. -/
inductive WordReject where
  /-- CLASS is 7 to 15. -/
  | reservedClass (n : Nat)
  deriving DecidableEq, Repr, Inhabited

def OpClass.code : OpClass → BitVec 4
  | .seq => 0 | .mat => 1 | .vec => 2 | .mov => 3 | .cnl => 4 | .syn => 5 | .tir => 6

def opClassOf (n : BitVec 4) : Option OpClass :=
  match n.toNat with
  | 0 => some .seq | 1 => some .mat | 2 => some .vec | 3 => some .mov | 4 => some .cnl | 5 => some .syn | 6 => some .tir
  | _ => none

/-- Decode an instruction word. -/
def decodeWord (w : BitVec 64) : Except WordReject InstrWord :=
  match opClassOf (w.extractLsb' 60 4) with
  | none => .error (.reservedClass (w.extractLsb' 60 4).toNat)
  | some k => .ok ⟨k, w.extractLsb' 52 8, w.extractLsb' 47 5, w.extractLsb' 42 5, w.extractLsb' 37 5, w.extractLsb' 32 5,
      w.extractLsb' 0 32⟩

/-- The OP codes that each class defines (Tables 5-3 and 5-7, R108 to R115, R196); the others are reserved. -/
def opDefined (c : OpClass) (op : Nat) : Bool :=
  match c with
  | .seq => decide (op ≤ 0x02 ∨ (0x08 ≤ op ∧ op ≤ 0x11) ∨ op = 0x18 ∨ op = 0x19 ∨ (0x20 ≤ op ∧ op ≤ 0x25) ∨ op = 0x28 ∨ op = 0x29 ∨ op = 0x30)
  | .mat => decide (op ≤ 0x03)
  | .vec => decide (op ≤ 0x0C ∨ (0x10 ≤ op ∧ op ≤ 0x18) ∨ (0x20 ≤ op ∧ op ≤ 0x24) ∨ op = 0x28 ∨ (0x30 ≤ op ∧ op ≤ 0x33) ∨
      (0x38 ≤ op ∧ op ≤ 0x3A))
  | .mov => decide (op ≤ 0x02)
  | .cnl => decide (op ≤ 0x04)
  | .syn => decide (op ≤ 0x04)
  | .tir => decide (op ≤ 0x02)

/-- Encode an instruction word. -/
def encodeWord (i : InstrWord) : BitVec 64 :=
  i.cls.code ++ i.op ++ i.d ++ i.a ++ i.b ++ i.c ++ i.imm

end Sys2Proof
end

