-- ==== Sys2Proof/Config.lean ====
section
/-!
DEFINITION. Sys2Proof/Config.lean: what the spec fixes by naming a standard outside it, and the values it leaves
open. Every constant is opaque: no proof can see a value of it (notes/assumptions/3.md, 4.md, 5.md).
-/

namespace Sys2Proof

/-- A free value: the n-th value the spec leaves open in a run. Nothing constrains it. (Log 5 DESIGN CHOICE.) -/
opaque Config.freeValue : Nat → Nat

/-- The results of the special functions (R121) where the spec gives a bound and no value: operation code of the
VEC class and FP32 operand. (Log 70 DESIGN CHOICE.) -/
opaque Config.sfu : Nat → Nat → Nat

/-- Results the spec leaves open: MAX and MIN of the vector unit with a NaN operand or with equal zeros of unlike sign, by
operation and operands; and the value of a cross-lane reduction over no lane at all. (Log 16 DESIGN CHOICE.) -/
opaque Config.maxOpen : Nat → Nat → Nat → Nat
opaque Config.emptyReduction : Nat → Nat

/-- Whether a semaphore of a core that waits at a tick will be posted from another module, where nothing the module holds says so: tick,
site and semaphore (Table 2-2 causes 4 and 5). (Log 19 DEDUCED.) -/
opaque Config.farPoster : Nat → Nat → Nat → Bool

/-- OLD (0) and NEW (1) of a tally entry for a change whose items the spec does not put in one order (Table 13-5), from the entry
index and what asked for the change: the bytes of the packet taken (R286), or REF. (Log 61 DESIGN CHOICE.) -/
opaque Config.changeDigest : Nat → Nat → List Byte → Nat

/-- Ed25519 and ML-DSA-65 verification of a signature over a message under a public key. (Log 3 PRESUMED.) -/
opaque Config.ed25519Fails : List Byte → List Byte → List Byte → Bool
opaque Config.mlDsaFails : List Byte → List Byte → List Byte → Bool
def Config.ed25519Ok (key msg sig : List Byte) : Bool := !Config.ed25519Fails key msg sig
def Config.mlDsaOk (key msg sig : List Byte) : Bool := !Config.mlDsaFails key msg sig

/-- The certificate chain in some bytes that ends at the root named by a hash: whether it verifies with the extension named (0 none, 1
firmware signing, 2 operator enrolment, 3 weight-server) at the wall time given, at most 4 certificates long; its leaf's public key;
and its leaf's subject. (Log 3 PRESUMED.) -/
opaque Config.chainFails : List Byte → Nat → Nat → Nat → Bool
def Config.chainOk (chain : List Byte) (root ext time : Nat) : Bool := !Config.chainFails chain root ext time
opaque Config.chainLeaf : List Byte → Nat → List Byte
opaque Config.chainSubject : List Byte → Nat → List Byte

/-- X25519 and ML-KEM-768 (R217), where a number names an end's ephemeral key: its X25519 public key, and the secret it shares with another
public key; its encapsulation key; what it encapsulates to another's key, and that ciphertext's secret; and the secret it decapsulates.
(Log 3 PRESUMED.) -/
opaque Config.x25519Pub : Nat → List Byte
opaque Config.x25519 : Nat → List Byte → List Byte
opaque Config.kemKey : Nat → List Byte
opaque Config.kemEncaps : Nat → List Byte → List Byte
opaque Config.kemShared : Nat → List Byte → List Byte
opaque Config.kemDecaps : Nat → List Byte → List Byte

/-- What HKDF-Expand's info holds beside the label the spec gives, from the direction and the key index (R217, R219, R245).
(Log 33 DEDUCED.) -/
opaque Config.keyContext : Nat → Nat → List Byte

/-- What is fixed at manufacture: serial, the certificate hash, the Umastad root hashes, the vendor ID, the manufacture
date, and the part's firmware ROM digest. -/
opaque Config.serial : Nat
opaque Config.partNumber : Nat
opaque Config.certHash : Nat
opaque Config.edRootHash : Nat
opaque Config.mlRootHash : Nat
opaque Config.vendorId : Nat
opaque Config.madeAt : Nat
opaque Config.romDigest : Nat
opaque Config.edChain : List Byte
opaque Config.mlChain : List Byte

/-- Signatures made by the root of trust over a transcript hash (R312, R313). -/
opaque Config.edSign : Nat → List Byte
opaque Config.mlSign : Nat → List Byte

/-- The bytes of an SPDM or PLDM response where a standard outside the spec lays them out: request code, then the
values that go into it. (Log 3 PRESUMED.) -/
opaque Config.spdmBody : Nat → List Byte → List Byte
opaque Config.pldmBody : List Byte → List Byte → List Byte

/-- The answer to an MCTP control message, from the message and the endpoint ID held (R324). (Log 3 PRESUMED.) -/
opaque Config.mctpControlBody : List Byte → Nat → List Byte

/-- The hash that a signed SPDM response covers, from the bytes exchanged on the connection (R312, R313). (Log 3 PRESUMED.) -/
opaque Config.transcriptHash : List Byte → Nat

/-- The clock offset in ns that an RFC 5905 packet shows at a wall clock reading (R56). (Log 3 PRESUMED.) -/
opaque Config.ntpOffset : List Byte → Nat → Int

/-- The SHA3-256 digest of a persistent record whose bytes the spec does not lay out (Table 13-4, indices 3 and 4), from what the
record holds. (Log 61 DESIGN CHOICE.) -/
opaque Config.recordDigest : List Nat → Nat

/-- The reply data of IDENTIFY, whose layout the spec does not give, from what it reports. (Log 3 PRESUMED.) -/
opaque Config.identifyBody : List Nat → List Byte

/-- Whether the boot self-test of a firmware image passes, by image digest (R311). -/
opaque Config.selfTest : Nat → Bool

end Sys2Proof
end

