-- ==== Sys2Proof/Machine/Sha3.lean ====
section
/-!
DEFINITION. Sys2Proof/Machine/Sha3.lean: SHA3-256, which the spec names for every digest (R127, R316, R376). The
algorithm is the published standard's (FIPS 202), not the spec's text: notes/assumptions/3.md, PRESUMED.
The state of 25 lanes of 64 bits is one number: lane i is its bits from 64 i on.
-/

namespace Sys2Proof.Machine

/-- `f x`; Lean's kernel works the number out before it goes on. -/
def withNat {α : Type} (x : Nat) (f : Nat → α) : α :=
  match x with
  | 0 => f 0
  | n + 1 => f (n + 1)

/-- Lane i. -/
def laneAt (s i : Nat) : Nat := s / 2 ^ (64 * i) % 2 ^ 64

/-- The state of n lanes f 0, f 1, …. -/
def packLanes (f : Nat → Nat) : Nat → Nat
  | 0 => 0
  | n + 1 => packLanes f n + f n * 2 ^ (64 * n)

/-- Rotate a 64-bit lane left. -/
def rotl64 (x r : Nat) : Nat := (x * 2 ^ r + x / 2 ^ (64 - r)) % 2 ^ 64

/-- The round constants of Keccak-f[1600]. -/
def keccakRC : List Nat :=
  [0x1, 0x8082, 0x800000000000808A, 0x8000000080008000, 0x808B, 0x80000001, 0x8000000080008081,
   0x8000000000008009, 0x8A, 0x88, 0x80008009, 0x8000000A, 0x8000808B, 0x800000000000008B,
   0x8000000000008089, 0x8000000000008003, 0x8000000000008002, 0x8000000000000080, 0x800A,
   0x800000008000000A, 0x8000000080008081, 0x8000000000008080, 0x80000001, 0x8000000080008008]

/-- Rotation of lane x + 5 y. -/
def keccakRot : List Nat :=
  [0, 1, 62, 28, 27, 36, 44, 6, 55, 20, 3, 10, 43, 25, 39, 41, 45, 15, 21, 8, 18, 2, 61, 56, 14]

/-- One round over 25 lanes. -/
def keccakRound (a rc : Nat) : Nat :=
  withNat a fun a =>
  withNat (packLanes (fun x => laneAt a x ^^^ laneAt a (x + 5) ^^^ laneAt a (x + 10) ^^^ laneAt a (x + 15) ^^^ laneAt a (x + 20)) 5) fun c =>
  withNat (packLanes (fun x => laneAt c ((x + 4) % 5) ^^^ rotl64 (laneAt c ((x + 1) % 5)) 1) 5) fun d =>
  withNat (packLanes (fun i => rotl64 (laneAt a i ^^^ laneAt d (i % 5)) (keccakRot.getD i 0)) 25) fun t =>
  -- lane (x, y) of the permuted state is lane ((x + 3 y) mod 5, x) of t
  let b := fun i => laneAt t ((i % 5 + 3 * (i / 5)) % 5 + 5 * (i % 5))
  packLanes (fun i =>
    let r := i / 5 * 5
    b i ^^^ ((2 ^ 64 - 1 - b (r + (i % 5 + 1) % 5)) &&& b (r + (i % 5 + 2) % 5)) ^^^ (if i = 0 then rc else 0)) 25

def keccakF (a : Nat) : Nat := keccakRC.foldl keccakRound a

/-- The number of a block's bytes, little-endian. -/
def blockNat : List Byte → Nat
  | [] => 0
  | b :: l => b.toNat + 256 * blockNat l

/-- Absorb n blocks of 136 bytes. -/
def sha3Absorb : Nat → Nat → List Byte → Nat
  | 0, st, _ => st
  | n + 1, st, l => withNat (keccakF (st ^^^ blockNat (l.take 136))) fun st => sha3Absorb n st (l.drop 136)

/-- SHA3-256 of a byte string, as the little-endian number of its 32 bytes. -/
@[irreducible] def sha3 (m : List Byte) : Nat :=
  let padLen := 136 - m.length % 136
  let pad := if padLen = 1 then [0x86#8] else 0x06#8 :: (List.replicate (padLen - 2) 0#8 ++ [0x80#8])
  sha3Absorb ((m.length + padLen) / 136) 0 (m ++ pad) % 2 ^ 256

end Sys2Proof.Machine
end

