-- ==== Sys2Proof/Machine/Map.lean ====
section
/-!
DEFINITION. Sys2Proof/Machine/Map.lean: sparse tables from a number to a value, in one canonical form:
keys strictly rising, and no entry equal to what an unlisted key reads as. Equal tables are equal data.
`d` says what an unlisted key reads as.
-/

namespace Sys2Proof.Machine

/-- Read key `k`. -/
def mapGet {α : Type} (d : Nat → α) : List (Nat × α) → Nat → α
  | [], k => d k
  | (k', v) :: l, k => if k < k' then d k else if k = k' then v else mapGet d l k

/-- Write key `k`; writing what an unlisted key reads as removes the entry. -/
def mapSet {α : Type} [DecidableEq α] (d : Nat → α) : List (Nat × α) → Nat → α → List (Nat × α)
  | [], k, v => if v = d k then [] else [(k, v)]
  | (k', v') :: l, k, v =>
    if k < k' then (if v = d k then (k', v') :: l else (k, v) :: (k', v') :: l)
    else if k = k' then (if v = d k then l.filter (fun e => k < e.1) else (k, v) :: l)
    else (k', v') :: mapSet d l k v

/-- The canonical form. -/
def mapWf {α : Type} [DecidableEq α] (d : Nat → α) (l : List (Nat × α)) : Bool :=
  decide (l.Pairwise (fun a b => a.1 < b.1)) && l.all (fun e => decide (e.2 ≠ d e.1))

/-- Change the value at key `k`. -/
def mapUpd {α : Type} [DecidableEq α] (d : Nat → α) (l : List (Nat × α)) (k : Nat) (f : α → α) :
    List (Nat × α) :=
  mapSet d l k (f (mapGet d l k))

/-- Forget every key that `p` names: each reads as an unlisted key again. -/
def mapClear {α : Type} (p : Nat → Bool) (l : List (Nat × α)) : List (Nat × α) :=
  l.filter (fun e => !p e.1)

/-- Insert a number into a strictly rising list. -/
def setInsert : List Nat → Nat → List Nat
  | [], k => [k]
  | k' :: l, k => if k < k' then k :: k' :: l else if k = k' then k' :: l else k' :: setInsert l k

/-- Replace element `i` of a list, if there is one. -/
def listSet {α : Type} : List α → Nat → α → List α
  | [], _, _ => []
  | _ :: l, 0, v => v :: l
  | x :: l, i + 1, v => x :: listSet l i v

end Sys2Proof.Machine
end

