-- ==== Sys2Proof/Machine/RegTable.lean ====
section
/-!
DEFINITION. Sys2Proof/Machine/RegTable.lean: the registers of the spec, field by field: where each field lies
in its register, its type (Table 0-3) and its reset value, block by block as the register tables of the
chapters give them, and the BAR0 map (Tables 12-2 and 12-3). A field whose table gives "—" for its reset
value holds the value that notes/assumptions names.
-/

namespace Sys2Proof.Machine

/-- Register field types (Table 0-3); a bit that no row lists is RSV. -/
inductive FTy where
  | ro | rw | wo | w1c | rwl
  deriving DecidableEq, Repr, Inhabited

/-- A register field: the byte offset of its register, its lowest bit and its width. -/
structure Fld where
  off : Nat
  lo : Nat
  len : Nat
  deriving DecidableEq, Repr, Inhabited

/-- The field at a register block's base. -/
def Fld.at (base : Nat) (f : Fld) : Fld := { f with off := base + f.off }

/-- The overflow bit of a counter register (R377). -/
def Fld.ovf (f : Fld) : Fld := { f with lo := 63, len := 1 }

/-- A field with its type and its reset value. -/
structure FDesc where
  fld : Fld
  ty : FTy
  rst : Nat
  deriving DecidableEq, Repr, Inhabited


def Reg.shpSnapctlInterval : Fld := ⟨0x400, 0, 5⟩
def Reg.shpSnaptickTick : Fld := ⟨0x408, 0, 48⟩
def Reg.shpSnaptickValid : Fld := ⟨0x408, 63, 1⟩
def Reg.shpIdSerial : Fld := ⟨0x0, 0, 64⟩
def Reg.shpStatPairup : Fld := ⟨0x8, 0, 4⟩
def Reg.shpStatRetired : Fld := ⟨0x8, 4, 4⟩
def Reg.shpStatRestarts : Fld := ⟨0x8, 8, 16⟩
def Reg.shpStatTallyfull : Fld := ⟨0x8, 24, 1⟩
def Reg.shpStatRecovery : Fld := ⟨0x8, 25, 1⟩
def Reg.shpStatRstovf : Fld := ⟨0x8, 63, 1⟩
def Reg.shpPlacePlace : Fld := ⟨0x10, 0, 25⟩
def Reg.shpPlaceSet : Fld := ⟨0x10, 25, 1⟩
def Reg.shpEvqQueued : Fld := ⟨0x18, 0, 13⟩
def Reg.shpEvqLost : Fld := ⟨0x18, 13, 16⟩
def Reg.shpEvqLostovf : Fld := ⟨0x18, 63, 1⟩
def Reg.shpMldrop : Fld := ⟨0x20, 0, 48⟩

def Reg.cmdRingbaseBase : Fld := ⟨0x0, 12, 52⟩
def Reg.cmdRingcfgRsize : Fld := ⟨0x8, 0, 5⟩
def Reg.cmdRingcfgEn : Fld := ⟨0x8, 5, 1⟩
def Reg.cmdRingcfgIrq : Fld := ⟨0x8, 6, 1⟩
def Reg.cmdRingcfgEvents : Fld := ⟨0x8, 7, 1⟩
def Reg.cmdRingheadHead : Fld := ⟨0x10, 0, 17⟩
def Reg.cmdRingtailTail : Fld := ⟨0x18, 0, 17⟩
def Reg.cmdSeqNext : Fld := ⟨0x20, 0, 32⟩
def Reg.cmdSeqHeld : Fld := ⟨0x20, 32, 12⟩
def Reg.cmdSeqRheld : Fld := ⟨0x20, 44, 9⟩
def Reg.cmdTaken : Fld := ⟨0x28, 0, 48⟩
def Reg.cmdRefused : Fld := ⟨0x30, 0, 48⟩
def Reg.cmdBadstate : Fld := ⟨0x38, 0, 48⟩
def Reg.cmdEvlost : Fld := ⟨0x40, 0, 48⟩
def Reg.cmdCtlClear : Fld := ⟨0x48, 0, 1⟩

def Reg.cmdInflightCount : Fld := ⟨0x0, 0, 13⟩
def Reg.cmdInflightJob : Fld := ⟨0x0, 16, 3⟩
def Reg.cmdArmArmid : Fld := ⟨0x8, 0, 32⟩
def Reg.cmdArmTag : Fld := ⟨0x8, 32, 32⟩
def Reg.cmdFullscans : Fld := ⟨0x10, 0, 48⟩

def Reg.lckCountCount : Fld := ⟨0x0, 0, 64⟩
def Reg.lckTickTick : Fld := ⟨0x8, 0, 48⟩
def Reg.lckTickStepped : Fld := ⟨0x8, 63, 1⟩
def Reg.lckEpochEpoch : Fld := ⟨0x10, 0, 64⟩
def Reg.lckBasetickBase : Fld := ⟨0x18, 0, 48⟩
def Reg.lckPeriodPeriod : Fld := ⟨0x20, 0, 19⟩
def Reg.lckPendingPeriod : Fld := ⟨0x28, 0, 19⟩
def Reg.lckPendingValid : Fld := ⟨0x28, 63, 1⟩
def Reg.lckPendtickTick : Fld := ⟨0x30, 0, 48⟩
def Reg.lckSrcPhase : Fld := ⟨0x38, 0, 2⟩
def Reg.lckSrcFreq : Fld := ⟨0x38, 2, 2⟩
def Reg.lckSrcPpsseed : Fld := ⟨0x38, 4, 1⟩
def Reg.lckSrcUpstream : Fld := ⟨0x38, 8, 8⟩
def Reg.lckSrcAlt1 : Fld := ⟨0x38, 16, 8⟩
def Reg.lckSrcAlt2 : Fld := ⟨0x38, 24, 8⟩
def Reg.lckSyncstatOffset : Fld := ⟨0x40, 0, 32⟩
def Reg.lckSyncstatActive : Fld := ⟨0x40, 32, 8⟩
def Reg.lckSyncstatState : Fld := ⟨0x40, 40, 3⟩
def Reg.lckPdselPort : Fld := ⟨0x50, 0, 8⟩
def Reg.lckPdlyDelay : Fld := ⟨0x58, 0, 32⟩
def Reg.lckPasymAsym : Fld := ⟨0x60, 0, 32⟩
def Reg.lckOvrstatField : Fld := ⟨0x68, 0, 7⟩
def Reg.lckOvrstatCluster : Fld := ⟨0x68, 7, 2⟩
def Reg.lckOvrstatCore : Fld := ⟨0x68, 9, 2⟩
def Reg.lckOvrstatCause : Fld := ⟨0x68, 11, 4⟩
def Reg.lckOvrstatPort : Fld := ⟨0x68, 15, 8⟩
def Reg.lckOvrstatStage : Fld := ⟨0x68, 23, 24⟩
def Reg.lckOvrstatCount : Fld := ⟨0x68, 47, 16⟩
def Reg.lckOvrstatValid : Fld := ⟨0x68, 63, 1⟩
def Reg.lckOvrtickTick : Fld := ⟨0x70, 0, 48⟩
def Reg.lckWallWall : Fld := ⟨0x78, 0, 64⟩
def Reg.lckWallcntCount : Fld := ⟨0x80, 0, 64⟩
def Reg.lckPpsloadSeed : Fld := ⟨0x88, 0, 64⟩

def Reg.pwrStatState : Fld := ⟨0x0, 0, 3⟩
def Reg.pwrStatBrake : Fld := ⟨0x0, 3, 1⟩
def Reg.pwrStatBrksrc : Fld := ⟨0x0, 4, 5⟩
def Reg.pwrStatCappress : Fld := ⟨0x0, 9, 1⟩
def Reg.pwrStatRegionlost : Fld := ⟨0x0, 10, 16⟩
def Reg.pwrInputVolt : Fld := ⟨0x8, 0, 16⟩
def Reg.pwrInputCurr : Fld := ⟨0x8, 16, 16⟩
def Reg.pwrInputPower : Fld := ⟨0x8, 32, 16⟩
def Reg.pwrCapCap : Fld := ⟨0x10, 0, 32⟩
def Reg.pwrCapBrkpct : Fld := ⟨0x10, 32, 7⟩
def Reg.pwrCapGrace : Fld := ⟨0x10, 40, 16⟩
def Reg.pwrGearCmd : Fld := ⟨0x18, 0, 10⟩
def Reg.pwrGearCapgear : Fld := ⟨0x18, 10, 10⟩
def Reg.pwrGearFloor : Fld := ⟨0x18, 20, 10⟩
def Reg.pwrBrakeApply : Fld := ⟨0x20, 0, 1⟩
def Reg.pwrBrakeLevel : Fld := ⟨0x20, 1, 7⟩
def Reg.pwrBrakePulse : Fld := ⟨0x20, 8, 3⟩
def Reg.pwrCoolTin : Fld := ⟨0x28, 0, 16⟩
def Reg.pwrCoolTout : Fld := ⟨0x28, 16, 16⟩
def Reg.pwrEventCode : Fld := ⟨0x30, 0, 8⟩
def Reg.pwrEventField : Fld := ⟨0x30, 8, 7⟩
def Reg.pwrEventRegion : Fld := ⟨0x30, 15, 4⟩
def Reg.pwrEventValid : Fld := ⟨0x30, 63, 1⟩
def Reg.pwrBrakes : Fld := ⟨0x38, 0, 48⟩
def Reg.pwrPressticks : Fld := ⟨0x40, 0, 48⟩
def Reg.pwrGearsteps : Fld := ⟨0x48, 0, 48⟩
def Reg.pwrCtlClear : Fld := ⟨0x50, 0, 1⟩

def Reg.hltFloodState : Fld := ⟨0x0, 0, 2⟩
def Reg.hltFloodKind : Fld := ⟨0x0, 2, 1⟩
def Reg.hltFloodSvc : Fld := ⟨0x0, 3, 1⟩
def Reg.hltFloodLevel : Fld := ⟨0x0, 4, 5⟩
def Reg.hltFloodPassed : Fld := ⟨0x0, 9, 7⟩
def Reg.hltFloodFailed : Fld := ⟨0x0, 16, 7⟩
def Reg.hltMapSeq : Fld := ⟨0x8, 0, 32⟩
def Reg.hltMapUsable : Fld := ⟨0x8, 32, 7⟩
def Reg.hltMapActive : Fld := ⟨0x8, 39, 11⟩
def Reg.hltMapValid : Fld := ⟨0x8, 63, 1⟩
def Reg.hltSurveyOldest : Fld := ⟨0x10, 0, 48⟩
def Reg.hltSurveyField : Fld := ⟨0x10, 48, 7⟩
def Reg.hltSurveyRunning : Fld := ⟨0x10, 55, 1⟩
def Reg.hltSurveyOverdue : Fld := ⟨0x10, 56, 1⟩
def Reg.hltCtlService : Fld := ⟨0x18, 0, 1⟩
def Reg.hltCtlPeriod : Fld := ⟨0x18, 1, 7⟩
def Reg.hltMeventCode : Fld := ⟨0x20, 0, 2⟩
def Reg.hltMeventField : Fld := ⟨0x20, 2, 7⟩
def Reg.hltMeventGear : Fld := ⟨0x20, 9, 3⟩
def Reg.hltMeventValid : Fld := ⟨0x20, 63, 1⟩
def Reg.hltJobfaultCls : Fld := ⟨0x100, 0, 16⟩
def Reg.hltJobfaultRemote : Fld := ⟨0x100, 16, 1⟩
def Reg.hltJobfaultOrigclass : Fld := ⟨0x100, 32, 16⟩
def Reg.hltJobfaultValid : Fld := ⟨0x100, 63, 1⟩
def Reg.hltJftickTick : Fld := ⟨0x108, 0, 48⟩
def Reg.hltJforiginOrigin : Fld := ⟨0x110, 0, 40⟩
def Reg.hltJfdetailDetail : Fld := ⟨0x118, 0, 32⟩
def Reg.hltPermKind : Fld := ⟨0x120, 0, 4⟩
def Reg.hltPermField : Fld := ⟨0x120, 4, 7⟩
def Reg.hltPermUnit : Fld := ⟨0x120, 11, 8⟩
def Reg.hltPermRunit : Fld := ⟨0x120, 19, 8⟩
def Reg.hltPermIndex : Fld := ⟨0x120, 27, 22⟩
def Reg.hltPermValid : Fld := ⟨0x120, 63, 1⟩
def Reg.hltReplaceSeq : Fld := ⟨0x128, 0, 32⟩
def Reg.hltReplaceState : Fld := ⟨0x128, 32, 2⟩
def Reg.hltReplaceMoved : Fld := ⟨0x128, 34, 7⟩
def Reg.hltResetCls : Fld := ⟨0x130, 0, 3⟩
def Reg.hltResetSource : Fld := ⟨0x130, 3, 3⟩
def Reg.hltCe : Fld := ⟨0x138, 0, 48⟩
def Reg.hltPerms : Fld := ⟨0x140, 0, 48⟩
def Reg.hltRetires : Fld := ⟨0x148, 0, 48⟩
def Reg.hltJobfaults : Fld := ⟨0x150, 0, 48⟩
def Reg.hltNotices : Fld := ⟨0x158, 0, 48⟩
def Reg.hltFctlClear : Fld := ⟨0x160, 0, 1⟩

def Reg.secFwstatRunslot : Fld := ⟨0x0, 0, 1⟩
def Reg.secFwstatStatea : Fld := ⟨0x0, 1, 2⟩
def Reg.secFwstatStateb : Fld := ⟨0x0, 3, 2⟩
def Reg.secFwstatBootslot : Fld := ⟨0x0, 5, 1⟩
def Reg.secFwstatFellback : Fld := ⟨0x0, 6, 1⟩
def Reg.secFwstatVersion : Fld := ⟨0x0, 32, 32⟩
def Reg.secSvnOtp : Fld := ⟨0x8, 0, 7⟩
def Reg.secSvnRun : Fld := ⟨0x8, 8, 6⟩
def Reg.secTallyNext : Fld := ⟨0x10, 0, 64⟩
def Reg.secTallyhash0Hash : Fld := ⟨0x18, 0, 64⟩
def Reg.secTallyhash1Hash : Fld := ⟨0x20, 0, 64⟩
def Reg.secTallyhash2Hash : Fld := ⟨0x28, 0, 64⟩
def Reg.secTallyhash3Hash : Fld := ⟨0x30, 0, 64⟩
def Reg.secCerthash0Hash : Fld := ⟨0x38, 0, 64⟩
def Reg.secCerthash1Hash : Fld := ⟨0x40, 0, 64⟩
def Reg.secCerthash2Hash : Fld := ⟨0x48, 0, 64⟩
def Reg.secCerthash3Hash : Fld := ⟨0x50, 0, 64⟩
def Reg.secNonce0Nonce : Fld := ⟨0x58, 0, 64⟩
def Reg.secNonce1Nonce : Fld := ⟨0x60, 0, 64⟩
def Reg.secNonce2Nonce : Fld := ⟨0x68, 0, 64⟩
def Reg.secNonce3Nonce : Fld := ⟨0x70, 0, 64⟩
def Reg.secRootsValid : Fld := ⟨0x78, 0, 16⟩
def Reg.secRootsAdmins : Fld := ⟨0x78, 16, 16⟩
def Reg.secVendoridId : Fld := ⟨0x80, 0, 32⟩

def Reg.tpLinkctlPlan : Fld := ⟨0x0, 0, 2⟩
def Reg.tpLinkctlVlen : Fld := ⟨0x0, 2, 4⟩
def Reg.tpLinkctlEnc0 : Fld := ⟨0x0, 6, 1⟩
def Reg.tpLinkctlHold : Fld := ⟨0x0, 7, 1⟩
def Reg.tpLinkctlLoopback : Fld := ⟨0x0, 8, 1⟩
def Reg.tpLinkstatState : Fld := ⟨0x8, 0, 4⟩
def Reg.tpLinkstatLanes : Fld := ⟨0x8, 4, 5⟩
def Reg.tpLinkstatHalf : Fld := ⟨0x8, 9, 1⟩
def Reg.tpLinkstatFenced : Fld := ⟨0x8, 10, 1⟩
def Reg.tpLinkstatDowncause : Fld := ⟨0x8, 11, 4⟩
def Reg.tpLinkstatDegraded : Fld := ⟨0x8, 15, 1⟩
def Reg.tpLinkstatLaneok : Fld := ⟨0x8, 16, 16⟩
def Reg.tpLinkstatRetired : Fld := ⟨0x8, 32, 16⟩
def Reg.tpLinkstatStagedv : Fld := ⟨0x8, 48, 1⟩
def Reg.tpPeerhash0Hash : Fld := ⟨0x10, 0, 64⟩
def Reg.tpPeerhash1Hash : Fld := ⟨0x18, 0, 64⟩
def Reg.tpPeerhash2Hash : Fld := ⟨0x20, 0, 64⟩
def Reg.tpPeerhash3Hash : Fld := ⟨0x28, 0, 64⟩
def Reg.tpPeeridPlace : Fld := ⟨0x30, 0, 25⟩
def Reg.tpPeeridPort : Fld := ⟨0x30, 25, 8⟩
def Reg.tpPeeridKind : Fld := ⟨0x30, 33, 3⟩
def Reg.tpPeeridValid : Fld := ⟨0x30, 63, 1⟩
def Reg.tpExphash0Hash : Fld := ⟨0x38, 0, 64⟩
def Reg.tpExphash1Hash : Fld := ⟨0x40, 0, 64⟩
def Reg.tpExphash2Hash : Fld := ⟨0x48, 0, 64⟩
def Reg.tpExphash3Hash : Fld := ⟨0x50, 0, 64⟩
def Reg.tpExpidPlace : Fld := ⟨0x58, 0, 25⟩
def Reg.tpExpidPort : Fld := ⟨0x58, 25, 8⟩
def Reg.tpExpidKind : Fld := ⟨0x58, 33, 3⟩
def Reg.tpExpidAny : Fld := ⟨0x58, 36, 3⟩
def Reg.tpExpidValid : Fld := ⟨0x58, 63, 1⟩
def Reg.tpTagCur : Fld := ⟨0x60, 0, 32⟩
def Reg.tpTagStaged : Fld := ⟨0x60, 32, 32⟩
def Reg.tpKeystatRekeys : Fld := ⟨0x68, 0, 32⟩
def Reg.tpKeystatKph : Fld := ⟨0x68, 32, 1⟩
def Reg.tpErrUncorr : Fld := ⟨0x70, 0, 16⟩
def Reg.tpErrCrc : Fld := ⟨0x70, 16, 16⟩
def Reg.tpErrAuth : Fld := ⟨0x70, 32, 16⟩
def Reg.tpErrUncorrovf : Fld := ⟨0x70, 61, 1⟩
def Reg.tpErrCrcovf : Fld := ⟨0x70, 62, 1⟩
def Reg.tpErrAuthovf : Fld := ⟨0x70, 63, 1⟩
def Reg.tpTxframes : Fld := ⟨0x78, 0, 48⟩
def Reg.tpRxframes : Fld := ⟨0x80, 0, 48⟩
def Reg.tpReplays : Fld := ⟨0x88, 0, 48⟩
def Reg.tpDroptag : Fld := ⟨0x90, 0, 48⟩
def Reg.tpDropvl : Fld := ⟨0x98, 0, 48⟩
def Reg.tpDropfence : Fld := ⟨0xA0, 0, 48⟩
def Reg.tpHbmiss : Fld := ⟨0xA8, 0, 48⟩
def Reg.tpSetups : Fld := ⟨0xB0, 0, 48⟩
def Reg.tpCtlClear : Fld := ⟨0xB8, 0, 1⟩
def Reg.tpXfaultCode : Fld := ⟨0xC0, 0, 4⟩
def Reg.tpXfaultDcore : Fld := ⟨0xC0, 4, 11⟩
def Reg.tpXfaultAddr : Fld := ⟨0xC0, 15, 20⟩
def Reg.tpXfaultSpace : Fld := ⟨0xC0, 35, 1⟩
def Reg.tpXfaultValid : Fld := ⟨0xC0, 63, 1⟩
def Reg.tpLanesym0 : Fld := ⟨0x100, 0, 48⟩
def Reg.tpLanesym1 : Fld := ⟨0x108, 0, 48⟩
def Reg.tpLanesym2 : Fld := ⟨0x110, 0, 48⟩
def Reg.tpLanesym3 : Fld := ⟨0x118, 0, 48⟩
def Reg.tpLanesym4 : Fld := ⟨0x120, 0, 48⟩
def Reg.tpLanesym5 : Fld := ⟨0x128, 0, 48⟩
def Reg.tpLanesym6 : Fld := ⟨0x130, 0, 48⟩
def Reg.tpLanesym7 : Fld := ⟨0x138, 0, 48⟩
def Reg.tpLanesym8 : Fld := ⟨0x140, 0, 48⟩
def Reg.tpLanesym9 : Fld := ⟨0x148, 0, 48⟩
def Reg.tpLanesym10 : Fld := ⟨0x150, 0, 48⟩
def Reg.tpLanesym11 : Fld := ⟨0x158, 0, 48⟩
def Reg.tpLanesym12 : Fld := ⟨0x160, 0, 48⟩
def Reg.tpLanesym13 : Fld := ⟨0x168, 0, 48⟩
def Reg.tpLanesym14 : Fld := ⟨0x170, 0, 48⟩
def Reg.tpLanesym15 : Fld := ⟨0x178, 0, 48⟩

def Reg.jncStatChains : Fld := ⟨0x0, 0, 11⟩
def Reg.jncStatRunning : Fld := ⟨0x0, 11, 11⟩
def Reg.jncStatInputs : Fld := ⟨0x0, 22, 5⟩
def Reg.jncFaultCode : Fld := ⟨0x8, 0, 8⟩
def Reg.jncFaultChain : Fld := ⟨0x8, 8, 16⟩
def Reg.jncFaultElem : Fld := ⟨0x8, 24, 32⟩
def Reg.jncFaultValid : Fld := ⟨0x8, 63, 1⟩
def Reg.jncFramesin : Fld := ⟨0x10, 0, 48⟩
def Reg.jncFramesout : Fld := ⟨0x18, 0, 48⟩
def Reg.jncSampled : Fld := ⟨0x20, 0, 48⟩
def Reg.jncVerdicts : Fld := ⟨0x28, 0, 48⟩
def Reg.jncDropchain : Fld := ⟨0x30, 0, 48⟩
def Reg.jncWait : Fld := ⟨0x38, 0, 48⟩
def Reg.jncCtlClear : Fld := ⟨0x40, 0, 1⟩

def Reg.collStatEntries : Fld := ⟨0x0, 0, 9⟩
def Reg.collStatCurrent : Fld := ⟨0x0, 9, 8⟩
def Reg.collStatActive : Fld := ⟨0x0, 17, 1⟩
def Reg.collStatShbuf : Fld := ⟨0x0, 18, 5⟩
def Reg.collFaultCode : Fld := ⟨0x8, 0, 8⟩
def Reg.collFaultId : Fld := ⟨0x8, 8, 8⟩
def Reg.collFaultRank : Fld := ⟨0x8, 16, 16⟩
def Reg.collFaultStep : Fld := ⟨0x8, 32, 17⟩
def Reg.collFaultValid : Fld := ⟨0x8, 63, 1⟩
def Reg.collDone : Fld := ⟨0x10, 0, 48⟩
def Reg.collRd : Fld := ⟨0x18, 0, 48⟩
def Reg.collRing : Fld := ⟨0x20, 0, 48⟩
def Reg.collDropped : Fld := ⟨0x28, 0, 48⟩
def Reg.collCtlClear : Fld := ⟨0x30, 0, 1⟩

def Reg.stkCapCap : Fld := ⟨0x0, 0, 16⟩
def Reg.stkCapNact : Fld := ⟨0x0, 16, 6⟩
def Reg.stkCapActive : Fld := ⟨0x0, 32, 32⟩
def Reg.stkResvBase0 : Fld := ⟨0x8, 0, 16⟩
def Reg.stkResvBase1 : Fld := ⟨0x8, 16, 16⟩
def Reg.stkResvSize : Fld := ⟨0x8, 32, 16⟩
def Reg.stkResvCur : Fld := ⟨0x8, 48, 1⟩
def Reg.stkBasinBase : Fld := ⟨0x10, 0, 16⟩
def Reg.stkBasinSize : Fld := ⟨0x10, 16, 16⟩
def Reg.stkBasinQuay : Fld := ⟨0x10, 32, 16⟩
def Reg.stkErrCe : Fld := ⟨0x18, 0, 16⟩
def Reg.stkErrUe : Fld := ⟨0x18, 16, 16⟩
def Reg.stkErrChan : Fld := ⟨0x18, 32, 5⟩
def Reg.stkErrCeovf : Fld := ⟨0x18, 62, 1⟩
def Reg.stkErrUeovf : Fld := ⟨0x18, 63, 1⟩
def Reg.stkRowret0Ret0 : Fld := ⟨0x20, 0, 8⟩
def Reg.stkRowret0Ret1 : Fld := ⟨0x20, 8, 8⟩
def Reg.stkRowret0Ret2 : Fld := ⟨0x20, 16, 8⟩
def Reg.stkRowret0Ret3 : Fld := ⟨0x20, 24, 8⟩
def Reg.stkRowret0Ret4 : Fld := ⟨0x20, 32, 8⟩
def Reg.stkRowret0Ret5 : Fld := ⟨0x20, 40, 8⟩
def Reg.stkRowret0Ret6 : Fld := ⟨0x20, 48, 8⟩
def Reg.stkRowret0Ret7 : Fld := ⟨0x20, 56, 8⟩
def Reg.stkRowret1Ret0 : Fld := ⟨0x28, 0, 8⟩
def Reg.stkRowret1Ret1 : Fld := ⟨0x28, 8, 8⟩
def Reg.stkRowret1Ret2 : Fld := ⟨0x28, 16, 8⟩
def Reg.stkRowret1Ret3 : Fld := ⟨0x28, 24, 8⟩
def Reg.stkRowret1Ret4 : Fld := ⟨0x28, 32, 8⟩
def Reg.stkRowret1Ret5 : Fld := ⟨0x28, 40, 8⟩
def Reg.stkRowret1Ret6 : Fld := ⟨0x28, 48, 8⟩
def Reg.stkRowret1Ret7 : Fld := ⟨0x28, 56, 8⟩
def Reg.stkRowret2Ret0 : Fld := ⟨0x30, 0, 8⟩
def Reg.stkRowret2Ret1 : Fld := ⟨0x30, 8, 8⟩
def Reg.stkRowret2Ret2 : Fld := ⟨0x30, 16, 8⟩
def Reg.stkRowret2Ret3 : Fld := ⟨0x30, 24, 8⟩
def Reg.stkRowret2Ret4 : Fld := ⟨0x30, 32, 8⟩
def Reg.stkRowret2Ret5 : Fld := ⟨0x30, 40, 8⟩
def Reg.stkRowret2Ret6 : Fld := ⟨0x30, 48, 8⟩
def Reg.stkRowret2Ret7 : Fld := ⟨0x30, 56, 8⟩
def Reg.stkRowret3Ret0 : Fld := ⟨0x38, 0, 8⟩
def Reg.stkRowret3Ret1 : Fld := ⟨0x38, 8, 8⟩
def Reg.stkRowret3Ret2 : Fld := ⟨0x38, 16, 8⟩
def Reg.stkRowret3Ret3 : Fld := ⟨0x38, 24, 8⟩
def Reg.stkRowret3Ret4 : Fld := ⟨0x38, 32, 8⟩
def Reg.stkRowret3Ret5 : Fld := ⟨0x38, 40, 8⟩
def Reg.stkRowret3Ret6 : Fld := ⟨0x38, 48, 8⟩
def Reg.stkRowret3Ret7 : Fld := ⟨0x38, 56, 8⟩
def Reg.stkRimfaultCode : Fld := ⟨0x40, 0, 4⟩
def Reg.stkRimfaultAddr : Fld := ⟨0x40, 8, 37⟩
def Reg.stkRimfaultRop : Fld := ⟨0x40, 45, 2⟩
def Reg.stkRimfaultValid : Fld := ⟨0x40, 63, 1⟩
def Reg.stkScrubHours : Fld := ⟨0x48, 0, 6⟩
def Reg.stkReads : Fld := ⟨0x50, 0, 48⟩
def Reg.stkWrites : Fld := ⟨0x58, 0, 48⟩
def Reg.stkAccs : Fld := ⟨0x60, 0, 48⟩
def Reg.stkAcks : Fld := ⟨0x68, 0, 48⟩
def Reg.stkCtlClear : Fld := ⟨0x70, 0, 1⟩

def Reg.tirPenqT1 : Fld := ⟨0x0, 0, 5⟩
def Reg.tirPenqT2 : Fld := ⟨0x0, 8, 20⟩
def Reg.tirPenqBasin : Fld := ⟨0x0, 32, 21⟩
def Reg.tirPenuT1 : Fld := ⟨0x8, 0, 5⟩
def Reg.tirPenuT2 : Fld := ⟨0x8, 8, 20⟩
def Reg.tirPenuBasin : Fld := ⟨0x8, 32, 21⟩
def Reg.tirGenGen : Fld := ⟨0x400, 0, 32⟩
def Reg.tirFlipTick : Fld := ⟨0x408, 0, 48⟩
def Reg.tirFlipValid : Fld := ⟨0x408, 63, 1⟩
def Reg.tirPagesPages : Fld := ⟨0x410, 0, 20⟩
def Reg.tirPagesVerified : Fld := ⟨0x410, 20, 20⟩

def Reg.wstStatState : Fld := ⟨0x0, 0, 3⟩
def Reg.wstStatSources : Fld := ⟨0x0, 8, 6⟩
def Reg.wstStatNextgen : Fld := ⟨0x0, 32, 32⟩
def Reg.wstProgVerified : Fld := ⟨0x8, 0, 32⟩
def Reg.wstProgExpected : Fld := ⟨0x8, 32, 32⟩
def Reg.wstFaultCode : Fld := ⟨0x10, 0, 8⟩
def Reg.wstFaultSource : Fld := ⟨0x10, 8, 8⟩
def Reg.wstFaultStatus : Fld := ⟨0x10, 16, 16⟩
def Reg.wstFaultChunk : Fld := ⟨0x10, 32, 24⟩
def Reg.wstFaultValid : Fld := ⟨0x10, 63, 1⟩
def Reg.wstFlipStage : Fld := ⟨0x18, 0, 24⟩
def Reg.wstFlipValid : Fld := ⟨0x18, 63, 1⟩
def Reg.wstBarges : Fld := ⟨0x400, 0, 48⟩
def Reg.wstRelayed : Fld := ⟨0x408, 0, 48⟩
def Reg.wstRefetch : Fld := ⟨0x410, 0, 48⟩
def Reg.wstServed : Fld := ⟨0x418, 0, 48⟩
def Reg.wstDup : Fld := ⟨0x420, 0, 48⟩
def Reg.wstDrophdr : Fld := ⟨0x428, 0, 48⟩
def Reg.wstBadhash : Fld := ⟨0x430, 0, 48⟩
def Reg.wstBadtag : Fld := ⟨0x438, 0, 48⟩
def Reg.wstCtlClear : Fld := ⟨0x440, 0, 1⟩

def Reg.wstTrain0Train : Fld := ⟨0x0, 0, 16⟩
def Reg.wstTrain0Inport : Fld := ⟨0x0, 16, 8⟩
def Reg.wstTrain0Out0 : Fld := ⟨0x0, 24, 8⟩
def Reg.wstTrain0Out1 : Fld := ⟨0x0, 32, 8⟩
def Reg.wstTrain0Out2 : Fld := ⟨0x0, 40, 8⟩
def Reg.wstTrain0Out3 : Fld := ⟨0x0, 48, 8⟩
def Reg.wstTrain0Valid : Fld := ⟨0x0, 63, 1⟩
def Reg.wstTrain1Stride : Fld := ⟨0x8, 0, 11⟩
def Reg.wstTrain1Rlo : Fld := ⟨0x8, 11, 10⟩
def Reg.wstTrain1Rhi : Fld := ⟨0x8, 21, 10⟩
def Reg.wstTrain1State : Fld := ⟨0x8, 31, 3⟩

def Reg.wstSrc0Manifest : Fld := ⟨0x0, 0, 64⟩
def Reg.wstSrc1Keyport : Fld := ⟨0x8, 0, 8⟩
def Reg.wstSrc1Pen : Fld := ⟨0x8, 8, 6⟩
def Reg.wstSrc1Kind : Fld := ⟨0x8, 14, 1⟩
def Reg.wstSrc1State : Fld := ⟨0x8, 16, 3⟩
def Reg.wstSrc1Verified : Fld := ⟨0x8, 20, 24⟩

def Reg.fpwStateState : Fld := ⟨0x0, 0, 2⟩
def Reg.fpwStateTarget : Fld := ⟨0x0, 2, 2⟩
def Reg.fpwStateTrans : Fld := ⟨0x0, 4, 1⟩
def Reg.fpwStateLastwake : Fld := ⟨0x0, 5, 3⟩
def Reg.fpwStateWaketick : Fld := ⟨0x0, 8, 48⟩
def Reg.fpwGearApplied : Fld := ⟨0x8, 0, 10⟩
def Reg.fpwGearThermal : Fld := ⟨0x8, 10, 10⟩
def Reg.fpwGearTop : Fld := ⟨0x8, 20, 10⟩
def Reg.fpwGearDerated : Fld := ⟨0x8, 30, 1⟩
def Reg.fpwVoltVset : Fld := ⟨0x10, 0, 10⟩
def Reg.fpwVoltVmeas : Fld := ⟨0x10, 10, 10⟩
def Reg.fpwVoltVmin : Fld := ⟨0x10, 20, 10⟩
def Reg.fpwTjTj0 : Fld := ⟨0x18, 0, 8⟩
def Reg.fpwTjTj1 : Fld := ⟨0x18, 8, 8⟩
def Reg.fpwTjTj2 : Fld := ⟨0x18, 16, 8⟩
def Reg.fpwTjTj3 : Fld := ⟨0x18, 24, 8⟩
def Reg.fpwSupplyAssistfail : Fld := ⟨0x20, 0, 32⟩
def Reg.fpwSupplyPhasefail : Fld := ⟨0x20, 32, 24⟩
def Reg.fpwSupplyStagger : Fld := ⟨0x20, 56, 4⟩
def Reg.fpwCrackGroup : Fld := ⟨0x28, 0, 4⟩
def Reg.fpwCrackRise : Fld := ⟨0x28, 4, 12⟩
def Reg.fpwCrackSuspect : Fld := ⟨0x28, 16, 1⟩
def Reg.fpwCrackFailed : Fld := ⟨0x28, 17, 1⟩
def Reg.fpwDroop : Fld := ⟨0x30, 0, 48⟩
def Reg.fpwCtlClear : Fld := ⟨0x38, 0, 1⟩

def Reg.agmSlackSlack0 : Fld := ⟨0x0, 0, 16⟩
def Reg.agmSlackSlack1 : Fld := ⟨0x0, 16, 16⟩
def Reg.agmSlackSlack2 : Fld := ⟨0x0, 32, 16⟩
def Reg.agmSlackSlack3 : Fld := ⟨0x0, 48, 16⟩
def Reg.agmWearWear0 : Fld := ⟨0x8, 0, 16⟩
def Reg.agmWearWear1 : Fld := ⟨0x8, 16, 16⟩
def Reg.agmWearWear2 : Fld := ⟨0x8, 32, 16⟩
def Reg.agmWearWear3 : Fld := ⟨0x8, 48, 16⟩
def Reg.agmVminVmin : Fld := ⟨0x10, 0, 10⟩
def Reg.agmVminOffset0 : Fld := ⟨0x10, 10, 6⟩
def Reg.agmVminOffset1 : Fld := ⟨0x10, 16, 6⟩
def Reg.agmVminOffset2 : Fld := ⟨0x10, 22, 6⟩
def Reg.agmVminOffset3 : Fld := ⟨0x10, 28, 6⟩
def Reg.agmVminOffset4 : Fld := ⟨0x10, 34, 6⟩
def Reg.agmVminOffset5 : Fld := ⟨0x10, 40, 6⟩
def Reg.agmVminOverdue : Fld := ⟨0x10, 48, 1⟩

def Reg.tirSplitScratch : Fld := ⟨0x0, 0, 5⟩
def Reg.tirHeatPromote : Fld := ⟨0x8, 0, 16⟩
def Reg.tirHeatDemote : Fld := ⟨0x8, 16, 16⟩
def Reg.tirHeatHold : Fld := ⟨0x8, 32, 16⟩
def Reg.tirStatFrames : Fld := ⟨0x10, 0, 5⟩
def Reg.tirStatResident : Fld := ⟨0x10, 5, 5⟩
def Reg.tirStatPinned : Fld := ⟨0x10, 10, 5⟩
def Reg.tirStatFills : Fld := ⟨0x10, 15, 2⟩
def Reg.tirStatGets : Fld := ⟨0x10, 17, 6⟩
def Reg.tirFaultCode : Fld := ⟨0x18, 0, 4⟩
def Reg.tirFaultSite : Fld := ⟨0x18, 4, 3⟩
def Reg.tirFaultDesc : Fld := ⟨0x18, 7, 24⟩
def Reg.tirFaultValid : Fld := ⟨0x18, 63, 1⟩
def Reg.tirGets : Fld := ⟨0x20, 0, 48⟩
def Reg.tirT1bytes : Fld := ⟨0x28, 0, 48⟩
def Reg.tirT2bytes : Fld := ⟨0x30, 0, 48⟩
def Reg.tirMisses : Fld := ⟨0x38, 0, 48⟩
def Reg.tirPfdrop : Fld := ⟨0x40, 0, 48⟩
def Reg.tirEvict : Fld := ⟨0x48, 0, 48⟩
def Reg.tirCtlClear : Fld := ⟨0x50, 0, 1⟩

def Reg.gmeStatLanes : Fld := ⟨0x0, 0, 4⟩
def Reg.gmeStatQueue : Fld := ⟨0x0, 4, 4⟩
def Reg.gmeStatStopped : Fld := ⟨0x0, 8, 1⟩
def Reg.gmeFaultCode : Fld := ⟨0x8, 0, 8⟩
def Reg.gmeFaultSite : Fld := ⟨0x8, 8, 3⟩
def Reg.gmeFaultEngine : Fld := ⟨0x8, 11, 1⟩
def Reg.gmeFaultRegion : Fld := ⟨0x8, 12, 3⟩
def Reg.gmeFaultColumn : Fld := ⟨0x8, 15, 7⟩
def Reg.gmeFaultGroup : Fld := ⟨0x8, 22, 7⟩
def Reg.gmeFaultValid : Fld := ⟨0x8, 63, 1⟩
def Reg.gmeFaddrSrc : Fld := ⟨0x10, 0, 32⟩
def Reg.gmeFaddrSpace : Fld := ⟨0x10, 32, 1⟩
def Reg.gmeTiles : Fld := ⟨0x18, 0, 48⟩
def Reg.gmeRows : Fld := ⟨0x20, 0, 48⟩
def Reg.gmeSlots : Fld := ⟨0x28, 0, 48⟩
def Reg.gmeEmpty : Fld := ⟨0x30, 0, 48⟩
def Reg.gmeWait : Fld := ⟨0x38, 0, 48⟩
def Reg.gmeCtlClear : Fld := ⟨0x40, 0, 1⟩

def Reg.cluCoremapLc0 : Fld := ⟨0x0, 0, 3⟩
def Reg.cluCoremapLc1 : Fld := ⟨0x0, 3, 3⟩
def Reg.cluCoremapLc2 : Fld := ⟨0x0, 6, 3⟩
def Reg.cluCoremapLc3 : Fld := ⟨0x0, 9, 3⟩
def Reg.cluCoremapSpare : Fld := ⟨0x0, 12, 3⟩
def Reg.cluCoremapSparegood : Fld := ⟨0x0, 15, 1⟩
def Reg.cluCoremapRetired : Fld := ⟨0x0, 16, 1⟩

def Reg.seqStatState : Fld := ⟨0x0, 0, 2⟩
def Reg.seqStatHeld : Fld := ⟨0x0, 2, 1⟩
def Reg.seqStatCause : Fld := ⟨0x0, 3, 4⟩
def Reg.seqStatStage : Fld := ⟨0x0, 7, 24⟩
def Reg.seqPcPc : Fld := ⟨0x8, 0, 24⟩
def Reg.seqFaultCode : Fld := ⟨0x10, 0, 8⟩
def Reg.seqFaultPc : Fld := ⟨0x10, 8, 24⟩
def Reg.seqFaultValid : Fld := ⟨0x10, 63, 1⟩
def Reg.seqMarginMin : Fld := ⟨0x18, 0, 24⟩
def Reg.seqMarginStage : Fld := ⟨0x18, 24, 24⟩
def Reg.seqIssued : Fld := ⟨0x20, 0, 48⟩
def Reg.seqHeld : Fld := ⟨0x28, 0, 48⟩
def Reg.seqMarks : Fld := ⟨0x30, 0, 48⟩
def Reg.seqCarry : Fld := ⟨0x38, 0, 48⟩
def Reg.seqCtlClear : Fld := ⟨0x40, 0, 1⟩

def Reg.vecOps : Fld := ⟨0x0, 0, 48⟩
def Reg.vecSfu : Fld := ⟨0x8, 0, 48⟩
def Reg.vecSround : Fld := ⟨0x10, 0, 48⟩
def Reg.movBytes : Fld := ⟨0x18, 0, 48⟩

def Reg.cnlStatSends : Fld := ⟨0x0, 0, 5⟩
def Reg.cnlStatLanding : Fld := ⟨0x0, 5, 8⟩
def Reg.cnlFaultCode : Fld := ⟨0x8, 0, 4⟩
def Reg.cnlFaultAddr : Fld := ⟨0x8, 4, 24⟩
def Reg.cnlFaultTag : Fld := ⟨0x8, 28, 16⟩
def Reg.cnlFaultValid : Fld := ⟨0x8, 63, 1⟩

def Reg.matStatState : Fld := ⟨0x0, 0, 2⟩
def Reg.matStatQueue : Fld := ⟨0x0, 2, 3⟩
def Reg.matStatPend : Fld := ⟨0x0, 5, 1⟩
def Reg.matStatActive : Fld := ⟨0x0, 6, 1⟩
def Reg.matStatClaim0 : Fld := ⟨0x0, 7, 1⟩
def Reg.matStatClaim1 : Fld := ⟨0x0, 8, 1⟩
def Reg.matStatOp : Fld := ⟨0x0, 12, 4⟩
def Reg.matStatWfmt : Fld := ⟨0x0, 16, 4⟩
def Reg.matFaultCode : Fld := ⟨0x8, 0, 8⟩
def Reg.matFaultDesc : Fld := ⟨0x8, 8, 24⟩
def Reg.matFaultRow : Fld := ⟨0x8, 32, 10⟩
def Reg.matFaultBank : Fld := ⟨0x8, 42, 1⟩
def Reg.matFaultValid : Fld := ⟨0x8, 63, 1⟩
def Reg.matPasses : Fld := ⟨0x10, 0, 48⟩
def Reg.matRows : Fld := ⟨0x18, 0, 48⟩
def Reg.matLoads : Fld := ⟨0x20, 0, 48⟩
def Reg.matPause : Fld := ⟨0x28, 0, 48⟩
def Reg.matHold : Fld := ⟨0x30, 0, 48⟩
def Reg.matCtlClear : Fld := ⟨0x38, 0, 1⟩

def Reg.rtrStatFenced : Fld := ⟨0x0, 0, 1⟩
def Reg.rtrStatConfbuf : Fld := ⟨0x0, 1, 7⟩
def Reg.rtrDiscCode : Fld := ⟨0x8, 0, 4⟩
def Reg.rtrDiscDx : Fld := ⟨0x8, 4, 6⟩
def Reg.rtrDiscDy : Fld := ⟨0x8, 10, 6⟩
def Reg.rtrDiscKind : Fld := ⟨0x8, 16, 2⟩
def Reg.rtrDiscValid : Fld := ⟨0x8, 63, 1⟩
def Reg.rtrErrCe : Fld := ⟨0x10, 0, 16⟩
def Reg.rtrErrUe : Fld := ⟨0x10, 16, 16⟩
def Reg.rtrErrPort : Fld := ⟨0x10, 32, 3⟩
def Reg.rtrErrCeovf : Fld := ⟨0x10, 62, 1⟩
def Reg.rtrErrUeovf : Fld := ⟨0x10, 63, 1⟩
def Reg.rtrFlits : Fld := ⟨0x18, 0, 48⟩
def Reg.rtrVc1 : Fld := ⟨0x20, 0, 48⟩
def Reg.rtrMerge : Fld := ⟨0x28, 0, 48⟩
def Reg.rtrPartial : Fld := ⟨0x30, 0, 48⟩
def Reg.rtrDiscards : Fld := ⟨0x38, 0, 48⟩
def Reg.rtrCtlClear : Fld := ⟨0x40, 0, 1⟩

def Reg.rtrRectX0 : Fld := ⟨0x0, 0, 6⟩
def Reg.rtrRectY0 : Fld := ⟨0x0, 6, 6⟩
def Reg.rtrRectX1 : Fld := ⟨0x0, 12, 6⟩
def Reg.rtrRectY1 : Fld := ⟨0x0, 18, 6⟩
def Reg.rtrRectValid : Fld := ⟨0x0, 63, 1⟩

def Reg.arbCtlSwap : Fld := ⟨0x0, 0, 1⟩
def Reg.arbCtlLen : Fld := ⟨0x0, 8, 8⟩
def Reg.arbStatSlot : Fld := ⟨0x8, 0, 8⟩
def Reg.arbStatGrant : Fld := ⟨0x8, 8, 5⟩
def Reg.arbStatPend : Fld := ⟨0x8, 13, 32⟩
def Reg.arbStatFenced : Fld := ⟨0x8, 45, 1⟩
def Reg.arbDogLimit : Fld := ⟨0x10, 0, 25⟩
def Reg.arbFaultOldest : Fld := ⟨0x18, 0, 5⟩
def Reg.arbFaultValid : Fld := ⟨0x18, 63, 1⟩
def Reg.arbGrants : Fld := ⟨0x20, 0, 48⟩
def Reg.arbPreempt : Fld := ⟨0x28, 0, 48⟩
def Reg.arbIdle : Fld := ⟨0x30, 0, 48⟩

/-- The fields of block SHP. -/
def Reg.shpFields : List FDesc :=
  [⟨Reg.shpSnapctlInterval, .rw, 6⟩,
    ⟨Reg.shpSnaptickTick, .ro, 0⟩,
    ⟨Reg.shpSnaptickValid, .ro, 0⟩,
    ⟨Reg.shpIdSerial, .ro, 0⟩,
    ⟨Reg.shpStatPairup, .ro, 15⟩,
    ⟨Reg.shpStatRetired, .ro, 0⟩,
    ⟨Reg.shpStatRestarts, .ro, 0⟩,
    ⟨Reg.shpStatTallyfull, .ro, 0⟩,
    ⟨Reg.shpStatRecovery, .ro, 0⟩,
    ⟨Reg.shpStatRstovf, .w1c, 0⟩,
    ⟨Reg.shpPlacePlace, .ro, 33554428⟩,
    ⟨Reg.shpPlaceSet, .ro, 0⟩,
    ⟨Reg.shpEvqQueued, .ro, 0⟩,
    ⟨Reg.shpEvqLost, .ro, 0⟩,
    ⟨Reg.shpEvqLostovf, .w1c, 0⟩,
    ⟨Reg.shpMldrop, .ro, 0⟩,
    ⟨Reg.shpMldrop.ovf, .w1c, 0⟩]

/-- The fields of block CMDP. -/
def Reg.cmdpFields : List FDesc :=
  [⟨Reg.cmdRingbaseBase, .rw, 0⟩,
    ⟨Reg.cmdRingcfgRsize, .rw, 0⟩,
    ⟨Reg.cmdRingcfgEn, .rw, 0⟩,
    ⟨Reg.cmdRingcfgIrq, .rw, 0⟩,
    ⟨Reg.cmdRingcfgEvents, .rw, 0⟩,
    ⟨Reg.cmdRingheadHead, .ro, 0⟩,
    ⟨Reg.cmdRingtailTail, .rw, 0⟩,
    ⟨Reg.cmdSeqNext, .ro, 0⟩,
    ⟨Reg.cmdSeqHeld, .ro, 0⟩,
    ⟨Reg.cmdSeqRheld, .ro, 0⟩,
    ⟨Reg.cmdTaken, .ro, 0⟩,
    ⟨Reg.cmdTaken.ovf, .w1c, 0⟩,
    ⟨Reg.cmdRefused, .ro, 0⟩,
    ⟨Reg.cmdRefused.ovf, .w1c, 0⟩,
    ⟨Reg.cmdBadstate, .ro, 0⟩,
    ⟨Reg.cmdBadstate.ovf, .w1c, 0⟩,
    ⟨Reg.cmdEvlost, .ro, 0⟩,
    ⟨Reg.cmdEvlost.ovf, .w1c, 0⟩,
    ⟨Reg.cmdCtlClear, .wo, 0⟩]

/-- The fields of block CMDM. -/
def Reg.cmdmFields : List FDesc :=
  [⟨Reg.cmdInflightCount, .ro, 0⟩,
    ⟨Reg.cmdInflightJob, .ro, 0⟩,
    ⟨Reg.cmdArmArmid, .ro, 0⟩,
    ⟨Reg.cmdArmTag, .ro, 0⟩,
    ⟨Reg.cmdFullscans, .ro, 0⟩,
    ⟨Reg.cmdFullscans.ovf, .w1c, 0⟩]

/-- The fields of block LCK. -/
def Reg.lckFields : List FDesc :=
  [⟨Reg.lckCountCount, .ro, 0⟩,
    ⟨Reg.lckTickTick, .ro, 0⟩,
    ⟨Reg.lckTickStepped, .w1c, 0⟩,
    ⟨Reg.lckEpochEpoch, .ro, 0⟩,
    ⟨Reg.lckBasetickBase, .ro, 0⟩,
    ⟨Reg.lckPeriodPeriod, .ro, 125000⟩,
    ⟨Reg.lckPendingPeriod, .ro, 0⟩,
    ⟨Reg.lckPendingValid, .ro, 0⟩,
    ⟨Reg.lckPendtickTick, .ro, 0⟩,
    ⟨Reg.lckSrcPhase, .rw, 0⟩,
    ⟨Reg.lckSrcFreq, .rw, 0⟩,
    ⟨Reg.lckSrcPpsseed, .wo, 0⟩,
    ⟨Reg.lckSrcUpstream, .rw, 255⟩,
    ⟨Reg.lckSrcAlt1, .rw, 255⟩,
    ⟨Reg.lckSrcAlt2, .rw, 255⟩,
    ⟨Reg.lckSyncstatOffset, .ro, 0⟩,
    ⟨Reg.lckSyncstatActive, .ro, 255⟩,
    ⟨Reg.lckSyncstatState, .ro, 0⟩,
    ⟨Reg.lckPdselPort, .rw, 0⟩,
    ⟨Reg.lckPdlyDelay, .ro, 0⟩,
    ⟨Reg.lckPasymAsym, .rw, 0⟩,
    ⟨Reg.lckOvrstatField, .ro, 0⟩,
    ⟨Reg.lckOvrstatCluster, .ro, 0⟩,
    ⟨Reg.lckOvrstatCore, .ro, 0⟩] ++
  [⟨Reg.lckOvrstatCause, .ro, 0⟩,
    ⟨Reg.lckOvrstatPort, .ro, 255⟩,
    ⟨Reg.lckOvrstatStage, .ro, 0⟩,
    ⟨Reg.lckOvrstatCount, .ro, 0⟩,
    ⟨Reg.lckOvrstatValid, .w1c, 0⟩,
    ⟨Reg.lckOvrtickTick, .ro, 0⟩,
    ⟨Reg.lckWallWall, .ro, 0⟩,
    ⟨Reg.lckWallcntCount, .ro, 0⟩,
    ⟨Reg.lckPpsloadSeed, .rw, 0⟩]

/-- The fields of block PWR. -/
def Reg.pwrFields : List FDesc :=
  [⟨Reg.pwrStatState, .ro, 0⟩,
    ⟨Reg.pwrStatBrake, .ro, 0⟩,
    ⟨Reg.pwrStatBrksrc, .ro, 0⟩,
    ⟨Reg.pwrStatCappress, .ro, 0⟩,
    ⟨Reg.pwrStatRegionlost, .ro, 0⟩,
    ⟨Reg.pwrInputVolt, .ro, 0⟩,
    ⟨Reg.pwrInputCurr, .ro, 0⟩,
    ⟨Reg.pwrInputPower, .ro, 0⟩,
    ⟨Reg.pwrCapCap, .rw, 44000⟩,
    ⟨Reg.pwrCapBrkpct, .rw, 50⟩,
    ⟨Reg.pwrCapGrace, .rw, 100⟩,
    ⟨Reg.pwrGearCmd, .rw, 600⟩,
    ⟨Reg.pwrGearCapgear, .ro, 600⟩,
    ⟨Reg.pwrGearFloor, .ro, 0⟩,
    ⟨Reg.pwrBrakeApply, .rw, 0⟩,
    ⟨Reg.pwrBrakeLevel, .rw, 0⟩,
    ⟨Reg.pwrBrakePulse, .ro, 0⟩,
    ⟨Reg.pwrCoolTin, .ro, 0⟩,
    ⟨Reg.pwrCoolTout, .ro, 0⟩,
    ⟨Reg.pwrEventCode, .ro, 0⟩,
    ⟨Reg.pwrEventField, .ro, 0⟩,
    ⟨Reg.pwrEventRegion, .ro, 0⟩,
    ⟨Reg.pwrEventValid, .w1c, 0⟩,
    ⟨Reg.pwrBrakes, .ro, 0⟩] ++
  [⟨Reg.pwrBrakes.ovf, .w1c, 0⟩,
    ⟨Reg.pwrPressticks, .ro, 0⟩,
    ⟨Reg.pwrPressticks.ovf, .w1c, 0⟩,
    ⟨Reg.pwrGearsteps, .ro, 0⟩,
    ⟨Reg.pwrGearsteps.ovf, .w1c, 0⟩,
    ⟨Reg.pwrCtlClear, .wo, 0⟩]

/-- The fields of block HLT. -/
def Reg.hltFields : List FDesc :=
  [⟨Reg.hltFloodState, .ro, 0⟩,
    ⟨Reg.hltFloodKind, .ro, 0⟩,
    ⟨Reg.hltFloodSvc, .ro, 0⟩,
    ⟨Reg.hltFloodLevel, .ro, 0⟩,
    ⟨Reg.hltFloodPassed, .ro, 0⟩,
    ⟨Reg.hltFloodFailed, .ro, 0⟩,
    ⟨Reg.hltMapSeq, .ro, 0⟩,
    ⟨Reg.hltMapUsable, .ro, 0⟩,
    ⟨Reg.hltMapActive, .ro, 0⟩,
    ⟨Reg.hltMapValid, .ro, 0⟩,
    ⟨Reg.hltSurveyOldest, .ro, 0⟩,
    ⟨Reg.hltSurveyField, .ro, 0⟩,
    ⟨Reg.hltSurveyRunning, .ro, 0⟩,
    ⟨Reg.hltSurveyOverdue, .ro, 0⟩,
    ⟨Reg.hltCtlService, .rw, 0⟩,
    ⟨Reg.hltCtlPeriod, .rw, 72⟩,
    ⟨Reg.hltMeventCode, .ro, 0⟩,
    ⟨Reg.hltMeventField, .ro, 0⟩,
    ⟨Reg.hltMeventGear, .ro, 0⟩,
    ⟨Reg.hltMeventValid, .w1c, 0⟩,
    ⟨Reg.hltJobfaultCls, .ro, 0⟩,
    ⟨Reg.hltJobfaultRemote, .ro, 0⟩,
    ⟨Reg.hltJobfaultOrigclass, .ro, 0⟩,
    ⟨Reg.hltJobfaultValid, .w1c, 0⟩] ++
  [⟨Reg.hltJftickTick, .ro, 0⟩,
    ⟨Reg.hltJforiginOrigin, .ro, 0⟩,
    ⟨Reg.hltJfdetailDetail, .ro, 0⟩,
    ⟨Reg.hltPermKind, .ro, 0⟩,
    ⟨Reg.hltPermField, .ro, 0⟩,
    ⟨Reg.hltPermUnit, .ro, 0⟩,
    ⟨Reg.hltPermRunit, .ro, 0⟩,
    ⟨Reg.hltPermIndex, .ro, 0⟩,
    ⟨Reg.hltPermValid, .w1c, 0⟩,
    ⟨Reg.hltReplaceSeq, .ro, 0⟩,
    ⟨Reg.hltReplaceState, .ro, 0⟩,
    ⟨Reg.hltReplaceMoved, .ro, 0⟩,
    ⟨Reg.hltResetCls, .ro, 5⟩,
    ⟨Reg.hltResetSource, .ro, 0⟩,
    ⟨Reg.hltCe, .ro, 0⟩,
    ⟨Reg.hltCe.ovf, .w1c, 0⟩,
    ⟨Reg.hltPerms, .ro, 0⟩,
    ⟨Reg.hltPerms.ovf, .w1c, 0⟩,
    ⟨Reg.hltRetires, .ro, 0⟩,
    ⟨Reg.hltRetires.ovf, .w1c, 0⟩,
    ⟨Reg.hltJobfaults, .ro, 0⟩,
    ⟨Reg.hltJobfaults.ovf, .w1c, 0⟩,
    ⟨Reg.hltNotices, .ro, 0⟩,
    ⟨Reg.hltNotices.ovf, .w1c, 0⟩] ++
  [⟨Reg.hltFctlClear, .wo, 0⟩]

/-- The fields of block SEC. -/
def Reg.secFields : List FDesc :=
  [⟨Reg.secFwstatRunslot, .ro, 0⟩,
    ⟨Reg.secFwstatStatea, .ro, 0⟩,
    ⟨Reg.secFwstatStateb, .ro, 0⟩,
    ⟨Reg.secFwstatBootslot, .ro, 0⟩,
    ⟨Reg.secFwstatFellback, .ro, 0⟩,
    ⟨Reg.secFwstatVersion, .ro, 0⟩,
    ⟨Reg.secSvnOtp, .ro, 0⟩,
    ⟨Reg.secSvnRun, .ro, 0⟩,
    ⟨Reg.secTallyNext, .ro, 0⟩,
    ⟨Reg.secTallyhash0Hash, .ro, 0⟩,
    ⟨Reg.secTallyhash1Hash, .ro, 0⟩,
    ⟨Reg.secTallyhash2Hash, .ro, 0⟩,
    ⟨Reg.secTallyhash3Hash, .ro, 0⟩,
    ⟨Reg.secCerthash0Hash, .ro, 0⟩,
    ⟨Reg.secCerthash1Hash, .ro, 0⟩,
    ⟨Reg.secCerthash2Hash, .ro, 0⟩,
    ⟨Reg.secCerthash3Hash, .ro, 0⟩,
    ⟨Reg.secNonce0Nonce, .ro, 0⟩,
    ⟨Reg.secNonce1Nonce, .ro, 0⟩,
    ⟨Reg.secNonce2Nonce, .ro, 0⟩,
    ⟨Reg.secNonce3Nonce, .ro, 0⟩,
    ⟨Reg.secRootsValid, .ro, 0⟩,
    ⟨Reg.secRootsAdmins, .ro, 0⟩,
    ⟨Reg.secVendoridId, .ro, 0⟩]

/-- The fields of block TPX. -/
def Reg.tpxFields : List FDesc :=
  [⟨Reg.tpLinkctlPlan, .ro, 0⟩,
    ⟨Reg.tpLinkctlVlen, .ro, 0⟩,
    ⟨Reg.tpLinkctlEnc0, .rw, 0⟩,
    ⟨Reg.tpLinkctlHold, .rw, 0⟩,
    ⟨Reg.tpLinkctlLoopback, .rw, 0⟩,
    ⟨Reg.tpLinkstatState, .ro, 0⟩,
    ⟨Reg.tpLinkstatLanes, .ro, 0⟩,
    ⟨Reg.tpLinkstatHalf, .ro, 0⟩,
    ⟨Reg.tpLinkstatFenced, .ro, 0⟩,
    ⟨Reg.tpLinkstatDowncause, .ro, 0⟩,
    ⟨Reg.tpLinkstatDegraded, .ro, 0⟩,
    ⟨Reg.tpLinkstatLaneok, .ro, 0⟩,
    ⟨Reg.tpLinkstatRetired, .ro, 0⟩,
    ⟨Reg.tpLinkstatStagedv, .ro, 0⟩,
    ⟨Reg.tpPeerhash0Hash, .ro, 0⟩,
    ⟨Reg.tpPeerhash1Hash, .ro, 0⟩,
    ⟨Reg.tpPeerhash2Hash, .ro, 0⟩,
    ⟨Reg.tpPeerhash3Hash, .ro, 0⟩,
    ⟨Reg.tpPeeridPlace, .ro, 0⟩,
    ⟨Reg.tpPeeridPort, .ro, 0⟩,
    ⟨Reg.tpPeeridKind, .ro, 0⟩,
    ⟨Reg.tpPeeridValid, .ro, 0⟩,
    ⟨Reg.tpExphash0Hash, .rw, 0⟩,
    ⟨Reg.tpExphash1Hash, .rw, 0⟩] ++
  [⟨Reg.tpExphash2Hash, .rw, 0⟩,
    ⟨Reg.tpExphash3Hash, .rw, 0⟩,
    ⟨Reg.tpExpidPlace, .rw, 0⟩,
    ⟨Reg.tpExpidPort, .rw, 0⟩,
    ⟨Reg.tpExpidKind, .rw, 0⟩,
    ⟨Reg.tpExpidAny, .rw, 0⟩,
    ⟨Reg.tpExpidValid, .rw, 0⟩,
    ⟨Reg.tpTagCur, .ro, 0⟩,
    ⟨Reg.tpTagStaged, .ro, 0⟩,
    ⟨Reg.tpKeystatRekeys, .ro, 0⟩,
    ⟨Reg.tpKeystatKph, .ro, 0⟩,
    ⟨Reg.tpErrUncorr, .ro, 0⟩,
    ⟨Reg.tpErrCrc, .ro, 0⟩,
    ⟨Reg.tpErrAuth, .ro, 0⟩,
    ⟨Reg.tpErrUncorrovf, .w1c, 0⟩,
    ⟨Reg.tpErrCrcovf, .w1c, 0⟩,
    ⟨Reg.tpErrAuthovf, .w1c, 0⟩,
    ⟨Reg.tpTxframes, .ro, 0⟩,
    ⟨Reg.tpTxframes.ovf, .w1c, 0⟩,
    ⟨Reg.tpRxframes, .ro, 0⟩,
    ⟨Reg.tpRxframes.ovf, .w1c, 0⟩,
    ⟨Reg.tpReplays, .ro, 0⟩,
    ⟨Reg.tpReplays.ovf, .w1c, 0⟩,
    ⟨Reg.tpDroptag, .ro, 0⟩] ++
  [⟨Reg.tpDroptag.ovf, .w1c, 0⟩,
    ⟨Reg.tpDropvl, .ro, 0⟩,
    ⟨Reg.tpDropvl.ovf, .w1c, 0⟩,
    ⟨Reg.tpDropfence, .ro, 0⟩,
    ⟨Reg.tpDropfence.ovf, .w1c, 0⟩,
    ⟨Reg.tpHbmiss, .ro, 0⟩,
    ⟨Reg.tpHbmiss.ovf, .w1c, 0⟩,
    ⟨Reg.tpSetups, .ro, 0⟩,
    ⟨Reg.tpSetups.ovf, .w1c, 0⟩,
    ⟨Reg.tpCtlClear, .wo, 0⟩,
    ⟨Reg.tpXfaultCode, .ro, 0⟩,
    ⟨Reg.tpXfaultDcore, .ro, 0⟩,
    ⟨Reg.tpXfaultAddr, .ro, 0⟩,
    ⟨Reg.tpXfaultSpace, .ro, 0⟩,
    ⟨Reg.tpXfaultValid, .w1c, 0⟩,
    ⟨Reg.tpLanesym0, .ro, 0⟩,
    ⟨Reg.tpLanesym0.ovf, .w1c, 0⟩,
    ⟨Reg.tpLanesym1, .ro, 0⟩,
    ⟨Reg.tpLanesym1.ovf, .w1c, 0⟩,
    ⟨Reg.tpLanesym2, .ro, 0⟩,
    ⟨Reg.tpLanesym2.ovf, .w1c, 0⟩,
    ⟨Reg.tpLanesym3, .ro, 0⟩,
    ⟨Reg.tpLanesym3.ovf, .w1c, 0⟩,
    ⟨Reg.tpLanesym4, .ro, 0⟩] ++
  [⟨Reg.tpLanesym4.ovf, .w1c, 0⟩,
    ⟨Reg.tpLanesym5, .ro, 0⟩,
    ⟨Reg.tpLanesym5.ovf, .w1c, 0⟩,
    ⟨Reg.tpLanesym6, .ro, 0⟩,
    ⟨Reg.tpLanesym6.ovf, .w1c, 0⟩,
    ⟨Reg.tpLanesym7, .ro, 0⟩,
    ⟨Reg.tpLanesym7.ovf, .w1c, 0⟩,
    ⟨Reg.tpLanesym8, .ro, 0⟩,
    ⟨Reg.tpLanesym8.ovf, .w1c, 0⟩,
    ⟨Reg.tpLanesym9, .ro, 0⟩,
    ⟨Reg.tpLanesym9.ovf, .w1c, 0⟩,
    ⟨Reg.tpLanesym10, .ro, 0⟩,
    ⟨Reg.tpLanesym10.ovf, .w1c, 0⟩,
    ⟨Reg.tpLanesym11, .ro, 0⟩,
    ⟨Reg.tpLanesym11.ovf, .w1c, 0⟩,
    ⟨Reg.tpLanesym12, .ro, 0⟩,
    ⟨Reg.tpLanesym12.ovf, .w1c, 0⟩,
    ⟨Reg.tpLanesym13, .ro, 0⟩,
    ⟨Reg.tpLanesym13.ovf, .w1c, 0⟩,
    ⟨Reg.tpLanesym14, .ro, 0⟩,
    ⟨Reg.tpLanesym14.ovf, .w1c, 0⟩,
    ⟨Reg.tpLanesym15, .ro, 0⟩,
    ⟨Reg.tpLanesym15.ovf, .w1c, 0⟩]

/-- The fields of block JNC. -/
def Reg.jncFields : List FDesc :=
  [⟨Reg.jncStatChains, .ro, 0⟩,
    ⟨Reg.jncStatRunning, .ro, 0⟩,
    ⟨Reg.jncStatInputs, .ro, 0⟩,
    ⟨Reg.jncFaultCode, .ro, 0⟩,
    ⟨Reg.jncFaultChain, .ro, 0⟩,
    ⟨Reg.jncFaultElem, .ro, 0⟩,
    ⟨Reg.jncFaultValid, .w1c, 0⟩,
    ⟨Reg.jncFramesin, .ro, 0⟩,
    ⟨Reg.jncFramesin.ovf, .w1c, 0⟩,
    ⟨Reg.jncFramesout, .ro, 0⟩,
    ⟨Reg.jncFramesout.ovf, .w1c, 0⟩,
    ⟨Reg.jncSampled, .ro, 0⟩,
    ⟨Reg.jncSampled.ovf, .w1c, 0⟩,
    ⟨Reg.jncVerdicts, .ro, 0⟩,
    ⟨Reg.jncVerdicts.ovf, .w1c, 0⟩,
    ⟨Reg.jncDropchain, .ro, 0⟩,
    ⟨Reg.jncDropchain.ovf, .w1c, 0⟩,
    ⟨Reg.jncWait, .ro, 0⟩,
    ⟨Reg.jncWait.ovf, .w1c, 0⟩,
    ⟨Reg.jncCtlClear, .wo, 0⟩]

/-- The fields of block COLL. -/
def Reg.collFields : List FDesc :=
  [⟨Reg.collStatEntries, .ro, 0⟩,
    ⟨Reg.collStatCurrent, .ro, 0⟩,
    ⟨Reg.collStatActive, .ro, 0⟩,
    ⟨Reg.collStatShbuf, .ro, 0⟩,
    ⟨Reg.collFaultCode, .ro, 0⟩,
    ⟨Reg.collFaultId, .ro, 0⟩,
    ⟨Reg.collFaultRank, .ro, 0⟩,
    ⟨Reg.collFaultStep, .ro, 0⟩,
    ⟨Reg.collFaultValid, .w1c, 0⟩,
    ⟨Reg.collDone, .ro, 0⟩,
    ⟨Reg.collDone.ovf, .w1c, 0⟩,
    ⟨Reg.collRd, .ro, 0⟩,
    ⟨Reg.collRd.ovf, .w1c, 0⟩,
    ⟨Reg.collRing, .ro, 0⟩,
    ⟨Reg.collRing.ovf, .w1c, 0⟩,
    ⟨Reg.collDropped, .ro, 0⟩,
    ⟨Reg.collDropped.ovf, .w1c, 0⟩,
    ⟨Reg.collCtlClear, .wo, 0⟩]

/-- The fields of block STK. -/
def Reg.stkFields : List FDesc :=
  [⟨Reg.stkCapCap, .ro, 49152⟩,
    ⟨Reg.stkCapNact, .ro, 32⟩,
    ⟨Reg.stkCapActive, .ro, 4294967295⟩,
    ⟨Reg.stkResvBase0, .ro, 0⟩,
    ⟨Reg.stkResvBase1, .ro, 0⟩,
    ⟨Reg.stkResvSize, .ro, 0⟩,
    ⟨Reg.stkResvCur, .ro, 0⟩,
    ⟨Reg.stkBasinBase, .ro, 0⟩,
    ⟨Reg.stkBasinSize, .ro, 0⟩,
    ⟨Reg.stkBasinQuay, .ro, 47104⟩,
    ⟨Reg.stkErrCe, .ro, 0⟩,
    ⟨Reg.stkErrUe, .ro, 0⟩,
    ⟨Reg.stkErrChan, .ro, 0⟩,
    ⟨Reg.stkErrCeovf, .w1c, 0⟩,
    ⟨Reg.stkErrUeovf, .w1c, 0⟩,
    ⟨Reg.stkRowret0Ret0, .ro, 0⟩,
    ⟨Reg.stkRowret0Ret1, .ro, 0⟩,
    ⟨Reg.stkRowret0Ret2, .ro, 0⟩,
    ⟨Reg.stkRowret0Ret3, .ro, 0⟩,
    ⟨Reg.stkRowret0Ret4, .ro, 0⟩,
    ⟨Reg.stkRowret0Ret5, .ro, 0⟩,
    ⟨Reg.stkRowret0Ret6, .ro, 0⟩,
    ⟨Reg.stkRowret0Ret7, .ro, 0⟩,
    ⟨Reg.stkRowret1Ret0, .ro, 0⟩] ++
  [⟨Reg.stkRowret1Ret1, .ro, 0⟩,
    ⟨Reg.stkRowret1Ret2, .ro, 0⟩,
    ⟨Reg.stkRowret1Ret3, .ro, 0⟩,
    ⟨Reg.stkRowret1Ret4, .ro, 0⟩,
    ⟨Reg.stkRowret1Ret5, .ro, 0⟩,
    ⟨Reg.stkRowret1Ret6, .ro, 0⟩,
    ⟨Reg.stkRowret1Ret7, .ro, 0⟩,
    ⟨Reg.stkRowret2Ret0, .ro, 0⟩,
    ⟨Reg.stkRowret2Ret1, .ro, 0⟩,
    ⟨Reg.stkRowret2Ret2, .ro, 0⟩,
    ⟨Reg.stkRowret2Ret3, .ro, 0⟩,
    ⟨Reg.stkRowret2Ret4, .ro, 0⟩,
    ⟨Reg.stkRowret2Ret5, .ro, 0⟩,
    ⟨Reg.stkRowret2Ret6, .ro, 0⟩,
    ⟨Reg.stkRowret2Ret7, .ro, 0⟩,
    ⟨Reg.stkRowret3Ret0, .ro, 0⟩,
    ⟨Reg.stkRowret3Ret1, .ro, 0⟩,
    ⟨Reg.stkRowret3Ret2, .ro, 0⟩,
    ⟨Reg.stkRowret3Ret3, .ro, 0⟩,
    ⟨Reg.stkRowret3Ret4, .ro, 0⟩,
    ⟨Reg.stkRowret3Ret5, .ro, 0⟩,
    ⟨Reg.stkRowret3Ret6, .ro, 0⟩,
    ⟨Reg.stkRowret3Ret7, .ro, 0⟩,
    ⟨Reg.stkRimfaultCode, .ro, 0⟩] ++
  [⟨Reg.stkRimfaultAddr, .ro, 0⟩,
    ⟨Reg.stkRimfaultRop, .ro, 0⟩,
    ⟨Reg.stkRimfaultValid, .w1c, 0⟩,
    ⟨Reg.stkScrubHours, .rw, 12⟩,
    ⟨Reg.stkReads, .ro, 0⟩,
    ⟨Reg.stkReads.ovf, .w1c, 0⟩,
    ⟨Reg.stkWrites, .ro, 0⟩,
    ⟨Reg.stkWrites.ovf, .w1c, 0⟩,
    ⟨Reg.stkAccs, .ro, 0⟩,
    ⟨Reg.stkAccs.ovf, .w1c, 0⟩,
    ⟨Reg.stkAcks, .ro, 0⟩,
    ⟨Reg.stkAcks.ovf, .w1c, 0⟩,
    ⟨Reg.stkCtlClear, .wo, 0⟩]

/-- The fields of block TIRM. -/
def Reg.tirmFields : List FDesc :=
  [⟨Reg.tirPenqT1, .rwl, 0⟩,
    ⟨Reg.tirPenqT2, .rwl, 0⟩,
    ⟨Reg.tirPenqBasin, .rwl, 0⟩,
    ⟨Reg.tirPenuT1, .ro, 0⟩,
    ⟨Reg.tirPenuT2, .ro, 0⟩,
    ⟨Reg.tirPenuBasin, .ro, 0⟩,
    ⟨Reg.tirGenGen, .ro, 0⟩,
    ⟨Reg.tirFlipTick, .ro, 0⟩,
    ⟨Reg.tirFlipValid, .ro, 0⟩,
    ⟨Reg.tirPagesPages, .ro, 0⟩,
    ⟨Reg.tirPagesVerified, .ro, 0⟩]

/-- The fields of block WST. -/
def Reg.wstFields : List FDesc :=
  [⟨Reg.wstStatState, .ro, 0⟩,
    ⟨Reg.wstStatSources, .ro, 0⟩,
    ⟨Reg.wstStatNextgen, .ro, 0⟩,
    ⟨Reg.wstProgVerified, .ro, 0⟩,
    ⟨Reg.wstProgExpected, .ro, 0⟩,
    ⟨Reg.wstFaultCode, .ro, 0⟩,
    ⟨Reg.wstFaultSource, .ro, 0⟩,
    ⟨Reg.wstFaultStatus, .ro, 0⟩,
    ⟨Reg.wstFaultChunk, .ro, 0⟩,
    ⟨Reg.wstFaultValid, .w1c, 0⟩,
    ⟨Reg.wstFlipStage, .ro, 0⟩,
    ⟨Reg.wstFlipValid, .ro, 0⟩,
    ⟨Reg.wstBarges, .ro, 0⟩,
    ⟨Reg.wstBarges.ovf, .w1c, 0⟩,
    ⟨Reg.wstRelayed, .ro, 0⟩,
    ⟨Reg.wstRelayed.ovf, .w1c, 0⟩,
    ⟨Reg.wstRefetch, .ro, 0⟩,
    ⟨Reg.wstRefetch.ovf, .w1c, 0⟩,
    ⟨Reg.wstServed, .ro, 0⟩,
    ⟨Reg.wstServed.ovf, .w1c, 0⟩,
    ⟨Reg.wstDup, .ro, 0⟩,
    ⟨Reg.wstDup.ovf, .w1c, 0⟩,
    ⟨Reg.wstDrophdr, .ro, 0⟩,
    ⟨Reg.wstDrophdr.ovf, .w1c, 0⟩] ++
  [⟨Reg.wstBadhash, .ro, 0⟩,
    ⟨Reg.wstBadhash.ovf, .w1c, 0⟩,
    ⟨Reg.wstBadtag, .ro, 0⟩,
    ⟨Reg.wstBadtag.ovf, .w1c, 0⟩,
    ⟨Reg.wstCtlClear, .wo, 0⟩]

/-- The fields of block WSTTRAIN. -/
def Reg.wsttrainFields : List FDesc :=
  [⟨Reg.wstTrain0Train, .ro, 0⟩,
    ⟨Reg.wstTrain0Inport, .ro, 255⟩,
    ⟨Reg.wstTrain0Out0, .ro, 255⟩,
    ⟨Reg.wstTrain0Out1, .ro, 255⟩,
    ⟨Reg.wstTrain0Out2, .ro, 255⟩,
    ⟨Reg.wstTrain0Out3, .ro, 255⟩,
    ⟨Reg.wstTrain0Valid, .ro, 0⟩,
    ⟨Reg.wstTrain1Stride, .ro, 0⟩,
    ⟨Reg.wstTrain1Rlo, .ro, 0⟩,
    ⟨Reg.wstTrain1Rhi, .ro, 0⟩,
    ⟨Reg.wstTrain1State, .ro, 0⟩]

/-- The fields of block WSTSRC. -/
def Reg.wstsrcFields : List FDesc :=
  [⟨Reg.wstSrc0Manifest, .ro, 0⟩,
    ⟨Reg.wstSrc1Keyport, .ro, 255⟩,
    ⟨Reg.wstSrc1Pen, .ro, 0⟩,
    ⟨Reg.wstSrc1Kind, .ro, 0⟩,
    ⟨Reg.wstSrc1State, .ro, 0⟩,
    ⟨Reg.wstSrc1Verified, .ro, 0⟩]

/-- The fields of block FPW. -/
def Reg.fpwFields : List FDesc :=
  [⟨Reg.fpwStateState, .ro, 3⟩,
    ⟨Reg.fpwStateTarget, .ro, 3⟩,
    ⟨Reg.fpwStateTrans, .ro, 0⟩,
    ⟨Reg.fpwStateLastwake, .ro, 0⟩,
    ⟨Reg.fpwStateWaketick, .ro, 0⟩,
    ⟨Reg.fpwGearApplied, .ro, 0⟩,
    ⟨Reg.fpwGearThermal, .ro, 600⟩,
    ⟨Reg.fpwGearTop, .ro, 600⟩,
    ⟨Reg.fpwGearDerated, .ro, 0⟩,
    ⟨Reg.fpwVoltVset, .ro, 0⟩,
    ⟨Reg.fpwVoltVmeas, .ro, 0⟩,
    ⟨Reg.fpwVoltVmin, .ro, 1023⟩,
    ⟨Reg.fpwTjTj0, .ro, 0⟩,
    ⟨Reg.fpwTjTj1, .ro, 0⟩,
    ⟨Reg.fpwTjTj2, .ro, 0⟩,
    ⟨Reg.fpwTjTj3, .ro, 0⟩,
    ⟨Reg.fpwSupplyAssistfail, .ro, 0⟩,
    ⟨Reg.fpwSupplyPhasefail, .ro, 0⟩,
    ⟨Reg.fpwSupplyStagger, .ro, 0⟩,
    ⟨Reg.fpwCrackGroup, .ro, 0⟩,
    ⟨Reg.fpwCrackRise, .ro, 0⟩,
    ⟨Reg.fpwCrackSuspect, .ro, 0⟩,
    ⟨Reg.fpwCrackFailed, .ro, 0⟩,
    ⟨Reg.fpwDroop, .ro, 0⟩] ++
  [⟨Reg.fpwDroop.ovf, .w1c, 0⟩,
    ⟨Reg.fpwCtlClear, .wo, 0⟩]

/-- The fields of block AGM. -/
def Reg.agmFields : List FDesc :=
  [⟨Reg.agmSlackSlack0, .ro, 65535⟩,
    ⟨Reg.agmSlackSlack1, .ro, 65535⟩,
    ⟨Reg.agmSlackSlack2, .ro, 65535⟩,
    ⟨Reg.agmSlackSlack3, .ro, 65535⟩,
    ⟨Reg.agmWearWear0, .ro, 0⟩,
    ⟨Reg.agmWearWear1, .ro, 0⟩,
    ⟨Reg.agmWearWear2, .ro, 0⟩,
    ⟨Reg.agmWearWear3, .ro, 0⟩,
    ⟨Reg.agmVminVmin, .ro, 0⟩,
    ⟨Reg.agmVminOffset0, .ro, 0⟩,
    ⟨Reg.agmVminOffset1, .ro, 0⟩,
    ⟨Reg.agmVminOffset2, .ro, 0⟩,
    ⟨Reg.agmVminOffset3, .ro, 0⟩,
    ⟨Reg.agmVminOffset4, .ro, 0⟩,
    ⟨Reg.agmVminOffset5, .ro, 0⟩,
    ⟨Reg.agmVminOverdue, .ro, 0⟩]

/-- The fields of block TIR. -/
def Reg.tirFields : List FDesc :=
  [⟨Reg.tirSplitScratch, .rwl, 16⟩,
    ⟨Reg.tirHeatPromote, .rw, 8⟩,
    ⟨Reg.tirHeatDemote, .rw, 1⟩,
    ⟨Reg.tirHeatHold, .rw, 4⟩,
    ⟨Reg.tirStatFrames, .ro, 0⟩,
    ⟨Reg.tirStatResident, .ro, 0⟩,
    ⟨Reg.tirStatPinned, .ro, 0⟩,
    ⟨Reg.tirStatFills, .ro, 0⟩,
    ⟨Reg.tirStatGets, .ro, 0⟩,
    ⟨Reg.tirFaultCode, .ro, 0⟩,
    ⟨Reg.tirFaultSite, .ro, 0⟩,
    ⟨Reg.tirFaultDesc, .ro, 0⟩,
    ⟨Reg.tirFaultValid, .w1c, 0⟩,
    ⟨Reg.tirGets, .ro, 0⟩,
    ⟨Reg.tirGets.ovf, .w1c, 0⟩,
    ⟨Reg.tirT1bytes, .ro, 0⟩,
    ⟨Reg.tirT1bytes.ovf, .w1c, 0⟩,
    ⟨Reg.tirT2bytes, .ro, 0⟩,
    ⟨Reg.tirT2bytes.ovf, .w1c, 0⟩,
    ⟨Reg.tirMisses, .ro, 0⟩,
    ⟨Reg.tirMisses.ovf, .w1c, 0⟩,
    ⟨Reg.tirPfdrop, .ro, 0⟩,
    ⟨Reg.tirPfdrop.ovf, .w1c, 0⟩,
    ⟨Reg.tirEvict, .ro, 0⟩] ++
  [⟨Reg.tirEvict.ovf, .w1c, 0⟩,
    ⟨Reg.tirCtlClear, .wo, 0⟩]

/-- The fields of block GME. -/
def Reg.gmeFields : List FDesc :=
  [⟨Reg.gmeStatLanes, .ro, 0⟩,
    ⟨Reg.gmeStatQueue, .ro, 0⟩,
    ⟨Reg.gmeStatStopped, .ro, 0⟩,
    ⟨Reg.gmeFaultCode, .ro, 0⟩,
    ⟨Reg.gmeFaultSite, .ro, 0⟩,
    ⟨Reg.gmeFaultEngine, .ro, 0⟩,
    ⟨Reg.gmeFaultRegion, .ro, 0⟩,
    ⟨Reg.gmeFaultColumn, .ro, 0⟩,
    ⟨Reg.gmeFaultGroup, .ro, 0⟩,
    ⟨Reg.gmeFaultValid, .w1c, 0⟩,
    ⟨Reg.gmeFaddrSrc, .ro, 0⟩,
    ⟨Reg.gmeFaddrSpace, .ro, 0⟩,
    ⟨Reg.gmeTiles, .ro, 0⟩,
    ⟨Reg.gmeTiles.ovf, .w1c, 0⟩,
    ⟨Reg.gmeRows, .ro, 0⟩,
    ⟨Reg.gmeRows.ovf, .w1c, 0⟩,
    ⟨Reg.gmeSlots, .ro, 0⟩,
    ⟨Reg.gmeSlots.ovf, .w1c, 0⟩,
    ⟨Reg.gmeEmpty, .ro, 0⟩,
    ⟨Reg.gmeEmpty.ovf, .w1c, 0⟩,
    ⟨Reg.gmeWait, .ro, 0⟩,
    ⟨Reg.gmeWait.ovf, .w1c, 0⟩,
    ⟨Reg.gmeCtlClear, .wo, 0⟩]

/-- The fields of block COREMAP. -/
def Reg.coremapFields : List FDesc :=
  [⟨Reg.cluCoremapLc0, .ro, 0⟩,
    ⟨Reg.cluCoremapLc1, .ro, 1⟩,
    ⟨Reg.cluCoremapLc2, .ro, 2⟩,
    ⟨Reg.cluCoremapLc3, .ro, 3⟩,
    ⟨Reg.cluCoremapSpare, .ro, 4⟩,
    ⟨Reg.cluCoremapSparegood, .ro, 0⟩,
    ⟨Reg.cluCoremapRetired, .ro, 0⟩]

/-- The fields of block SEQ. -/
def Reg.seqFields : List FDesc :=
  [⟨Reg.seqStatState, .ro, 0⟩,
    ⟨Reg.seqStatHeld, .ro, 0⟩,
    ⟨Reg.seqStatCause, .ro, 0⟩,
    ⟨Reg.seqStatStage, .ro, 0⟩,
    ⟨Reg.seqPcPc, .ro, 0⟩,
    ⟨Reg.seqFaultCode, .ro, 0⟩,
    ⟨Reg.seqFaultPc, .ro, 0⟩,
    ⟨Reg.seqFaultValid, .w1c, 0⟩,
    ⟨Reg.seqMarginMin, .ro, 16777215⟩,
    ⟨Reg.seqMarginStage, .ro, 0⟩,
    ⟨Reg.seqIssued, .ro, 0⟩,
    ⟨Reg.seqIssued.ovf, .w1c, 0⟩,
    ⟨Reg.seqHeld, .ro, 0⟩,
    ⟨Reg.seqHeld.ovf, .w1c, 0⟩,
    ⟨Reg.seqMarks, .ro, 0⟩,
    ⟨Reg.seqMarks.ovf, .w1c, 0⟩,
    ⟨Reg.seqCarry, .ro, 0⟩,
    ⟨Reg.seqCarry.ovf, .w1c, 0⟩,
    ⟨Reg.seqCtlClear, .wo, 0⟩]

/-- The fields of block VECC. -/
def Reg.veccFields : List FDesc :=
  [⟨Reg.vecOps, .ro, 0⟩,
    ⟨Reg.vecOps.ovf, .w1c, 0⟩,
    ⟨Reg.vecSfu, .ro, 0⟩,
    ⟨Reg.vecSfu.ovf, .w1c, 0⟩,
    ⟨Reg.vecSround, .ro, 0⟩,
    ⟨Reg.vecSround.ovf, .w1c, 0⟩,
    ⟨Reg.movBytes, .ro, 0⟩,
    ⟨Reg.movBytes.ovf, .w1c, 0⟩]

/-- The fields of block CNL. -/
def Reg.cnlFields : List FDesc :=
  [⟨Reg.cnlStatSends, .ro, 0⟩,
    ⟨Reg.cnlStatLanding, .ro, 0⟩,
    ⟨Reg.cnlFaultCode, .ro, 0⟩,
    ⟨Reg.cnlFaultAddr, .ro, 0⟩,
    ⟨Reg.cnlFaultTag, .ro, 0⟩,
    ⟨Reg.cnlFaultValid, .w1c, 0⟩]

/-- The fields of block MAT. -/
def Reg.matFields : List FDesc :=
  [⟨Reg.matStatState, .ro, 0⟩,
    ⟨Reg.matStatQueue, .ro, 0⟩,
    ⟨Reg.matStatPend, .ro, 0⟩,
    ⟨Reg.matStatActive, .ro, 0⟩,
    ⟨Reg.matStatClaim0, .ro, 0⟩,
    ⟨Reg.matStatClaim1, .ro, 0⟩,
    ⟨Reg.matStatOp, .ro, 0⟩,
    ⟨Reg.matStatWfmt, .ro, 0⟩,
    ⟨Reg.matFaultCode, .ro, 0⟩,
    ⟨Reg.matFaultDesc, .ro, 0⟩,
    ⟨Reg.matFaultRow, .ro, 0⟩,
    ⟨Reg.matFaultBank, .ro, 0⟩,
    ⟨Reg.matFaultValid, .w1c, 0⟩,
    ⟨Reg.matPasses, .ro, 0⟩,
    ⟨Reg.matPasses.ovf, .w1c, 0⟩,
    ⟨Reg.matRows, .ro, 0⟩,
    ⟨Reg.matRows.ovf, .w1c, 0⟩,
    ⟨Reg.matLoads, .ro, 0⟩,
    ⟨Reg.matLoads.ovf, .w1c, 0⟩,
    ⟨Reg.matPause, .ro, 0⟩,
    ⟨Reg.matPause.ovf, .w1c, 0⟩,
    ⟨Reg.matHold, .ro, 0⟩,
    ⟨Reg.matHold.ovf, .w1c, 0⟩,
    ⟨Reg.matCtlClear, .wo, 0⟩]

/-- The fields of block RTR. -/
def Reg.rtrFields : List FDesc :=
  [⟨Reg.rtrStatFenced, .ro, 0⟩,
    ⟨Reg.rtrStatConfbuf, .ro, 0⟩,
    ⟨Reg.rtrDiscCode, .ro, 0⟩,
    ⟨Reg.rtrDiscDx, .ro, 0⟩,
    ⟨Reg.rtrDiscDy, .ro, 0⟩,
    ⟨Reg.rtrDiscKind, .ro, 0⟩,
    ⟨Reg.rtrDiscValid, .w1c, 0⟩,
    ⟨Reg.rtrErrCe, .ro, 0⟩,
    ⟨Reg.rtrErrUe, .ro, 0⟩,
    ⟨Reg.rtrErrPort, .ro, 0⟩,
    ⟨Reg.rtrErrCeovf, .w1c, 0⟩,
    ⟨Reg.rtrErrUeovf, .w1c, 0⟩,
    ⟨Reg.rtrFlits, .ro, 0⟩,
    ⟨Reg.rtrFlits.ovf, .w1c, 0⟩,
    ⟨Reg.rtrVc1, .ro, 0⟩,
    ⟨Reg.rtrVc1.ovf, .w1c, 0⟩,
    ⟨Reg.rtrMerge, .ro, 0⟩,
    ⟨Reg.rtrMerge.ovf, .w1c, 0⟩,
    ⟨Reg.rtrPartial, .ro, 0⟩,
    ⟨Reg.rtrPartial.ovf, .w1c, 0⟩,
    ⟨Reg.rtrDiscards, .ro, 0⟩,
    ⟨Reg.rtrDiscards.ovf, .w1c, 0⟩,
    ⟨Reg.rtrCtlClear, .wo, 0⟩]

/-- The fields of block RECT. -/
def Reg.rectFields : List FDesc :=
  [⟨Reg.rtrRectX0, .ro, 0⟩,
    ⟨Reg.rtrRectY0, .ro, 0⟩,
    ⟨Reg.rtrRectX1, .ro, 0⟩,
    ⟨Reg.rtrRectY1, .ro, 0⟩,
    ⟨Reg.rtrRectValid, .ro, 0⟩]

/-- The fields of block ARB. -/
def Reg.arbFields : List FDesc :=
  [⟨Reg.arbCtlSwap, .wo, 0⟩,
    ⟨Reg.arbCtlLen, .rw, 0⟩,
    ⟨Reg.arbStatSlot, .ro, 0⟩,
    ⟨Reg.arbStatGrant, .ro, 0⟩,
    ⟨Reg.arbStatPend, .ro, 0⟩,
    ⟨Reg.arbStatFenced, .ro, 0⟩,
    ⟨Reg.arbDogLimit, .rw, 65536⟩,
    ⟨Reg.arbFaultOldest, .ro, 0⟩,
    ⟨Reg.arbFaultValid, .w1c, 0⟩,
    ⟨Reg.arbGrants, .ro, 0⟩,
    ⟨Reg.arbGrants.ovf, .w1c, 0⟩,
    ⟨Reg.arbPreempt, .ro, 0⟩,
    ⟨Reg.arbPreempt.ovf, .w1c, 0⟩,
    ⟨Reg.arbIdle, .ro, 0⟩,
    ⟨Reg.arbIdle.ovf, .w1c, 0⟩]

/-- The slot fields of an arbiter's shadow table (Table 7-12 ARB_SLOT0 to ARB_SLOT31): slot i's OWNER and VALID. -/
def Reg.arbSlotOwner (i : Nat) : Fld := ⟨0x100 + i / 8 * 8, i % 8 * 8, 5⟩
def Reg.arbSlotValid (i : Nat) : Fld := ⟨0x100 + i / 8 * 8, i % 8 * 8 + 5, 1⟩

/-- Register blocks (Tables 12-2 and 12-3). -/
inductive Blk where
  | shp | cmdp | cmdm | lck | pwr | hlt | sec | tpx | jnc | coll | stk | tirm | wst | wsttrain | wstsrc | fpw | agm | tir | gme | coremap | seq | vecc | cnl | mat | rtr | rect | arb
  deriving DecidableEq, Repr, Inhabited

def Blk.fields : Blk → List FDesc
  | .shp => Reg.shpFields
  | .cmdp => Reg.cmdpFields
  | .cmdm => Reg.cmdmFields
  | .lck => Reg.lckFields
  | .pwr => Reg.pwrFields
  | .hlt => Reg.hltFields
  | .sec => Reg.secFields
  | .tpx => Reg.tpxFields
  | .jnc => Reg.jncFields
  | .coll => Reg.collFields
  | .stk => Reg.stkFields
  | .tirm => Reg.tirmFields
  | .wst => Reg.wstFields
  | .wsttrain => Reg.wsttrainFields
  | .wstsrc => Reg.wstsrcFields
  | .fpw => Reg.fpwFields
  | .agm => Reg.agmFields
  | .tir => Reg.tirFields
  | .gme => Reg.gmeFields
  | .coremap => Reg.coremapFields
  | .seq => Reg.seqFields
  | .vecc => Reg.veccFields
  | .cnl => Reg.cnlFields
  | .mat => Reg.matFields
  | .rtr => Reg.rtrFields
  | .rect => Reg.rectFields
  | .arb => Reg.arbFields

/-! The BAR0 map (Tables 12-2 and 12-3) and the bases the owning chapters give. A port index is that of R205,
a site is field × 20 + p, a cluster field × 4 + c, a router site × 2 + plane. -/

def cmdBase (x : Nat) : Nat := 0x100000 + x * 0x1000
def cmdmBase : Nat := 0x102000
def lckBase : Nat := 0x200000
def pwrBase : Nat := 0x300000
def hltBase : Nat := 0x400000
def secBase : Nat := 0x500000
def portBase (i : Nat) : Nat := 0x1000000 + i * 0x10000
def jncBase (i : Nat) : Nat := 0x2000000 + i * 0x10000
def collBase : Nat := 0x2F00000
def stkBase (s : Nat) : Nat := 0x3000000 + s * 0x40000
def penBase (i : Nat) : Nat := 0x3800000 + i * 0x10
def tirmBase : Nat := 0x3800000
def wstBase : Nat := 0x3801000
def trainBase (i : Nat) : Nat := 0x3801040 + i * 0x10
def srcBase (i : Nat) : Nat := 0x3801200 + i * 0x10
def fieldBase (f : Nat) : Nat := 0x4000000 + f * 0x100000
def agmBase (f : Nat) : Nat := fieldBase f + 0x8000
def clusterBase (cl : Nat) : Nat := fieldBase (cl / 4) + 0x10000 + cl % 4 * 0x10000
def tirBase (cl : Nat) : Nat := clusterBase cl + 0xD000
def gmeBase (cl : Nat) : Nat := clusterBase cl + 0xE000
def coremapBase (cl : Nat) : Nat := clusterBase cl + 0xF000
def bankArbBase (cl b : Nat) : Nat := clusterBase cl + 0xC000 + b * 0x200
def siteBase (s : Nat) : Nat := fieldBase (s / 20) + 0x50000 + s % 20 * 0x8000
def veccBase (s : Nat) : Nat := siteBase s + 0x1000
def cnlBase (s : Nat) : Nat := siteBase s + 0x2000
def matBase (s e : Nat) : Nat := siteBase s + 0x4000 + e * 0x400
def rtrBase (r : Nat) : Nat := fieldBase (r / 40) + 0xF0000 + r / 2 % 20 * 0x800 + r % 2 * 0x400
def rectBase (f i : Nat) : Nat := fieldBase f + 0xFA000 + i * 8
def stackArbBase (s : Nat) : Nat := stkBase s + 0x1000
def egressArbBase (i : Nat) : Nat := portBase i + 0x1000
def junctionArbBase (i lane : Nat) : Nat := jncBase i + 0x1000 + lane * 0x200

/-- The block and the base that hold a register of a field window (Table 12-3). -/
def fieldBlockOf (off : Nat) : Option (Blk × Nat) :=
  let f := (off - 0x4000000) / 0x100000
  let w := (off - 0x4000000) % 0x100000
  if w < 0x8000 then some (.fpw, fieldBase f)
  else if w < 0x10000 then some (.agm, agmBase f)
  else if w < 0x50000 then
    let cl := f * 4 + (w - 0x10000) / 0x10000
    let x := (w - 0x10000) % 0x10000
    if x < 0xC000 then none
    else if x < 0xD000 then some (.arb, bankArbBase cl ((x - 0xC000) / 0x200))
    else if x < 0xE000 then some (.tir, tirBase cl)
    else if x < 0xF000 then some (.gme, gmeBase cl)
    else some (.coremap, coremapBase cl)
  else if w < 0xF0000 then
    let s := f * 20 + (w - 0x50000) / 0x8000
    let x := (w - 0x50000) % 0x8000
    if x < 0x1000 then some (.seq, siteBase s)
    else if x < 0x2000 then some (.vecc, veccBase s)
    else if x < 0x4000 then some (.cnl, cnlBase s)
    else if x < 0x4800 then some (.mat, matBase s ((x - 0x4000) / 0x400))
    else none
  else if w < 0xFA000 then
    some (.rtr, rtrBase ((f * 20 + (w - 0xF0000) / 0x800) * 2 + (w - 0xF0000) % 0x800 / 0x400))
  else if w < 0xFA100 then some (.rect, rectBase f ((w - 0xFA000) / 8))
  else none

/-- The block and the base of the register at a BAR0 offset; `none` where the offset is unassigned (R284). -/
def blockOf (off : Nat) : Option (Blk × Nat) :=
  if off < 0x100000 then some (.shp, 0)
  else if off < 0x102000 then some (.cmdp, cmdBase ((off - 0x100000) / 0x1000))
  else if off < 0x200000 then some (.cmdm, cmdmBase)
  else if off < 0x300000 then some (.lck, lckBase)
  else if off < 0x400000 then some (.pwr, pwrBase)
  else if off < 0x500000 then some (.hlt, hltBase)
  else if off < 0x600000 then some (.sec, secBase)
  else if off < 0x1000000 then none
  else if off < 0x1B00000 then
    let i := (off - 0x1000000) / 0x10000
    let x := (off - 0x1000000) % 0x10000
    if x < 0x1000 then some (.tpx, portBase i)
    else if x < 0x1200 then some (.arb, egressArbBase i) else none
  else if off < 0x2000000 then none
  else if off < 0x2B00000 then
    let i := (off - 0x2000000) / 0x10000
    let x := (off - 0x2000000) % 0x10000
    if x < 0x1000 then some (.jnc, jncBase i)
    else if x < (if i < 64 then 0x1200 else 0x1400) then some (.arb, junctionArbBase i ((x - 0x1000) / 0x200)) else none
  else if off < 0x2F00000 then none
  else if off < 0x2F01000 then some (.coll, collBase)
  else if off < 0x3000000 then none
  else if off < 0x3800000 then
    let s := (off - 0x3000000) / 0x40000
    let x := (off - 0x3000000) % 0x40000
    if x < 0x1000 then some (.stk, stkBase s)
    else if x < 0x1200 then some (.arb, stackArbBase s) else none
  else if off < 0x3800400 then some (.tirm, penBase ((off - 0x3800000) / 0x10))
  else if off < 0x3801000 then some (.tirm, tirmBase)
  else if off < 0x3801040 then some (.wst, wstBase)
  else if off < 0x3801140 then some (.wsttrain, trainBase ((off - 0x3801040) / 0x10))
  else if off < 0x3801200 then none
  else if off < 0x3801400 then some (.wstsrc, srcBase ((off - 0x3801200) / 0x10))
  else if off < 0x3802000 then some (.wst, wstBase)
  else if off < 0x4000000 then none
  else if off < 0xB000000 then fieldBlockOf off
  else none

/-- The shadow slot fields an arbiter register holds (Table 7-12). -/
def arbSlotFields (x : Nat) : List FDesc :=
  if 0x100 ≤ x ∧ x < 0x200 then
    (List.range 8).flatMap fun j =>
      [⟨Reg.arbSlotOwner ((x - 0x100) / 8 * 8 + j), .rw, 0⟩, ⟨Reg.arbSlotValid ((x - 0x100) / 8 * 8 + j), .rw, 0⟩]
  else []

/-- The fields of the register at a BAR0 offset, at their absolute offsets. -/
def regFields (off : Nat) : List FDesc :=
  match blockOf off with
  | none => []
  | some (b, base) =>
    ((b.fields ++ if b = .arb then arbSlotFields (off - base) else []).filter
      (fun d => d.fld.off = off - base)).map (fun d => { d with fld := d.fld.at base })

/-- The place of a field in the register file. -/
def Fld.key (f : Fld) : Nat := f.off * 64 + f.lo

/-- What a field of the register file holds after a reset that clears its block. (Log 2 DESIGN CHOICE.) -/
def fieldReset (key : Nat) : Nat :=
  match blockOf (key / 64) with
  | none => 0
  | some (b, base) =>
    match b.fields.find? (fun d => d.fld.off = key / 64 - base && d.fld.lo = key % 64) with
    | some d => d.rst
    | none => 0

end Sys2Proof.Machine
end

