-- ==== Sys2Proof/Machine/State.lean ====
section
/-!
DEFINITION. Sys2Proof/Machine/State.lean: the state of the block, as plain data, and its value right after reset.
Registers live in `Wafer.regs`, field by field, keyed by `Fld.key`; the typed parts hold the state the chapters give
beside the registers. A unit index is a site (field × 20 + p), an engine (site × 2 + e), a cluster (field × 4 + c),
a router (site × 2 + plane), a port index (R205), a stack, or a BAR0 base of an arbiter.
-/

namespace Sys2Proof.Machine

/-- Reasons a step stops with a fault. -/
inductive Fault where
  /-- An operand of the command names a unit the module does not have (a field above 111, a site, cluster, engine,
  stack or port that does not exist). Raised by every meaning that takes such an operand. The spec gives no such
  command; stopping is safe. -/
  | noSuchUnit
  deriving DecidableEq, Repr, Inhabited

/-- Reasons a step is refused. -/
inductive Refusal where
  /-- The command has no meaning yet; raised in Dispatch only. Safe. -/
  | notModelled (mnemonic : String)
  /-- A JTAG boundary scan or built-in self-test: R392 permits it, and the spec does not say what it does to the unit.
  Raised by JTAG_INSTRUCTION. Safe. -/
  | jtagUnspecified
  deriving DecidableEq, Repr, Inhabited

/-! ## Memory (R200, R201) -/

/-- A protected memory: its bytes (an unlisted byte reads 0) and the 64-bit words whose poison bit is set, by word
address, strictly rising. -/
structure Mem where
  bytes : List Host.Cell := []
  poison : List Nat := []
  deriving DecidableEq, Repr, Inhabited

/-! ## Events, replies and what leaves the module -/

/-- A management event or control-plane status: its code (Table 16-2) and DETAIL (Table 16-3). -/
structure Event where
  code : Nat
  detail : Nat
  deriving DecidableEq, Repr, Inhabited

/-- A reply entry (Table 12-6), without its PHASE bit, which the ring adds. -/
structure Reply where
  opcode : Nat
  status : Nat
  seq : Nat
  tick : Nat
  kind : Nat
  trunc : Bool
  dlen : Nat
  cookie : Nat
  detail : Nat
  deriving DecidableEq, Repr, Inhabited

/-- A reply on its way to a ring: the entry, its data and where the data goes; `fin` when it is the final reply of an accepted
packet, which is in flight until it is written (R289). -/
structure RingItem where
  entry : Reply
  addr : Nat
  data : List Byte
  fin : Bool
  deriving DecidableEq, Repr, Inhabited

/-- Signal canal messages (Table 7-5). -/
inductive ScnMsg where
  | wave (tick start pending pendTick : Nat)
  | fence (unit : FenceUnit) (cause : Nat)
  | jobFault (tag cls detail : Nat)
  | rect (plane : Nat) (r : Rect)
  | wake (field : Nat)
  | stop
  deriving DecidableEq, Repr, Inhabited

/-- What the module sends to the outside world or to the units the spec only names. (Log 69 DESIGN CHOICE, 72 DEDUCED.) -/
inductive Emit where
  /-- One 32-byte reply entry written to host memory with its PHASE bit (R293). -/
  | ringEntry (port addr : Nat) (e : Reply) (phase : Nat)
  /-- Reply data written to host memory before its entry (R293). -/
  | hostWrite (port addr : Nat) (data : List Byte)
  /-- The port's MSI-X vector (R293). -/
  | msix (port : Nat)
  /-- A reply message on MCTP over I3C (R297). -/
  | message (dst : Nat) (e : Reply) (data : List Byte)
  /-- A management event handed to Shepherd's firmware (R306). -/
  | mgmtEvent (e : Event)
  | signal (m : ScnMsg)
  /-- A register or memory read returned to its reader. -/
  | readData (data : List Byte) (poison : Bool)
  /-- A frame that leaves a port: its egress requester (Table 9-7) and its 256 bytes (Table 9-3). -/
  | frame (port requester : Nat) (bytes : List Byte)
  /-- A link-control frame, whose payload the spec does not lay out: CREDIT, ACK or NAK (Table 9-4). -/
  | linkCtl (port ftype : Nat) (body : List Nat)
  /-- A message of the MCTP endpoint on I3C: destination, message type and body (R324). -/
  | mctp (dst mtype : Nat) (body : List Byte)
  | spdm (conn : Nat) (body : List Byte)
  /-- A pulse on PPS_OUT, µs (R391). -/
  | ppsOut (width : Nat)
  deriving DecidableEq, Repr, Inhabited

/-- A tally entry (Table 13-5); OLD and NEW are 12 bytes each. -/
structure TallyEntry where
  index : Nat
  tick : Nat
  path : Nat
  kind : Nat
  wall : Nat
  opcode : Nat
  status : Nat
  ref : Nat
  origin : Nat
  old : Nat
  new : Nat
  deriving DecidableEq, Repr, Inhabited

/-! ## Persistent records (R376) -/

/-- A record held as two copies, each with its SEQ; `none` where the copy is not valid. -/
structure Copies (α : Type) where
  a : Option (Nat × α) := none
  b : Option (Nat × α) := none
  deriving DecidableEq, Repr, Inhabited

/-! ## Time (chapter 2) -/

/-- A register write that takes effect at step 7 of the next boundary (R292), with the port LCK_PDSEL selected when it came. -/
structure LateWrite where
  path : Nat
  off : Nat
  value : Nat
  lanes : Nat
  sel : Nat
  /-- The tick in which the write's PPSSEED bit was refused (R55). -/
  refused : Option Nat := none
  deriving DecidableEq, Repr, Inhabited

/-- A field's end of the tick wave and of the reference mesh (R28, R38 to R40). A replica counter is held as the value it was last
set to, in units of 0.1 ns, and the time at which it held it: it runs on with the reference mesh between wave messages (R39). -/
structure FieldTime where
  /-- Which tree link it takes its wave from: 0 primary, 1 alternate. -/
  waveParent : Nat := 0
  /-- PLL reference: 0 primary, 1 alternate, 2 rim line. -/
  refSource : Nat := 0
  /-- The count of boundaries (TimeSt.boundaries) at the last wave message. -/
  heardAt : Nat := 0
  /-- The latency correction in use, 0.1 ns (Table 15-5); 0xFFFF for none. -/
  corr : Nat := 0xFFFF
  /-- The replica counter in 0.1 ns, and TimeSt.passed when it held that value. -/
  replica : Nat := 0
  setAt : Nat := 0
  /-- The tick and start value the field is armed for, and the period of the ticks after it. -/
  armTick : Nat := 0
  armStart : Nat := 0
  period : Nat := 125000
  /-- The pending period change the field has been told of, and the last one it has applied: P′ and T. -/
  pend : Option (Nat × Nat) := none
  applied : Option (Nat × Nat) := none
  deriving DecidableEq, Repr, Inhabited

/-- A tick wave message (R38): the coming tick, its start value and the pending period change; and when the master sent it:
TimeSt.passed and the counter. -/
structure WaveMsg where
  tick : Nat
  start : Nat
  pend : Option (Nat × Nat)
  sentAt : Nat
  sentCount : Nat
  deriving DecidableEq, Repr, Inhabited

/-- A port's time servo (R48 to R51). -/
structure PortTime where
  delay : Nat := 0
  delayAtArm : Nat := 0
  asym : Nat := 0
  offset : Nat := 0
  /-- The exchange of timing messages in progress, times in 0.1 ns (R50): the sequence of the Sync heard, when it came, and its correction; the
  sequence of the Delay_Req sent, when it left, and when it came to the partner. -/
  syncSeq : Nat := 0
  t2 : Option Int := none
  syncCorr : Int := 0
  reqSeq : Nat := 0
  t3 : Option Int := none
  t4 : Option Int := none
  /-- Sequence of the Sync that this port sends next. -/
  outSeq : Nat := 0
  deriving DecidableEq, Repr, Inhabited

structure TimeSt where
  fields : List (Nat × FieldTime) := []
  ports : List (Nat × PortTime) := []
  /-- A PPSSEED load waits for the next edge: the path and the value of the write that armed it (R55, R316). -/
  seedArmed : Option (Nat × Nat) := none
  late : List LateWrite := []
  /-- Wall-clock servers (R56). -/
  servers : List Nat := []
  wallSet : Bool := false
  /-- Counts of 0.8 ns that have passed since the last reset that clears the LCK block; no step or load moves it. -/
  passed : Nat := 0
  /-- The wave message last sent by the master (R38). -/
  wave : Option WaveMsg := none
  /-- The period change last applied: P′ and T (R35); none since a schedule was set (R34). -/
  changed : Option (Nat × Nat) := none
  /-- Heartbeats whose tick or period did not match outside a job (R37). -/
  hbMismatch : Nat := 0
  /-- REFCLK is present on its pins (R387). -/
  refclk : Bool := false
  /-- Boundaries since the last reset that clears the LCK block, by which ticks without a wave message are counted (R40). -/
  boundaries : Nat := 0
  /-- Counter value at the last good PPS_IN edge, and the bad edges (R392). -/
  ppsAt : Option Nat := none
  ppsBad : Nat := 0
  /-- Snapshots, newest first, at most two: the tick and the counters copied (R25). -/
  snaps : List (Nat × List (Nat × Nat)) := []
  deriving DecidableEq, Repr, Inhabited

/-! ## Fences (R23, R24) -/

/-- A standing fence, with the serial number of its latest raise; `cmdTick` is the tick whose boundary raised it
when a FENCE command did. -/
structure FenceRec where
  unit : FenceUnit
  serial : Nat
  cmdTick : Option Nat
  deriving DecidableEq, Repr, Inhabited

/-! ## Matrix engines (chapters 3 and 6) -/

/-- The engine's mode (Table 3-2); DSCALE and WSCALE are FP32 bit patterns. -/
structure Mode where
  op : Nat := 0
  dfmt : Nat := 0
  wfmt : Nat := 0
  tail : Nat := 0
  out : Nat := 0
  ofmt : Nat := 0
  rnd : Nat := 0
  dscale : Nat := 0
  wscale : Nat := 0
  deriving DecidableEq, Repr, Inhabited

/-- A load descriptor (Tables 3-4 and 6-3). -/
structure LoadDesc where
  src : Nat
  k : Nat
  n : Nat
  stride : Nat
  wsc : Nat
  flags : Nat
  dbound : Nat
  kt0 : Nat
  nti : Nat
  reserved : Bool
  deriving DecidableEq, Repr, Inhabited

/-- A stream descriptor (Table 3-5). -/
structure StreamDesc where
  src : Nat
  m : Nat
  flags : Nat
  bank : Nat
  sstride : Nat
  dst : Nat
  dstride : Nat
  rowbase : Nat
  dsc : Nat
  reserved : Bool
  deriving DecidableEq, Repr, Inhabited

/-- A loaded tile (R59, R63): the mode captured at its load, K and N, S (1 when dense), DBOUND (R137; 0 when dense), the weight
codes row by row (`none` for an empty slot, R140), the weight scale bytes (Table 3-4 WSC order) and whether a poisoned word is in
it. -/
structure Tile where
  mode : Mode
  sparse : Bool
  k : Nat
  n : Nat
  s : Nat
  dbound : Nat
  w : List (List (Option Nat))
  scales : List Nat
  bad : Bool
  deriving DecidableEq, Repr, Inhabited

/-- Where a sparse pending tile stands in the GME (R138). -/
inductive GmePhase where
  | dense | queued | lane | emitted
  deriving DecidableEq, Repr, Inhabited

/-- The pending tile (R64): its descriptor, the address it was read from, the captured mode, its place in the GME, the slot map
that setup has formed (R138, R139: by slot and column, the bit of the tensor at which the value begins, and the dense depth index
in the tile), the tile that the weight feeder holds (R119), and whether its shadow load has begun (R69). -/
structure Pend where
  desc : LoadDesc
  addr : Nat
  mode : Mode
  gme : GmePhase
  slots : Option (List (List (Option (Nat × Nat))))
  fed : Option Tile
  started : Bool
  deriving DecidableEq, Repr, Inhabited

/-- A data row as the feeder took it (R119): element codes, scale bytes, and whether a poisoned word is in it. -/
structure DataRow where
  xs : List Nat
  scales : List Nat
  bad : Bool
  deriving DecidableEq, Repr, Inhabited

/-- A pass accepted and not complete (R65): descriptor and its address, captured mode, K, N and S of the tile it streams through,
q and c2 of Table 4-4, its place in the core's program order, its tile once issued, and the data rows that the feeder has read
(R119). -/
structure Pass where
  desc : StreamDesc
  addr : Nat
  mode : Mode
  k : Nat
  n : Nat
  s : Nat
  q : Nat
  c2 : Nat
  serial : Nat
  issued : Bool
  tile : Option Tile
  rows : List DataRow
  deriving DecidableEq, Repr, Inhabited

structure Engine where
  mode : Mode := {}
  pend : Option Pend := none
  active : Option Tile := none
  passes : List Pass := []
  deriving DecidableEq, Repr, Inhabited

/-- An expansion lane's tile (R138): the requesting engine (site × 2 + e) and whether setup is done. -/
structure GmeLane where
  engine : Nat
  emitting : Bool
  deriving DecidableEq, Repr, Inhabited

structure Gme where
  lanes : List (Nat × GmeLane) := []
  queue : List Nat := []
  deriving DecidableEq, Repr, Inhabited

/-! ## Cores (chapter 5) -/

/-- An outstanding copy or fill (R109). -/
structure Copy where
  src : Nat
  dst : Nat
  sspace : Nat
  dspace : Nat
  sem : Nat
  len : Nat
  rows : Nat
  sstride : Nat
  dstride : Nat
  fill : Option Word
  serial : Nat
  deriving DecidableEq, Repr, Inhabited

/-- What an instruction held at issue waits on (R105): a matrix engine of the core, its copies, its sends, its GETs and prefetches, a
semaphore, the units a mark names (as R112 numbers them), the time, or a bank group of cluster memory that it reads. -/
inductive Wait where
  | engine (e : Nat)
  | copies
  | sends
  | tier
  | sem (d : Nat)
  | units (mask : Nat)
  | time
  | banks
  deriving DecidableEq, Repr, Inhabited

/-- A send accepted and not complete (R158): its serial number in the core and LSEM. -/
structure Send where
  serial : Nat
  lsem : Nat
  deriving DecidableEq, Repr, Inhabited

/-- The key, route fields and running sum of a confluence (R163): used by router buffers and landing entries. -/
structure ConfBuf where
  tag : Nat
  dx : Nat
  dy : Nat
  daddr : Nat
  count : Nat
  dspace : Nat
  sem : Option Nat
  carried : Nat
  data : List Word
  bad : List Nat
  job : Bool
  deriving DecidableEq, Repr, Inhabited

/-- A canal flit (Tables 7-1 and 7-2) with its place on the network: plane, router coordinates, whether it has left
its sender (its core's local port, or the rim unit or port that brings it in), the input of the router whose buffer holds it (R148: 0 N,
1 E, 2 S, 3 W, 4 local; 5 for a sum that the router's own partial-sum buffers send on), its multicast leg (0 first leg, 1 increasing branch, 2 decreasing branch, 3 a copy for the local port), and its detour
state (R169): the rectangle on VC1, whether it has reversed, and how often it has been blocked. -/
structure Flit where
  kind : Nat
  vc : Nat
  partSum : Bool
  sem : Option Nat
  dx : Nat
  dy : Nat
  x1 : Nat
  y1 : Nat
  tag : Nat
  carried : Nat
  short : Bool
  daddr : Nat
  dspace : Nat
  count : Nat
  rop : Nat
  runit : Nat
  resBits : Bool
  data : List Word
  bad : List Nat
  plane : Nat
  x : Nat
  y : Nat
  src : Nat
  left : Bool
  port : Nat
  leg : Nat
  ring : Option Rect
  reversed : Bool
  blocked : Nat
  job : Bool
  deriving DecidableEq, Repr, Inhabited

/-- A core (Table 5-1): registers, semaphores, the stage's random counts (R99, R126), outstanding work, its lock
program (R128) and its canal interface (R165, R166). Vector registers are lists of 128 32-bit lanes. -/
structure Core where
  /-- The registers and semaphores that are not listed are undefined (R103): each holds the free value that this number and its own
  place name. `none`: they hold zero. -/
  lost : Option Nat := none
  s : List (Nat × Word) := []
  sem : List (Nat × Nat) := []
  v : List (Nat × List Nat) := []
  /-- Poisoned lanes of vector registers: register × 128 + lane (R131). -/
  vbad : List Nat := []
  m : List (Nat × Nat) := []
  q : Nat := 0
  qr : Nat := 0
  copies : List Copy := []
  sends : List Send := []
  serial : Nat := 0
  /-- The logical core of the placement that runs here: lfield × 16 + cluster × 4 + core. -/
  logical : Option Nat := none
  codeBase : Nat := 0
  codeSize : Nat := 0
  entries : List Nat := []
  /-- The core's stage mark for this tick has been passed (R112). -/
  marked : Bool := false
  /-- What the instruction held at issue waits on. -/
  wait : Option Wait := none
  /-- Semaphores that inter-module arrivals have posted in this job (R46). -/
  xsems : List Nat := []
  landing : List ConfBuf := []
  waiting : List Flit := []
  deriving DecidableEq, Repr, Inhabited

/-! ## Canals (chapter 7) -/

/-- A slot-table arbiter's active table (R171, R176): LEN and the owner of each named slot. -/
structure ArbTable where
  len : Nat := 256
  owners : List (Nat × Nat) := []
  /-- OWNER bits of slots whose VALID bit is 0, where they are not zero. -/
  idle : List (Nat × Nat) := []
  deriving DecidableEq, Repr, Inhabited

structure CanalSt where
  flits : List Flit := []
  /-- Partial-sum buffers by router (site × 2 + plane). -/
  conf : List (Nat × List ConfBuf) := []
  /-- Fenced rectangles per plane (R168). -/
  rectsA : List Rect := []
  rectsB : List Rect := []
  /-- Active slot tables by arbiter base. -/
  arbs : List (Nat × ArbTable) := []
  /-- Sequence number of the service node's next signal canal broadcast (R167). -/
  scnSeq : Nat := 0
  /-- What the nodes know messages by (R167): the sequence numbers heard, by source node (a field, or 112 the service node). -/
  scnSeen : List (Nat × List Nat) := []
  deriving DecidableEq, Repr, Inhabited

/-! ## Memory tiers (chapter 8) -/

/-- A pin on a frame (R197): its deadline tick and the last tick it holds. -/
structure Pin where
  deadline : Nat
  last : Nat
  deriving DecidableEq, Repr, Inhabited

/-- A weight cache frame: its number, the page, the reservoir buffer of the page's generation, whether it is filled, being
filled, and its pins. -/
structure CacheFrame where
  num : Nat
  page : Nat
  buf : Nat
  filled : Bool
  filling : Bool
  pins : List Pin
  deriving DecidableEq, Repr, Inhabited

/-- An outstanding TIR.GET (R198): the descriptor, the captured buffer, the pages it has changed to the cheaper path, and, once a
flip has freed that buffer, where its pages lie: page, stack and slot (R189). -/
structure Get where
  site : Nat
  ra : Nat
  len : Nat
  dst : Nat
  dspace : Nat
  sem : Nat
  buf : Nat
  inPlace : List Nat
  kept : List (Nat × Nat × Nat)
  deriving DecidableEq, Repr, Inhabited

/-- A heat table entry (R193): page, count of the window in progress, count of the last complete window. -/
structure HeatEntry where
  page : Nat
  cur : Nat
  last : Nat
  deriving DecidableEq, Repr, Inhabited

structure Tier where
  frames : List CacheFrame := []
  heat : List HeatEntry := []
  gets : List Get := []
  /-- Prefetches outstanding: the site of each, the buffer, and its pages not yet filled. -/
  prefetches : List (Nat × Nat × List Nat) := []
  /-- A write to TIR_HEAT that waits for the next window boundary. -/
  heatNew : Option Nat := none
  deriving DecidableEq, Repr, Inhabited

/-- Acknowledgements a stack controller is gathering (R183): destination, semaphore and count. -/
structure AckGather where
  x : Nat
  y : Nat
  sem : Nat
  count : Nat
  deriving DecidableEq, Repr, Inhabited

structure StackSt where
  gathers : List AckGather := []
  /-- Acknowledgement SIGNALs sent (R183). -/
  acks : Nat := 0
  /-- Channels marked for retirement at the next admission, and channels fenced (R204). -/
  marked : List Nat := []
  /-- Rim flits discarded (R184); no register shows the count. -/
  discards : Nat := 0
  deriving DecidableEq, Repr, Inhabited

/-- The reservoir (R188 to R190). -/
structure Reservoir where
  /-- Stack and slot of each page, per buffer: index = page. -/
  place0 : List (Nat × Nat) := []
  place1 : List (Nat × Nat) := []
  /-- Pages readable in each buffer, strictly rising. -/
  ready0 : List Nat := []
  ready1 : List Nat := []
  /-- Pen of each page (R188). -/
  pens : List Nat := []
  /-- T2 heat: page → count of the window in progress and of the last four complete windows, newest first. -/
  heat : List (Nat × List Nat) := []
  deriving DecidableEq, Repr, Inhabited

/-! ## Towpath ports (chapter 9) -/

/-- A frame queued at or sent from a port: egress requester (Table 9-7), lane, type, tag when queued, payload; once sent, its SEQ and its
bytes. A relayed frame names the received frame whose credit it holds: input port and SEQ (R249). -/
structure TxFrame where
  requester : Nat
  vl : Nat
  ftype : Nat
  tag : Nat
  seq : Nat
  payload : List Byte
  held : Option (Nat × Nat) := none
  wire : List Byte := []
  deriving DecidableEq, Repr, Inhabited

/-- A frame that the link layer has delivered, in the hop receiver's buffer, where it holds its credit (R212): `taken` once the unit it is
for has taken it, while relayed copies of it still wait to leave. -/
structure RxFrame where
  vl : Nat
  ftype : Nat
  seq : Nat
  payload : List Byte
  taken : Bool := false
  deriving DecidableEq, Repr, Inhabited

/-- A key exchange in progress and the partner it is with (R217): whether this end is the initiator; the name of its ephemeral keys; the
payloads of the transcript; the shared secrets; messages that came before the setup was admitted (R216). -/
structure Exchange where
  initiator : Bool := false
  id : Nat := 0
  identOut : List Byte := []
  identIn : List Byte := []
  keyx : List Byte := []
  shared : Option (List Byte) := none
  early : List KeyxMsg := []
  deriving DecidableEq, Repr, Inhabited

/-- A port's hop, link and session state beside its registers. -/
structure Port where
  /-- Credits held for sending, per lane (R212). -/
  credits : List Nat := [0, 0, 0, 0]
  /-- Credits waiting to be returned, per lane (R212). -/
  owed : List Nat := [0, 0, 0, 0]
  nextSeq : Nat := 0
  expectSeq : Nat := 0
  /-- A NAK has been sent and frames are discarded until its SEQ arrives (R214). -/
  nakked : Bool := false
  unacked : Nat := 0
  /-- Frames sent and not acknowledged, oldest first (R214). -/
  replay : List TxFrame := []
  resends : Nat := 0
  /-- Frames queued for the egress arbiter, oldest first. -/
  egress : List TxFrame := []
  /-- Delivered frames that hold their credits, oldest first (R212). -/
  rx : List RxFrame := []
  /-- The partner's chains, and the hashes of the roots that they verify at (R217). -/
  peerEd : List Byte := []
  peerMl : List Byte := []
  anchor : Option (Nat × Nat) := none
  exch : Exchange := {}
  /-- Session secret: its 32 bytes, little-endian (R217). -/
  secret : Option Nat := none
  /-- A session setup is in progress (at most 16, R216). -/
  setup : Bool := false
  /-- Protected frames sent and received per lane under the current keys (R218). -/
  txF : List Nat := [0, 0, 0, 0]
  rxF : List Nat := [0, 0, 0, 0]
  txTotal : Nat := 0
  /-- Key index sent under, newest key index received, and that of each lane (R219). -/
  txIdx : Nat := 0
  rxIdx : Nat := 0
  rxLane : List Nat := [0, 0, 0, 0]
  /-- The previous receive key is kept (R219). -/
  oldKey : Bool := false
  hbSeen : Bool := false
  hbTick : Bool := false
  hbMissed : Nat := 0
  /-- When the link entered UP or MGMT_ONLY, counted as TimeSt.passed is (R232). -/
  upAt : Nat := 0
  /-- The half width a change in progress goes to (R215): 0 lower lanes, 1 upper. -/
  widthTo : Option Nat := none
  /-- XFER frames landed since the port's reset (R227). -/
  landed : Nat := 0
  deriving DecidableEq, Repr, Inhabited

/-! ## Parameter ingest (chapter 10) -/

/-- An admission source entry (Table 10-1). -/
structure Source where
  kind : Nat
  pen : Nat
  keyPort : Nat
  firstPage : Nat
  pages : Nat
  srcFirst : Nat
  gen0 : Nat
  pubHash : Nat
  deriving DecidableEq, Repr, Inhabited

/-- A manifest that passed R241. -/
structure Manifest where
  id : Nat
  gen : Nat
  kind : Nat
  depth : Nat
  chunks : Nat
  image : Nat
  root : Nat
  deriving DecidableEq, Repr, Inhabited

/-- A KEYWRAP message body (Table 10-8) with the secret of the session it came over. -/
structure KeyWrap where
  manifest : Nat
  gen : Nat
  secret : Nat
  dir : Nat
  body : List Byte
  deriving DecidableEq, Repr, Inhabited

/-- A source's ingest state: manifest, content key and passed chunks of the next and of the current generation,
the KEYWRAP kept for it with its tick (R245), chunks being fetched again, and the tick of the next key fetch. -/
structure SrcSt where
  src : Source
  next : Option Manifest := none
  cur : Option Manifest := none
  keyNext : Option Nat := none
  keyCur : Option Nat := none
  kept : Option (KeyWrap × Nat) := none
  passedNext : List Nat := []
  passedCur : List Nat := []
  keyFetchAt : Option Nat := none
  /-- The generation expected first or next (R241). -/
  expects : Nat := 0
  deriving DecidableEq, Repr, Inhabited

/-- A train table entry (R247) and its state: what READY has come (output port, manifest, generation), whether READY was sent
upstream. -/
structure Train where
  id : Nat
  inPort : Nat
  /-- OUT0 to OUT3, 0xFF for none. -/
  out4 : List Nat
  stride : Nat
  rlo : Nat
  rhi : Nat
  readyFrom : List (Nat × Nat × Nat) := []
  readySent : Bool := false
  deriving DecidableEq, Repr, Inhabited

/-- A verified segment (R244). -/
structure HeldSegment where
  source : Nat
  gen : Nat
  seg : Nat
  leaves : List Nat
  proof : List Nat
  deriving DecidableEq, Repr, Inhabited

/-- A chunk that arrived before its segment was verified (R244): its hash, whether its tag verified, plaintext. -/
structure HeldChunk where
  source : Nat
  gen : Nat
  chunk : Nat
  hash : Nat
  tagOk : Bool
  data : List Byte
  deriving DecidableEq, Repr, Inhabited

/-- A barge or a segment that cannot be taken yet (R249, R250, R257): whether a FRAG gap voided it, and whether it stands in its input
port's write buffer; else its frames hold their credits. -/
structure HeldMsg where
  seg : Bool
  m : Vl0Msg
  voided : Bool
  buffered : Bool
  deriving DecidableEq, Repr, Inhabited

/-- A fetch the module has sent (R252, R253): port, source, what, range, the tick after which it fails, and which
attempt it is (0 an adapter's ordinary fetch, 1 a refetch). -/
structure FetchOut where
  port : Nat
  source : Nat
  what : Nat
  first : Nat
  count : Nat
  due : Nat
  attempt : Nat
  stream : Nat
  /-- Sent; a fetch that finds 64 outstanding on its port waits (R252). -/
  sent : Bool := true
  deriving DecidableEq, Repr, Inhabited

/-- A fetch request from a successor that waits (R254). -/
structure FetchIn where
  port : Nat
  stream : Nat
  manifest : Nat
  gen : Nat
  first : Nat
  count : Nat
  what : Nat
  deriving DecidableEq, Repr, Inhabited

structure Ingest where
  admitted : Bool := false
  basinUnits : Nat := 0
  sources : List SrcSt := []
  trains : List Train := []
  segments : List HeldSegment := []
  chunks : List HeldChunk := []
  fetches : List FetchOut := []
  waiting : List FetchIn := []
  nextStream : Nat := 0
  /-- Train messages being relayed: input port and train ID (R249). -/
  relay : List (Nat × Nat) := []
  /-- Barges and segments that an input holds, oldest first (R249). -/
  inputs : List HeldMsg := []
  /-- A current generation exists (R237). -/
  current : Bool := false
  /-- The buffer the next generation lands in. -/
  nextBuf : Nat := 0
  /-- Ingest has been stopped by a job's end (R256). -/
  stopped : Bool := false
  deriving DecidableEq, Repr, Inhabited

/-! ## Chains and collectives (chapter 11) -/

/-- A chain entry (Table 11-3). -/
structure ChainEntry where
  chain : Nat
  shadow : Nat
  in0 : Nat
  in1 : Nat
  out : Nat
  flags : Nat
  nelem : Nat
  boff : Nat
  sfirst : Nat
  scount : Nat
  pos : Nat
  stage : Nat
  pen : Nat
  shoff : Nat
  nx : Nat
  ny : Nat
  sem : Nat
  delay : Nat
  deriving DecidableEq, Repr, Inhabited

/-- A GRAD frame at a junction (Table 11-1). -/
structure GradFrame where
  elem : Nat
  poison : Bool
  last : Bool
  vals : List Nat
  deriving DecidableEq, Repr, Inhabited

/-- One input of a running chain: its port, the ELEM expected next, frames waiting, and the tick of the last arrival
(or of the start). -/
structure ChainIn where
  port : Nat
  next : Nat
  frames : List GradFrame
  /-- When a frame last came, counted as TimeSt.passed is (R269). -/
  lastAt : Nat
  deriving DecidableEq, Repr, Inhabited

/-- A chain started and not complete (R267): its entry, TIR_GEN at the start (R271), the element of the next output
frame, its inputs, and the local elements read ahead of the output, each with its poison. `lastSent` is set when the LAST frame
has been queued. -/
structure ChainRun where
  entry : ChainEntry
  gen : Nat
  next : Nat
  ins : List ChainIn
  /-- Lines of the slice that the drain has read, and their elements from the next frame's on (R267). -/
  lines : Nat
  ahead : List (Nat × Bool)
  lastSent : Bool
  deriving DecidableEq, Repr, Inhabited

/-- A sampled chunk in the shadow buffer (R272): the primary chain, the chunk, its local elements and poison. -/
structure ShadowChunk where
  chain : Nat
  chunk : Nat
  vals : List (Nat × Bool)
  /-- The shadow chain's output port, once its last frame of the chunk is queued there (R272). -/
  done : Option Nat := none
  deriving DecidableEq, Repr, Inhabited

/-- A collective entry (Table 11-4). -/
structure CollEntry where
  id : Nat
  mode : Nat
  sstk : Nat
  dstk : Nat
  src : Nat
  dst : Nat
  cap : Nat
  ceil : Nat
  thresh : Nat
  first : Nat
  count : Nat
  stride : Nat
  stage : Nat
  nx : Nat
  ny : Nat
  sem : Nat
  delay : Nat
  deriving DecidableEq, Repr, Inhabited

/-- What the sequencer is doing with the running collective (R277). -/
inductive CollPhase where
  | count | doubling | ring
  deriving DecidableEq, Repr, Inhabited

/-- The collective in progress: entry, own group rank, phase, the place in its step list, COUNT_IN, the maximum so
far, capacity, DROPPED, the vector with its poison, the FRAG expected next, elements received in this step, the tick of the own
send. -/
structure CollRun where
  entry : CollEntry
  rank : Nat
  phase : CollPhase
  step : Nat
  countIn : Nat
  countMax : Nat
  capacity : Nat
  dropped : Nat
  vec : List (Nat × Bool)
  frag : Nat
  got : List (Nat × Bool)
  /-- When the step began, counted as TimeSt.passed is (R280). -/
  sentAt : Nat
  deriving DecidableEq, Repr, Inhabited

structure Reduce where
  chains : List ChainEntry := []
  runs : List ChainRun := []
  /-- Sampled chunks of started chains still to be sent on their shadow entries. -/
  shadow : List ShadowChunk := []
  colls : List CollEntry := []
  run : Option CollRun := none
  /-- Collectives of the stage that have not begun (R277). -/
  queue : List Nat := []
  deriving DecidableEq, Repr, Inhabited

/-! ## Commands and jobs (chapter 12) -/

/-- A packet in flight (R289, R291): its acceptance tick, the tick of its boundary, whether its work has begun, and
the fence serial at acceptance (R24). -/
structure InFlight where
  opcode : Nat
  p : Packet
  acc : Nat
  due : Nat
  working : Bool
  mark : Nat
  deriving DecidableEq, Repr, Inhabited

/-- A CXL port's ends of the command plane (R293, R295, R303). -/
structure CmdPort where
  /-- Replies produced and not yet written (oldest first). -/
  outgoing : List RingItem := []
  /-- Replies held behind a full ring (oldest first). -/
  held : List RingItem := []
  /-- Events that wait behind a full ring. -/
  events : List Event := []
  evCount : Nat := 0
  irqDue : Bool := false
  /-- Slots held under R288. -/
  heldSlots : List Nat := []
  /-- Slots a scan stopped at the time bound has not reached (R287). -/
  first : List Nat := []
  deriving DecidableEq, Repr, Inhabited

structure CmdSt where
  portA : CmdPort := {}
  portB : CmdPort := {}
  /-- NEXT of each management-lane and MCTP requester (R288), keyed path × 2^40 + endpoint. -/
  next : List (Nat × Nat) := []
  inboxMl : List (Nat × Packet) := []
  inboxMctp : List (Nat × Packet) := []
  inflight : List InFlight := []
  /-- Scans of this tick that the time bound stops (R287, SCAN_TIME_BOUND). -/
  scanCut : Nat := 0
  /-- Control-plane statuses waiting for step 3 of the next boundary (R295). -/
  posts : List Event := []
  /-- Clears asked for through CTL registers: BAR0 offsets of the CLEAR bits (R377). -/
  clears : List Nat := []
  /-- Arbiters whose tables swap at step 6 (R176). -/
  swaps : List Nat := []
  /-- Reply messages to the management lane (path 2) or MCTP (path 3) that wait for the interpreter (R306): path, endpoint, reply. -/
  msgs : List (Nat × Nat × RingItem) := []
  /-- Fences that a reset lifts at the next boundary, with the serial number each had (R24). -/
  lifts : List (FenceUnit × Nat) := []
  deriving DecidableEq, Repr, Inhabited


/-! ## Shepherd and the root of trust (chapter 13) -/

/-- A lockstep pair (R305): the counter values of its restarts, newest first. -/
structure Pair where
  up : Bool := true
  retired : Bool := false
  restarts : List Nat := []
  deriving DecidableEq, Repr, Inhabited

/-- Firmware slot states (R309). -/
inductive SlotState where
  | empty | written | committed
  deriving DecidableEq, Repr, Inhabited

/-- A slot record (R309). -/
structure SlotRec where
  st : SlotState
  digest : Nat
  svn : Nat
  deriving DecidableEq, Repr, Inhabited

/-- A partner root pair (R308). -/
structure RootPair where
  ed : List Byte
  ml : List Byte
  peer : Bool
  admin : Bool
  deriving DecidableEq, Repr, Inhabited

/-- An SPDM connection (R312, R313). -/
structure SpdmConn where
  version : Bool := false
  caps : Bool := false
  algs : Bool := false
  transcript : List Byte := []
  /-- The transcript hash of the last signed response, while a PQSIG may follow. -/
  signed : Option Nat := none
  deriving DecidableEq, Repr, Inhabited

/-- A management-lane message being gathered (R322): its SRC, DST and MSGID, the next FRAG, and the bytes so far. -/
structure MlMsg where
  src : Nat
  dst : Nat
  msgid : Nat
  mtype : Nat
  next : Nat
  body : List Byte
  deriving DecidableEq, Repr, Inhabited

/-- The route tables (Table 13-8), as loaded: exact and prefix entries (place, length, primary, alternate), and
multicast entries (group, deliver locally, ports). -/
structure RouteTables where
  exact : List (Nat × Nat × Nat) := []
  prefixes : List (Nat × Nat × Nat × Nat) := []
  mcast : List (Nat × Bool × List Nat) := []
  deriving DecidableEq, Repr, Inhabited

structure ShpSt where
  pair0 : Pair := {}
  pair1 : Pair := {}
  pair2 : Pair := {}
  pair3 : Pair := {}
  /-- Events waiting while a pair restarts (R306). -/
  evq : List Event := []
  /-- The tally chain value C (R317), as the little-endian number of its 32 bytes. -/
  tallyHash : Nat := 0
  /-- Tally entries in retention memory, oldest first (R317). -/
  tallyBuf : List TallyEntry := []
  /-- Tally entries written to flash, newest first (R316). -/
  tallyFlash : List TallyEntry := []
  /-- Entries lost while the buffer was full, and the tick of the first (R317). -/
  tallyLost : Nat := 0
  tallyLostTick : Nat := 0
  /-- All power has been lost, and the first boot's KIND 6 entry is not written yet (R317). -/
  gapDue : Bool := false
  boot : Copies Nat := {}
  slotA : Copies SlotRec := {}
  slotB : Copies SlotRec := {}
  place : Copies Nat := {}
  roots : Copies (List RootPair) := {}
  tallyHead : Copies (Nat × Nat) := {}
  /-- The slot strap pins (R319, R389). -/
  strap : Nat := 0
  /-- Fuses blown (R311). -/
  otp : Nat := 0
  /-- The boot self-test passed and fuses wait to be blown. -/
  fusePending : Bool := false
  /-- A place address waits for the next boundary (R319). -/
  placeNew : Option Nat := none
  /-- The counter value at which SEC_NONCE was last drawn (R308). -/
  nonceAt : Option Nat := none
  spdm : List (Nat × SpdmConn) := []
  routes : RouteTables := {}
  members : List Nat := []
  gathering : List MlMsg := []
  /-- MSGID of the next message sent on the management lane (Table 13-7). -/
  mlMsgid : Nat := 0
  /-- The I3C endpoint ID (R324); 0 until assigned. -/
  eid : Nat := 0
  deriving DecidableEq, Repr, Inhabited
/-! ## Jobs (chapter 12) and lock program images (R127) -/

/-- Job states (Table 12-8). -/
inductive JobPhase where
  | idle | loaded | placed | armed | running | stopped
  deriving DecidableEq, Repr, Inhabited

/-- A core table entry with the blocks it locates (Table 5-12). -/
structure ImageCore where
  lfield : Nat
  cluster : Nat
  core : Nat
  codeBase : Nat
  code : List Byte
  dataBase : Nat
  data : List Byte
  entries : List Nat
  deriving DecidableEq, Repr, Inhabited

/-- A lock program image that passed R127. -/
structure Image where
  a : Nat
  l : Nat
  bmax : Nat
  budgets : List Nat
  seed : Nat
  fields : Nat
  cores : List ImageCore
  digest : Nat
  deriving DecidableEq, Repr, Inhabited

structure JobSt where
  phase : JobPhase := .idle
  tag : Nat := 0
  t0 : Nat := 0
  image : Option Image := none
  /-- The physical field of each logical field, in logical order. -/
  placement : List Nat := []
  scratch : Nat := 16
  /-- A PLACE whose boundary has passed and whose fields are not all in RUN: the placement and SCRATCH (R334, R363). -/
  placing : Option (List Nat × Nat) := none
  /-- A QUIESCE is draining; `quiesceTick` is the tick its boundary opened (R299). -/
  draining : Bool := false
  quiesceTick : Option Nat := none
  /-- Children of the ARM with the status each has replied (R300, R301). -/
  children : List (Nat × Option Nat) := []
  /-- The endpoint the ARM came from over the management lane (R369). -/
  armOrigin : Option Nat := none
  /-- Tick and counter value at the ARM's acceptance (R301). -/
  armTick : Nat := 0
  armAt : Nat := 0
  /-- The ARMID of the last ARM that expired; 0 for none (R301). -/
  expired : Nat := 0
  basinZeroed : Bool := false
  /-- First job fault class since ARM (Table 12-11). -/
  firstFault : Nat := 0
  /-- The current job has faulted; a further fault is only counted (R369). -/
  faulted : Bool := false
  /-- The job fault raised since the last boundary, whose tags are cleared after step 3 of the next (R369 steps 5 and 6). -/
  tagsDue : Option Event := none
  deriving DecidableEq, Repr, Inhabited

/-! ## Power and heat (chapter 14) -/

/-- Control of a field's power beside its registers. -/
structure FieldPower where
  /-- The hardware causes that hold the field in FALLOW: their codes in Table 14-8, first cause first (R334). -/
  holds : List Nat := []
  /-- Wake step in progress, 1 to 4; 0 for none (R335). -/
  step : Nat := 0
  /-- Where the field goes next: 0, to RUN once its entry is done; another state, through RUN (R333). -/
  goal : Option Nat := none
  /-- An edge wake message is repeated until RUN or a change of target (R336). -/
  repeating : Bool := false
  /-- Thermal gear for the next boundary, and the 1 ms readings below 90 °C since the last rise (R345). -/
  thermal : Nat := 600
  cool : Nat := 0
  /-- A raise decided for the coming boundary and whether its rail is ready (R338). -/
  raising : Option Nat := none
  railReady : Bool := false
  /-- Suspect groups with the rise, in nV, that made each suspect (R332). -/
  suspects : List (Nat × Nat) := []
  /-- A derate that takes effect at the next boundary (R332). -/
  derate : Bool := false
  /-- Rail changes of CANARY_WATCH for the next boundary: gear and offset steps; or a top gear in MHz (R364). -/
  offsetNew : Option (Nat × Nat) := none
  topNew : Option Nat := none
  deriving DecidableEq, Repr, Inhabited

structure PowerSt where
  fields : List (Nat × FieldPower) := []
  /-- Levels in W of the active brake sources: pin, command, undervoltage, cap loop, overpower (R341), and the ordered
  shutdown (R26, R347). -/
  levels : List (Option Nat) := [none, none, none, none, none, none]
  /-- The last source has been released; pulse removal ends at the next boundary (R343). -/
  releasing : Bool := false
  /-- The brake has been applied, or its level moved, and the next 10 µs sample has not come (R342). -/
  fresh : Bool := false
  /-- The input power of the last 100 samples, newest first, in 0.1 mW: a sample comes every 1 µs (R327). -/
  samples : List Nat := []
  /-- TimeSt.passed when CAP_PRESSURE was last asserted (R340). -/
  pressAt : Nat := 0
  /-- BRAKE_SHORT has been raised since the brake was applied (R342). -/
  short : Bool := false
  /-- Consecutive boundaries whose average stayed below 92 % of the cap (R340). -/
  below : Nat := 0
  /-- The standby rails are in regulation (R387, R388). -/
  standby : Bool := true
  /-- An ordered shutdown is held in AON retention memory (R347). -/
  shutdown : Bool := false
  /-- The cap that the loop keeps while pair 2's duties are not served (R306). -/
  capKept : Option Nat := none
  /-- The brake has held at some time in the tick in progress (R26, Table 2-2 cause 7). -/
  slowed : Bool := false
  deriving DecidableEq, Repr, Inhabited

/-! ## Wafer map, margin plan, flood and classification (chapters 15 and 16) -/

/-- A field record of the wafer map (Table 15-5). Link codes: 0 rim, 1 N, 2 E, 3 S, 4 W, 7 none. -/
structure FieldRec where
  status : Nat := 3
  cause : Nat := 1
  depth : Nat := 0
  links : Nat := 0
  ref : Nat := 7
  refAlt : Nat := 7
  wave : Nat := 7
  waveAlt : Nat := 7
  wlat : Nat := 0xFFFF
  wlatAlt : Nat := 0xFFFF
  topGear : Nat := 0
  derated : Bool := false
  suspect : Bool := false
  coremap : List Nat := [0, 0, 0, 0]
  rtrFail : Nat := 0
  /-- Sites that do not work, by p, and those of them retired in service, which stand across floods (R129, R356). -/
  siteFail : Nat := 0
  siteRet : Nat := 0
  /-- Retired in service: a fence of its units is not lifted (R368). -/
  retired : Bool := false
  deriving DecidableEq, Repr, Inhabited

/-- A stack record (Table 15-6). -/
structure StackRec where
  active : Nat := 0xFFFFFFFF
  marked : Nat := 0
  status : Nat := 2
  rows : Nat := 0
  deriving DecidableEq, Repr, Inhabited

/-- A port record (Table 15-7). -/
structure PortRec where
  status : Nat := 4
  retired : Nat := 0
  deriving DecidableEq, Repr, Inhabited

/-- The wafer map (R359). -/
structure WaferMap where
  kind : Nat := 0
  seq : Nat := 0
  tick : Nat := 0
  wall : Nat := 0
  depth : Nat := 0
  regions : Nat := 0
  fields : List (Nat × FieldRec) := []
  stackRecs : List (Nat × StackRec) := []
  ports : List (Nat × PortRec) := []
  deriving DecidableEq, Repr, Inhabited

/-- A field's entry of the margin plan (Table 15-9): offsets in 5 mV steps, the top gear (6 when gear 5 is excluded),
survey results, and the contact baselines. -/
structure MarginRec where
  offsets : List Nat := [0, 0, 0, 0, 0, 0]
  top : Nat := 0
  slack : Nat := 0
  vmin : Nat := 0
  wear : Nat := 0
  tick : Nat := 0
  wall : Nat := 0
  /-- Contact group baselines: group, R0 in µΩ, I0 in mA (R332). -/
  base : List (Nat × Nat × Nat) := []
  deriving DecidableEq, Repr, Inhabited

structure MarginPlan where
  wall : Nat := 0
  fields : List (Nat × MarginRec) := []
  deriving DecidableEq, Repr, Inhabited

/-- A flood in progress (R350): its step of Table 15-1, whether a command started it, its level, the fields tested at
this level with the relays that reach them, the records found so far, and the margin top gears found. -/
structure FloodRun where
  full : Bool
  service : Bool
  commanded : Bool
  step : Nat
  level : Nat
  testing : List Nat
  fields : List (Nat × FieldRec)
  stackRecs : List (Nat × StackRec)
  ports : List (Nat × PortRec)
  base : List (Nat × List (Nat × Nat × Nat))
  deriving DecidableEq, Repr, Inhabited

/-- An entry of error classification (R366): a location and the ticks of its last errors, newest first, at most three. -/
structure ErrEntry where
  loc : ErrLoc
  ticks : List Nat
  perm : Bool
  deriving DecidableEq, Repr, Inhabited

structure HealthSt where
  map : Copies WaferMap := {}
  plan : Copies MarginPlan := {}
  /-- A wafer map and a margin plan in effect whose commits wait for room in the tally or for pair 3 (R304, R317). -/
  mapDue : Option WaferMap := none
  planDue : Option MarginPlan := none
  flood : Option FloodRun := none
  /-- Fields that a FIELD reset has under test (Table 16-5). -/
  retests : List Nat := []
  /-- A flood that is due and has not begun: full memory test, commanded, with step 1. -/
  floodDue : Option (Bool × Bool × Bool) := none
  /-- Fields a survey still has to reach, and the fields it works on (R363). -/
  surveyTodo : List Nat := []
  surveying : List Nat := []
  /-- The plan as the running survey has changed it, to be committed at its end. -/
  surveyPlan : Option MarginPlan := none
  /-- Locations, newest error first, at most 65,536 (R366). -/
  errs : List ErrEntry := []
  /-- Permanent locations in the order found, with the ladder step each took: 1 spare row, 2 unit retired. -/
  perms : List (ErrLoc × Nat) := []
  /-- Spare rows taken per bank: kind, field, unit, runit and bank, and how many. -/
  spares : List (Nat × Nat) := []
  /-- The stacks have lost what they held: the flood that follows writes every quay line (R179). -/
  quayLost : Bool := true
  /-- Sites and clusters whose retirement waits for the job to stop, by site (R129), by cluster. -/
  retireSites : List Nat := []
  retireClusters : List Nat := []
  /-- Sites of failed routers that are marked failed once the job has stopped (Table 16-1 kind 5). -/
  markSites : List Nat := []
  /-- Rows that move to a spare at the next PLACE (Table 16-1). -/
  rowsDue : List ErrLoc := []
  /-- The re-placement proposal: physical field of each logical field, and the tick of the first fault (R372). -/
  proposal : List Nat := []
  proposalTick : Nat := 0
  deriving DecidableEq, Repr, Inhabited

/-! ## The module -/

/-- Everything the module holds beside the queue of waiting commands. -/
structure Wafer where
  /-- Register fields by `Fld.key`; an unlisted key holds its reset value. -/
  regs : List (Nat × Nat) := []
  coreMem : Mem := {}
  cluMem : Mem := {}
  accMem : Mem := {}
  stkMem : Mem := {}
  chamber : Mem := {}
  fwMem : Mem := {}
  cores : List (Nat × Core) := []
  /-- A reset has cleared the cores that are not listed: their registers are undefined (R103). -/
  coresLost : Option Nat := none
  engines : List (Nat × Engine) := []
  gmes : List (Nat × Gme) := []
  tiers : List (Nat × Tier) := []
  canal : CanalSt := {}
  stackRecs : List (Nat × StackSt) := []
  reservoir : Reservoir := {}
  ports : List (Nat × Port) := []
  ingest : Ingest := {}
  reduce : Reduce := {}
  time : TimeSt := {}
  fences : List FenceRec := []
  /-- Serial number of the next fence raised (R24). -/
  fenceSerial : Nat := 1
  /-- Fences raised in this tick, with the class that caused each, for step 3 of the next boundary (R23). -/
  raised : List (FenceUnit × Nat) := []
  cmd : CmdSt := {}
  job : JobSt := {}
  shp : ShpSt := {}
  power : PowerSt := {}
  health : HealthSt := {}
  /-- What the module has sent, oldest first. -/
  out : List Emit := []
  /-- The model's own: the next free value's number (a value the spec leaves open). -/
  free : Nat := 0
  deriving DecidableEq, Repr, Inhabited

/-- The block: its waiting commands, first in, first out, and the module. (Log 1 DESIGN CHOICE.) -/
structure State where
  pending : List Instr
  w : Wafer
  deriving DecidableEq, Repr, Inhabited

/-- The module right after a COLD reset (Table 16-5) with empty persistent records: the cold flood with step 1 is due.
(Log 2 DESIGN CHOICE.) -/
def Wafer.reset : Wafer := { health := { floodDue := some (false, false, true) } }

def State.reset : State := { pending := [], w := Wafer.reset }

/-- Replace the module, keeping the queue. -/
def State.upd (s : State) (f : Wafer → Wafer) : Host.Outcome State Fault Refusal := .next { s with w := f s.w }

/-- `upd` for a command that names a unit: a fault when the unit does not exist. (Log 10 DESIGN CHOICE.) -/
def State.updIf (s : State) (ok : Bool) (f : Wafer → Wafer) : Host.Outcome State Fault Refusal :=
  if ok then s.upd f else .fault .noSuchUnit

end Sys2Proof.Machine
end

