-- ==== Sys2Proof/Machine/Operands.lean ====
section
/-!
DEFINITION. Sys2Proof/Machine/Operands.lean: how multi-byte fields, bit fields and structures are read and written
(R1, R2), and where the units lie: the field array (R11 to R13), the rim (R16, R17, R152, R153), the port and unit
numbers (R205, Table 7-3) and endpoint addresses (R320).
-/

namespace Sys2Proof.Machine

/-! ## Bytes and bits -/

/-- A little-endian number (R1). -/
def leNat : List Byte → Nat
  | [] => 0
  | b :: l => b.toNat + 256 * leNat l

/-- The `n` bytes of a number, little-endian. -/
def natLE : Nat → Nat → List Byte
  | 0, _ => []
  | n + 1, x => BitVec.ofNat 8 x :: natLE n (x / 256)

/-- `n` bytes of a structure from byte `off`; bytes past its end read zero. -/
def bytesAt (l : List Byte) (off n : Nat) : List Byte := ((l.drop off).take n) ++ List.replicate (n - (l.length - off)) 0#8

/-- The field at bytes `off` to `off + n − 1`. -/
def fieldAt (l : List Byte) (off n : Nat) : Nat := leNat ((l.drop off).take n)

/-- Bits [lo + len − 1 : lo] of a number (R2). -/
def bits (x lo len : Nat) : Nat := x / 2 ^ lo % 2 ^ len

/-- One bit. -/
def bit (x i : Nat) : Bool := x / 2 ^ i % 2 == 1

/-- A bit as a number. -/
def b2n (b : Bool) : Nat := if b then 1 else 0

/-- Bit i set where p i holds, below n. -/
def maskOf (n : Nat) (p : Nat → Bool) : Nat := (List.range n).foldl (fun a i => if p i then a + 2 ^ i else a) 0

/-- Two's complement reading of the low n bits. -/
def toInt (n x : Nat) : Int := if x % 2 ^ n < 2 ^ (n - 1) then (x % 2 ^ n : Nat) else (x % 2 ^ n : Nat) - (2 ^ n : Nat)

/-- Two's complement encoding in n bits. -/
def ofInt (n : Nat) (x : Int) : Nat := (x % (2 ^ n : Nat)).toNat

/-- a / b rounded up. -/
def ceilDiv (a b : Nat) : Nat := (a + b - 1) / b

/-- The number of elements of a list that satisfy p. -/
def countIf {α : Type} (p : α → Bool) (l : List α) : Nat := (l.filter p).length

/-- Numbers lo, lo + 1, ..., lo + n − 1. -/
def rangeFrom (lo n : Nat) : List Nat := (List.range n).map (lo + ·)

/-- Position of the first element that satisfies p. -/
def indexOf? {α : Type} (p : α → Bool) : List α → Option Nat
  | [] => none
  | x :: l => if p x then some 0 else (indexOf? p l).map (· + 1)

/-- The list without element i. -/
def dropAt {α : Type} : List α → Nat → List α
  | [], _ => []
  | _ :: l, 0 => l
  | x :: l, i + 1 => x :: dropAt l i

/-- Change element i. -/
def listUpd {α : Type} : List α → Nat → (α → α) → List α
  | [], _, _ => []
  | x :: l, 0, f => f x :: l
  | x :: l, i + 1, f => x :: listUpd l i f

/-- Insert into a sorted list, before the first element that does not stay ahead of it. -/
def insertBy {α : Type} (le : α → α → Bool) (x : α) : List α → List α
  | [] => [x]
  | y :: l => if le x y then x :: y :: l else y :: insertBy le x l

/-- Sort by an order. -/
def sortBy {α : Type} (le : α → α → Bool) (l : List α) : List α := l.foldr (insertBy le) []

/-! ## The field array -/

def rowFirst : List Nat := [0, 4, 12, 22, 32, 44, 56, 68, 80, 90, 100, 108]
def rowWest : List Nat := [4, 2, 1, 1, 0, 0, 0, 0, 1, 1, 2, 4]
def rowLen : List Nat := [4, 8, 10, 10, 12, 12, 12, 12, 10, 10, 8, 4]

/-- Row of a field (Table 1-1). -/
def fieldRow (f : Nat) : Nat := countIf (fun a => decide (a ≤ f)) (rowFirst.drop 1)
def fieldCol (f : Nat) : Nat := f - rowFirst.getD (fieldRow f) 0 + rowWest.getD (fieldRow f) 0

/-- The field at a row and column, if there is one (R11). -/
def fieldOfRC (r c : Nat) : Option Nat :=
  if r < 12 ∧ rowWest.getD r 0 ≤ c ∧ c < rowWest.getD r 0 + rowLen.getD r 0
  then some (rowFirst.getD r 0 + c - rowWest.getD r 0) else none

/-- The neighbour of a field by link code: 1 N, 2 E, 3 S, 4 W (Table 15-5). -/
def fieldNeighbour (f code : Nat) : Option Nat :=
  let r := fieldRow f
  let c := fieldCol f
  match code with
  | 1 => fieldOfRC (r + 1) c
  | 2 => fieldOfRC r (c + 1)
  | 3 => if r = 0 then none else fieldOfRC (r - 1) c
  | 4 => if c = 0 then none else fieldOfRC r (c - 1)
  | _ => none

/-- Coordinates of a site (R13). -/
def siteX (s : Nat) : Nat := 5 * fieldCol (s / 20) + s % 20 % 5
def siteY (s : Nat) : Nat := 4 * fieldRow (s / 20) + s % 20 / 5

/-- The site at a coordinate (R13). -/
def siteOfXY (x y : Nat) : Option Nat :=
  (fieldOfRC (y / 4) (x / 5)).map fun f => f * 20 + y % 4 * 5 + x % 5

/-- The cluster (field × 4 + c) of a site. -/
def siteCluster (s : Nat) : Nat := s / 20 * 4 + s % 20 / 5

/-! ## The rim -/

/-- Attach field of each stack (Table 1-3). -/
def stackAttach : List Nat :=
  [22, 12, 4, 5, 0, 1, 2, 3, 10, 11, 21, 31, 43, 55, 67, 79, 89, 99, 107, 106, 111, 110, 109, 108,
   101, 100, 90, 80, 68, 56, 44, 32]

/-- Attach field of a port index (R16, R17). -/
def portField (i : Nat) : Nat := if i < 64 then stackAttach.getD (i / 2) 0 else i - 64

/-- Gateway coordinates of an attach field (R152). -/
def gateways (f : Nat) : List (Nat × Nat) :=
  let x := 5 * fieldCol f
  let y := 4 * fieldRow f
  if fieldRow f ≤ 1 then (List.range 5).map fun i => (x + i, y)
  else if fieldRow f ≥ 10 then (List.range 5).map fun i => (x + i, y + 3)
  else if fieldCol f ≤ 5 then (List.range 4).map fun i => (x, y + i)
  else (List.range 4).map fun i => (x + 4, y + i)

/-- Coordinates through which a rim unit or area port is reached (R152, R153, Table 7-3). -/
def runitGates (u : Nat) : List (Nat × Nat) :=
  if u < 32 then gateways (stackAttach.getD u 0)
  else if u < 96 then gateways (portField (u - 32))
  else if u < 208 then
    (List.range 4).map fun i => (5 * fieldCol (u - 96) + 2, 4 * fieldRow (u - 96) + i)
  else []

/-- RUNIT of a port index (Table 7-3). -/
def portRunit (i : Nat) : Nat := 32 + i

/-! ## Endpoints and DETAIL -/

/-- An endpoint address (R320). -/
def endpoint (place field unit : Nat) : Nat := place % 2 ^ 25 * 2 ^ 15 + field % 128 * 2 ^ 8 + unit % 256

/-- DETAIL (Table 16-3). -/
def detailOf (field unit runit extra : Nat) : Nat :=
  field % 256 + unit % 256 * 2 ^ 8 + runit % 256 * 2 ^ 16 + extra % 256 * 2 ^ 24

def detailField (f : Nat) : Nat := detailOf f 0xFF 255 0
def detailSite (s : Nat) : Nat := detailOf (s / 20) (s % 20) 255 0
def detailCluster (cl : Nat) : Nat := detailOf (cl / 4) (32 + cl % 4) 255 0
def detailRunit (u : Nat) : Nat := detailOf 0xFF 0xFF u 0
def detailNone : Nat := detailOf 0xFF 0xFF 255 0

/-! ## Gears (Table 14-3) -/

/-- Gears in MHz by index. -/
def gearMHz : List Nat := [600, 570, 540, 510, 480, 300]
/-- Nominal rails in mV by gear index. -/
def gearRail : List Nat := [620, 600, 580, 565, 550, 480]

def gearIdx (mhz : Nat) : Nat := ((indexOf? (fun g => g == mhz) gearMHz).getD 5)
def isGear (mhz : Nat) : Bool := gearMHz.contains mhz
/-- One gear lower and one gear higher. -/
def gearDown (mhz : Nat) : Nat := gearMHz.getD (gearIdx mhz + 1) 300
def gearUp (mhz : Nat) : Nat := gearMHz.getD (gearIdx mhz - 1) 600

/-- The job gear floor: the lowest gear f with B_max ≤ f × P_µs (R44); a period count is 0.8 ns. -/
def gearFloor (bmax period : Nat) : Option Nat :=
  gearMHz.reverse.find? fun f => decide (bmax * 1250 ≤ f * period)

/-! ## Ticks -/

/-- T lies in the future of n (R33). -/
def tickFuture (t n : Nat) : Bool :=
  let d := (t + 2 ^ 48 - n % 2 ^ 48) % 2 ^ 48
  decide (1 ≤ d ∧ d < 2 ^ 47)

/-- (T − n) mod 2^48. -/
def tickDiff (t n : Nat) : Nat := (t + 2 ^ 48 - n % 2 ^ 48) % 2 ^ 48

/-! ## Persistent records (R376) -/

/-- The current copy: the greater SEQ, compared mod 2^32 within 2^31. -/
def Copies.current {α : Type} (c : Copies α) : Option (Nat × α) :=
  match c.a, c.b with
  | none, x => x
  | x, none => x
  | some x, some y =>
    let d := (y.1 + 2 ^ 32 - x.1 % 2 ^ 32) % 2 ^ 32
    if 0 < d ∧ d < 2 ^ 31 then some y else some x

def Copies.value {α : Type} (c : Copies α) : Option α := c.current.map (·.2)

/-- SEQ of the current copy; 0 with none. -/
def Copies.seq {α : Type} (c : Copies α) : Nat := (c.current.map (·.1)).getD 0

/-- A commit writes the copy that is not current, with SEQ one greater. -/
def Copies.commit {α : Type} (c : Copies α) (v : α) : Copies α :=
  let s := ((c.current.map (fun x => x.1 + 1)).getD 0) % 2 ^ 32
  match c.a, c.b with
  | none, _ => { c with a := some (s, v) }
  | _, none => { c with b := some (s, v) }
  | some x, some y =>
    let d := (y.1 + 2 ^ 32 - x.1 % 2 ^ 32) % 2 ^ 32
    if 0 < d ∧ d < 2 ^ 31 then { c with a := some (s, v) } else { c with b := some (s, v) }

end Sys2Proof.Machine
end

