-- ==== Sys2Proof/Machine/Flags.lean ====
section
/-!
DEFINITION. Sys2Proof/Machine/Flags.lean: reading and setting register fields, management events and control-plane
statuses, counters that saturate (R377), and records that hold the first event until their VALID bit is cleared.
-/

namespace Sys2Proof.Machine

/-! ## Register fields -/

/-- Read a field of the register block at a base. -/
def Wafer.rd (w : Wafer) (base : Nat) (f : Fld) : Nat := mapGet fieldReset w.regs (f.at base).key

/-- Set a field of the register block at a base; the value is cut to the field. -/
def Wafer.wr (w : Wafer) (base : Nat) (f : Fld) (v : Nat) : Wafer :=
  { w with regs := mapSet fieldReset w.regs (f.at base).key (v % 2 ^ f.len) }

/-- Set several fields of one block, in order. -/
def Wafer.wrs (w : Wafer) (base : Nat) (l : List (Fld × Nat)) : Wafer :=
  l.foldl (fun w e => w.wr base e.1 e.2) w

/-- The 64 bits of the register at a BAR0 offset; WO and RSV bits read zero (R7). -/
def Wafer.reg64 (w : Wafer) (off : Nat) : Nat :=
  (regFields off).foldl (fun a d => match d.ty with
    | .wo => a
    | _ => a + mapGet fieldReset w.regs d.fld.key * 2 ^ d.fld.lo) 0

/-- Return every field whose register lies in [lo, hi) to its reset value. (Log 2 DESIGN CHOICE.) -/
def Wafer.resetRegs (w : Wafer) (lo hi : Nat) : Wafer :=
  { w with regs := mapClear (fun k => decide (lo * 64 ≤ k ∧ k < hi * 64)) w.regs }

/-! ## Time as the registers show it -/

def Wafer.tick (w : Wafer) : Nat := w.rd lckBase Reg.lckTickTick
def Wafer.countNow (w : Wafer) : Nat := w.rd lckBase Reg.lckCountCount
def Wafer.period (w : Wafer) : Nat := w.rd lckBase Reg.lckPeriodPeriod

/-- The wall clock, 0 when unset (Table 13-5). -/
def Wafer.wall (w : Wafer) : Nat := if w.time.wallSet then w.rd lckBase Reg.lckWallWall else 0

/-! ## The schedule (R31) -/

/-- A counter difference as a signed 64-bit value. -/
def signed64 (x : Nat) : Int := toInt 64 x

/-- k of the tick in progress at counter value c. -/
def Wafer.tickK (w : Wafer) (c : Nat) : Int := signed64 (c + 2 ^ 64 - w.rd lckBase Reg.lckEpochEpoch) / (w.period : Int)

/-- The tick in progress at counter value c. -/
def Wafer.tickAt (w : Wafer) (c : Nat) : Nat := ofInt 48 ((w.rd lckBase Reg.lckBasetickBase : Int) + w.tickK c)

/-- The start value of tick n. -/
def Wafer.startOf (w : Wafer) (n : Nat) : Nat :=
  ofInt 64 ((w.rd lckBase Reg.lckEpochEpoch : Int) + toInt 48 (n + 2 ^ 48 - w.rd lckBase Reg.lckBasetickBase) * (w.period : Int))

/-- The start value of the tick in progress. -/
def Wafer.tickStart (w : Wafer) : Nat :=
  ofInt 64 ((w.rd lckBase Reg.lckEpochEpoch : Int) + w.tickK w.countNow * (w.period : Int))

/-- The next start value that the counter reaches. -/
def Wafer.nextStart (w : Wafer) : Nat :=
  ofInt 64 ((w.rd lckBase Reg.lckEpochEpoch : Int) + (w.tickK w.countNow + 1) * (w.period : Int))

/-- Counts until the next start value. (Log 17 DEDUCED.) -/
def Wafer.toNextStart (w : Wafer) : Nat := (w.nextStart + 2 ^ 64 - w.countNow) % 2 ^ 64

/-- A pending tick-rate change: P′ and T. -/
def Wafer.pendingRate (w : Wafer) : Option (Nat × Nat) :=
  if w.rd lckBase Reg.lckPendingValid = 1 then some (w.rd lckBase Reg.lckPendingPeriod, w.rd lckBase Reg.lckPendtickTick) else none

def Wafer.clearPending (w : Wafer) : Wafer :=
  w.wrs lckBase [(Reg.lckPendingPeriod, 0), (Reg.lckPendingValid, 0), (Reg.lckPendtickTick, 0)]

/-- A value the spec leaves open, and the state with the next one pending. (Log 5 DESIGN CHOICE.) -/
def Wafer.fresh (w : Wafer) : Nat × Wafer := (Config.freeValue w.free, { w with free := w.free + 1 })

def Wafer.emit (w : Wafer) (e : Emit) : Wafer := { w with out := w.out ++ [e] }

/-! ## Lockstep pairs (R305, R306) -/

def Wafer.pair (w : Wafer) (p : Nat) : Pair :=
  match p with
  | 0 => w.shp.pair0 | 1 => w.shp.pair1 | 2 => w.shp.pair2 | _ => w.shp.pair3

def Wafer.setPair (w : Wafer) (p : Nat) (x : Pair) : Wafer :=
  { w with shp := match p with
    | 0 => { w.shp with pair0 := x } | 1 => { w.shp with pair1 := x }
    | 2 => { w.shp with pair2 := x } | _ => { w.shp with pair3 := x } }

/-- The pair that carries a pair's duties: itself, or the next pair not retired in the order 0, 1, 2, 3, 0. (Log 60 PRESUMED.) -/
def Wafer.carrier (w : Wafer) (p : Nat) : Option Nat :=
  ((List.range 4).map fun k => (p + k) % 4).find? fun q => !(w.pair q).retired

/-- A duty is served now: its carrier exists and is up. -/
def Wafer.dutyUp (w : Wafer) (p : Nat) : Bool :=
  match w.carrier p with
  | none => false
  | some q => (w.pair q).up

/-! ## Events -/

/-- A pair of Shepherd is restarting, or all four are retired (R306). (Log 14 DEDUCED.) -/
def Wafer.shpDown (w : Wafer) : Bool :=
  (!w.shp.pair0.up && !w.shp.pair0.retired) || (!w.shp.pair1.up && !w.shp.pair1.retired) ||
  (!w.shp.pair2.up && !w.shp.pair2.retired) || (!w.shp.pair3.up && !w.shp.pair3.retired) ||
  (w.shp.pair0.retired && w.shp.pair1.retired && w.shp.pair2.retired && w.shp.pair3.retired)

/-- Post a control-plane status: an event entry at step 3 of the next boundary (R295). -/
def Wafer.post (w : Wafer) (e : Event) : Wafer := { w with cmd := { w.cmd with posts := w.cmd.posts ++ [e] } }

/-- Queue an event while Shepherd is restarting or down (R306): 4,096 wait; further ones are counted as lost. LOST is
an error counter of 16 bits with its own overflow bit (R377). (Log 14 DEDUCED.) -/
def Wafer.queueEvent (w : Wafer) (e : Event) : Wafer :=
  if w.shp.evq.length < 4096 then
    ({ w with shp := { w.shp with evq := w.shp.evq ++ [e] } } : Wafer).wr 0 Reg.shpEvqQueued (w.shp.evq.length + 1)
  else
    let c := w.rd 0 Reg.shpEvqLost
    if c + 1 < 0xFFFF then w.wr 0 Reg.shpEvqLost (c + 1)
    else if w.rd 0 Reg.shpEvqLostovf = 1 then w.wr 0 Reg.shpEvqLost 0xFFFF
    else ((w.wr 0 Reg.shpEvqLost 0xFFFF).wr 0 Reg.shpEvqLostovf 1).post ⟨0x0B20, 0x018⟩

/-- A management event: to Shepherd at once, or queued (R306). (Log 14 DEDUCED.) -/
def Wafer.mgmt (w : Wafer) (e : Event) : Wafer :=
  if w.shpDown then w.queueEvent e else w.emit (.mgmtEvent e)

/-- A management event that is also posted as control-plane status. (Log 13 DESIGN CHOICE.) -/
def Wafer.notify (w : Wafer) (cls detail : Nat) : Wafer := (w.mgmt ⟨cls, detail⟩).post ⟨cls, detail⟩

/-! ## Counters (R377) -/

/-- Add n to a counter. It stops at its largest value; at that moment, or at a count while the overflow bit has been
cleared, the bit is set and COUNTER_OVF is raised once, with the counter's BAR0 offset in DETAIL. -/
def Wafer.countIn (w : Wafer) (base : Nat) (f ovf : Fld) (n : Nat) : Wafer :=
  if n = 0 then w
  else
    let max := 2 ^ f.len - 1
    let c := w.rd base f + n
    if c < max then w.wr base f c
    else if w.rd base ovf = 1 then w.wr base f max
    else ((w.wr base f max).wr base ovf 1).notify 0x0B20 (base + f.off)

/-- Add n to a 48-bit event counter. -/
def Wafer.count (w : Wafer) (base : Nat) (f : Fld) (n : Nat := 1) : Wafer := w.countIn base f f.ovf n

/-- Clear a counter and its overflow bit. -/
def Wafer.clearCount (w : Wafer) (base : Nat) (f : Fld) : Wafer := (w.wr base f 0).wr base f.ovf 0

/-- Fill a record register that holds the first event since its VALID bit was cleared. -/
def Wafer.recordFirst (w : Wafer) (base : Nat) (valid : Fld) (l : List (Fld × Nat)) : Wafer :=
  if w.rd base valid = 1 then w else (w.wrs base l).wr base valid 1

/-! ## The code of every stored word (R200) -/

/-- m1(x) = x^7 + x^3 + 1, the minimal polynomial of α, and m3(x) = x^7 + x^3 + x^2 + x + 1, that of α^3: bit i is the coefficient of x^i. -/
def codeM1 : Nat := 0x89
def codeM3 : Nat := 0x8F

/-- The product of two polynomials over GF(2), the second of n terms. -/
def polyMul (a b : Nat) : Nat → Nat
  | 0 => 0
  | n + 1 => (if bit b n then a <<< n else 0) ^^^ polyMul a b n

/-- g(x) = m1(x) × m3(x), of degree 14. -/
def codeG : Nat := polyMul codeM1 codeM3 8

/-- The remainder of a polynomial of n + 14 terms by g(x). -/
def codeMod (v : Nat) : Nat → Nat
  | 0 => v
  | n + 1 => codeMod (if bit v (n + 14) then v ^^^ codeG <<< n else v) n

/-- The exclusive-or of bits 0 to n − 1. -/
def parityOf (v : Nat) : Nat → Bool
  | 0 => false
  | n + 1 => bit v n != parityOf v n

/-- The 80-bit code word: check bits 0 to 13, data bits 14 to 77, the poison bit 78, and the parity of all of them in bit 79. -/
def codeWord (data : Nat) (poison : Bool) : Nat :=
  let x := (data % 2 ^ 64 + 2 ^ 64 * b2n poison) * 2 ^ 14
  let v := x + codeMod x 65
  v + 2 ^ 79 * b2n (parityOf v 79)

/-- A word of 80 bits is a code word. -/
def codeValid (v : Nat) : Bool := codeMod (v % 2 ^ 79) 65 == 0 && bit v 79 == parityOf v 79

def codeData (v : Nat) : Nat := bits v 14 64
def codePoison (v : Nat) : Bool := bit v 78

end Sys2Proof.Machine
end

