-- ==== Sys2Proof/Machine/Cipher.lean ====
section
/-!
DEFINITION. Sys2Proof/Machine/Cipher.lean: the published algorithms that the spec names for frames and keys: the IEEE 802.3 CRC-32
(R210), AES-256-GCM (R218, R245) and HKDF with SHA3-256 (R217, R219). They are the standards', not the spec's text:
notes/assumptions/3.md, PRESUMED.
-/

namespace Sys2Proof.Machine

/-! ## CRC-32 -/

/-- n bits of the reflected CRC-32 shift register. -/
def crcBits (c : Nat) : Nat → Nat
  | 0 => c
  | n + 1 => crcBits (if c % 2 = 1 then c / 2 ^^^ 0xEDB88320 else c / 2) n

/-- The CRC-32 of a byte string. -/
def crc32 (l : List Byte) : Nat := (l.foldl (fun c b => crcBits (c ^^^ b.toNat) 8) 0xFFFFFFFF) ^^^ 0xFFFFFFFF

/-! ## AES-256 (FIPS 197) -/

def aesSubTable : List Nat :=
  [0x63, 0x7C, 0x77, 0x7B, 0xF2, 0x6B, 0x6F, 0xC5, 0x30, 0x01, 0x67, 0x2B, 0xFE, 0xD7, 0xAB, 0x76] ++
   [0xCA, 0x82, 0xC9, 0x7D, 0xFA, 0x59, 0x47, 0xF0, 0xAD, 0xD4, 0xA2, 0xAF, 0x9C, 0xA4, 0x72, 0xC0] ++
   [0xB7, 0xFD, 0x93, 0x26, 0x36, 0x3F, 0xF7, 0xCC, 0x34, 0xA5, 0xE5, 0xF1, 0x71, 0xD8, 0x31, 0x15] ++
   [0x04, 0xC7, 0x23, 0xC3, 0x18, 0x96, 0x05, 0x9A, 0x07, 0x12, 0x80, 0xE2, 0xEB, 0x27, 0xB2, 0x75] ++
   [0x09, 0x83, 0x2C, 0x1A, 0x1B, 0x6E, 0x5A, 0xA0, 0x52, 0x3B, 0xD6, 0xB3, 0x29, 0xE3, 0x2F, 0x84] ++
   [0x53, 0xD1, 0x00, 0xED, 0x20, 0xFC, 0xB1, 0x5B, 0x6A, 0xCB, 0xBE, 0x39, 0x4A, 0x4C, 0x58, 0xCF] ++
   [0xD0, 0xEF, 0xAA, 0xFB, 0x43, 0x4D, 0x33, 0x85, 0x45, 0xF9, 0x02, 0x7F, 0x50, 0x3C, 0x9F, 0xA8] ++
   [0x51, 0xA3, 0x40, 0x8F, 0x92, 0x9D, 0x38, 0xF5, 0xBC, 0xB6, 0xDA, 0x21, 0x10, 0xFF, 0xF3, 0xD2] ++
   [0xCD, 0x0C, 0x13, 0xEC, 0x5F, 0x97, 0x44, 0x17, 0xC4, 0xA7, 0x7E, 0x3D, 0x64, 0x5D, 0x19, 0x73] ++
   [0x60, 0x81, 0x4F, 0xDC, 0x22, 0x2A, 0x90, 0x88, 0x46, 0xEE, 0xB8, 0x14, 0xDE, 0x5E, 0x0B, 0xDB] ++
   [0xE0, 0x32, 0x3A, 0x0A, 0x49, 0x06, 0x24, 0x5C, 0xC2, 0xD3, 0xAC, 0x62, 0x91, 0x95, 0xE4, 0x79] ++
   [0xE7, 0xC8, 0x37, 0x6D, 0x8D, 0xD5, 0x4E, 0xA9, 0x6C, 0x56, 0xF4, 0xEA, 0x65, 0x7A, 0xAE, 0x08] ++
   [0xBA, 0x78, 0x25, 0x2E, 0x1C, 0xA6, 0xB4, 0xC6, 0xE8, 0xDD, 0x74, 0x1F, 0x4B, 0xBD, 0x8B, 0x8A] ++
   [0x70, 0x3E, 0xB5, 0x66, 0x48, 0x03, 0xF6, 0x0E, 0x61, 0x35, 0x57, 0xB9, 0x86, 0xC1, 0x1D, 0x9E] ++
   [0xE1, 0xF8, 0x98, 0x11, 0x69, 0xD9, 0x8E, 0x94, 0x9B, 0x1E, 0x87, 0xE9, 0xCE, 0x55, 0x28, 0xDF] ++
   [0x8C, 0xA1, 0x89, 0x0D, 0xBF, 0xE6, 0x42, 0x68, 0x41, 0x99, 0x2D, 0x0F, 0xB0, 0x54, 0xBB, 0x16]

def aesSub (x : Nat) : Nat := aesSubTable.getD x 0

/-- The four bytes of a word, first byte highest. -/
def wordBytes (x : Nat) : List Nat := [x / 2 ^ 24 % 256, x / 2 ^ 16 % 256, x / 2 ^ 8 % 256, x % 256]
def bytesWord (l : List Nat) : Nat := l.foldl (fun n b => n * 256 + b) 0
def subWord (x : Nat) : Nat := bytesWord ((wordBytes x).map aesSub)
def rotWord (x : Nat) : Nat := x * 256 % 2 ^ 32 + x / 2 ^ 24

/-- The eight words of the key schedule that follow eight. -/
def keyStep (k : List Nat) (rcon : Nat) : List Nat :=
  let g := fun i => k.getD i 0
  let a0 := g 0 ^^^ subWord (rotWord (g 7)) ^^^ rcon * 2 ^ 24
  let a1 := g 1 ^^^ a0
  let a2 := g 2 ^^^ a1
  let a3 := g 3 ^^^ a2
  let a4 := g 4 ^^^ subWord a3
  let a5 := g 5 ^^^ a4
  let a6 := g 6 ^^^ a5
  [a0, a1, a2, a3, a4, a5, a6, g 7 ^^^ a6]

/-- The key schedule from eight words on. -/
def keySchedule (k : List Nat) : List Nat → List Nat
  | [] => k
  | r :: l => k ++ keySchedule (keyStep k r) l

/-- The 15 round keys of a 32-byte key, 16 bytes each. -/
def roundKeys (key : List Byte) : List (List Nat) :=
  let l := (List.range 8).map fun i => bytesWord ((List.range 4).map fun j => (key.getD (4 * i + j) 0#8).toNat)
  let s := keySchedule l [1, 2, 4, 8, 16, 32, 64]
  (List.range 15).map fun r => (List.range 4).flatMap fun j => wordBytes (s.getD (4 * r + j) 0)

/-- Doubling in the field of AES. -/
def aesDouble (x : Nat) : Nat := if 128 ≤ x then (2 * x) ^^^ 0x11B else 2 * x

/-- One column of MixColumns. -/
def mixColumn (a b c d : Nat) : List Nat :=
  let t := a ^^^ b ^^^ c ^^^ d
  [a ^^^ t ^^^ aesDouble (a ^^^ b), b ^^^ t ^^^ aesDouble (b ^^^ c), c ^^^ t ^^^ aesDouble (c ^^^ d), d ^^^ t ^^^ aesDouble (d ^^^ a)]

def mixColumns : List Nat → List Nat
  | a :: b :: c :: d :: l => mixColumn a b c d ++ mixColumns l
  | l => l

/-- SubBytes and ShiftRows. -/
def subShift (s : List Nat) : List Nat := (List.range 16).map fun i => aesSub (s.getD ((i % 4 + 4 * ((i / 4 + i % 4) % 4))) 0)

def addKey (s k : List Nat) : List Nat := s.zipWith (fun a b => a ^^^ b) k

/-- The rounds after the first key: the last has no MixColumns. -/
def aesRounds (s : List Nat) : List (List Nat) → List Nat
  | [] => s
  | [k] => addKey (subShift s) k
  | k :: l => aesRounds (addKey (mixColumns (subShift s)) k) l

/-- A block under the round keys. -/
def aesBlock (keys : List (List Nat)) (b : List Nat) : List Nat :=
  match keys with
  | [] => b
  | k :: l => aesRounds (addKey b k) l

/-! ## GCM (NIST SP 800-38D) -/

/-- The product of two blocks, first bit highest: n bits of x remain. -/
def ghashMul (x v z : Nat) : Nat → Nat
  | 0 => z
  | n + 1 =>
    ghashMul x (if v % 2 = 1 then v / 2 ^^^ 0xE1 * 2 ^ 120 else v / 2) (if bit x n then z ^^^ v else z) n

/-- The 16-byte block at the front of a byte string, padded with zeros, as a number. -/
def blockBE (l : List Byte) : Nat := bytesWord ((List.range 16).map fun i => (l.getD i 0#8).toNat)

/-- GHASH over n blocks. -/
def ghash (h : Nat) : Nat → Nat → List Byte → Nat
  | 0, y, _ => y
  | n + 1, y, l => ghash h n (ghashMul (y ^^^ blockBE (l.take 16)) h 0 128) (l.drop 16)

def blocksOf (l : List Byte) : Nat := ceilDiv l.length 16

/-- The bytes of a block counter: the 12-byte nonce and a 32-bit count. -/
def counterBlock (nonce : List Byte) (c : Nat) : List Nat := (List.range 12).map (fun i => (nonce.getD i 0#8).toNat) ++ wordBytes c

/-- Counter mode over n blocks from count c. -/
def gcmCtr (keys : List (List Nat)) (nonce : List Byte) : Nat → Nat → List Byte → List Byte
  | 0, _, _ => []
  | n + 1, c, l =>
    (l.take 16).zipWith (fun (b : Byte) k => b ^^^ BitVec.ofNat 8 k) (aesBlock keys (counterBlock nonce c)) ++
      gcmCtr keys nonce n (c + 1) (l.drop 16)

/-- The 16-byte tag over associated data and ciphertext. -/
def gcmTag (keys : List (List Nat)) (nonce aad ct : List Byte) : List Byte :=
  let h := bytesWord (aesBlock keys (List.replicate 16 0))
  let y := ghash h (blocksOf ct) (ghash h (blocksOf aad) 0 aad) ct
  let y := ghashMul (y ^^^ (aad.length * 8 * 2 ^ 64 + ct.length * 8)) h 0 128
  let t := y ^^^ bytesWord (aesBlock keys (counterBlock nonce 1))
  (natLE 16 t).reverse

/-- AES-256-GCM: plaintext or ciphertext under the keystream. -/
@[irreducible] def gcmCrypt (key nonce l : List Byte) : List Byte := gcmCtr (roundKeys key) nonce (blocksOf l) 2 l

/-- AES-256-GCM: the tag. -/
@[irreducible] def gcmMac (key nonce aad ct : List Byte) : List Byte := gcmTag (roundKeys key) nonce aad ct

/-- Sealing: the ciphertext and its tag, cut to n bytes. -/
def gcmSeal (n : Nat) (key nonce aad pt : List Byte) : List Byte × List Byte :=
  let ct := gcmCrypt key nonce pt
  (ct, (gcmMac key nonce aad ct).take n)

/-- Opening: the plaintext when the tag verifies. -/
def gcmOpen (n : Nat) (key nonce aad ct tag : List Byte) : Option (List Byte) :=
  if (gcmMac key nonce aad ct).take n = tag then some (gcmCrypt key nonce ct) else none

/-! ## HKDF (RFC 5869) with SHA3-256 -/

def sha3Bytes (l : List Byte) : List Byte := natLE 32 (sha3 l)

/-- HMAC with SHA3-256, whose block is 136 bytes. -/
@[irreducible] def hmac (key m : List Byte) : List Byte :=
  let k := if 136 < key.length then sha3Bytes key else key
  let k := k ++ List.replicate (136 - k.length) 0#8
  sha3Bytes (k.map (· ^^^ 0x5C#8) ++ sha3Bytes (k.map (· ^^^ 0x36#8) ++ m))

def hkdfExtract (salt ikm : List Byte) : List Byte := hmac salt ikm

/-- n blocks of HKDF-Expand after the block `last`, number i. -/
def hkdfBlocks (prk info : List Byte) : Nat → Nat → List Byte → List Byte
  | 0, _, _ => []
  | n + 1, i, last =>
    let t := hmac prk (last ++ info ++ natLE 1 i)
    t ++ hkdfBlocks prk info n (i + 1) t

def hkdfExpand (prk info : List Byte) (n : Nat) : List Byte := (hkdfBlocks prk info (ceilDiv n 32) 1 []).take n

end Sys2Proof.Machine
end

