-- ==== Sys2Proof/Machine/Frames.lean ====
section
/-!
DEFINITION. Sys2Proof/Machine/Frames.lean: Towpath frames as bytes (R209, R210), their protection (R218), and the keys of a session (R217,
R219).
-/

namespace Sys2Proof.Machine

/-! ## Layout (Tables 9-3 and 9-4) -/

/-- The header of a frame. -/
def frameHeader (f : Frame) : List Byte :=
  natLE 8 (f.vl % 4 + 2 ^ 2 * (f.ftype % 16) + 2 ^ 6 * b2n f.prot + 2 ^ 7 * b2n f.kph + 2 ^ 8 * (f.seq % 2 ^ 16) +
    2 ^ 24 * (f.plen % 256) + 2 ^ 32 * (f.tag % 2 ^ 32))

/-- The 256 bytes of a frame with its tag. -/
def frameBytes (f : Frame) (mac : List Byte) : List Byte :=
  let b := frameHeader f ++ bytesAt f.payload 0 232 ++ bytesAt mac 0 12
  b ++ natLE 4 (crc32 b)

/-- The frame in 256 bytes. -/
def frameOf (l : List Byte) : Frame :=
  let h := fieldAt l 0 8
  ⟨bits h 0 2, bits h 2 4, bit h 6, bit h 7, bits h 8 16, bits h 24 8, bits h 32 32, (bytesAt l 8 232).take (bits h 24 8)⟩

/-- TAGMAC. -/
def frameMac (l : List Byte) : List Byte := bytesAt l 240 12

/-- The CRC over bytes 0 to 251 agrees (R210). -/
def crcOk (l : List Byte) : Bool := fieldAt l 252 4 == crc32 (bytesAt l 0 252)

/-! ## Protection (R218) -/

/-- The nonce of frame f of a lane under a direction's key and salt. -/
def frameNonce (key : List Byte) (vl f : Nat) : List Byte := bytesAt key 32 4 ++ natLE 8 (vl * 2 ^ 62 + f)

/-- The payload that VL3 adds to the additional data: a TIMING frame's correctionField counts as zero. -/
def macPayload (fr : Frame) : List Byte :=
  if fr.ftype = 6 then fr.payload.take 8 ++ List.replicate (min 8 (fr.payload.length - 8)) 0#8 ++ fr.payload.drop 16 else fr.payload

/-- The additional data of a frame: the header with SEQ zero, and on VL3 the payload. -/
def frameAad (fr : Frame) : List Byte := frameHeader { fr with seq := 0 } ++ (if fr.vl = 3 then macPayload fr else [])

/-- The bytes of a protected frame, number f of its lane, under a key of 32 bytes with its salt of 4. The plaintext is the PLEN bytes of
payload. (Log 33 DEDUCED.) -/
def sealFrame (key : List Byte) (fr : Frame) (f : Nat) : List Byte :=
  let nonce := frameNonce key fr.vl f
  if fr.vl = 3 then frameBytes fr (gcmSeal 12 (key.take 32) nonce (frameAad fr) []).2
  else
    let x := gcmSeal 12 (key.take 32) nonce (frameAad fr) fr.payload
    frameBytes { fr with payload := x.1 } x.2

/-- The payload of a protected frame, when it authenticates. -/
def unsealFrame (key : List Byte) (fr : Frame) (mac : List Byte) (f : Nat) : Option (List Byte) :=
  let nonce := frameNonce key fr.vl f
  if fr.vl = 3 then (gcmOpen 12 (key.take 32) nonce (frameAad fr) [] mac).map fun _ => fr.payload
  else gcmOpen 12 (key.take 32) nonce (frameAad fr) fr.payload mac

/-! ## Keys (R217, R219, R245) -/

def asciiBytes (s : String) : List Byte := s.toList.map fun c => BitVec.ofNat 8 c.toNat

/-- A key of a session: key index `idx` of direction `dir`, 0 from the initiator to the responder: 32 bytes of key and 4 of salt.
(Log 33 DEDUCED.) -/
def sessionKey (secret idx dir : Nat) : List Byte :=
  hkdfExpand (natLE 32 secret) ((if idx = 0 then [] else asciiBytes "towpath rekey") ++ Config.keyContext dir idx) 36

/-- The wrap key of a direction of a session (R245). -/
def wrapKey (secret dir : Nat) : List Byte := hkdfExpand (natLE 32 secret) (asciiBytes "towpath wrap" ++ Config.keyContext dir 0) 32

/-- The direction in which an end sends, and the one in which it receives. -/
def Exchange.sendDir (x : Exchange) : Nat := if x.initiator then 0 else 1
def Exchange.recvDir (x : Exchange) : Nat := if x.initiator then 1 else 0

/-! ## Job fault notices (Table 16-4) -/

def noticeBytes (n : Notice) : List Byte :=
  natLE 4 n.tag ++ natLE 2 n.cls ++ natLE 2 0 ++ natLE 6 n.tick ++ natLE 2 0 ++ natLE 5 n.origin ++ natLE 3 0 ++ natLE 4 n.detail ++ natLE 4 0

/-! ## Heartbeats (Table 9-10) -/

def heartbeatBytes (h : Heartbeat) : List Byte :=
  natLE 6 h.tick ++ natLE 2 0 ++ natLE 4 h.period ++ natLE 4 h.tag ++ natLE 1 h.flags ++ natLE 3 0

end Sys2Proof.Machine
end

