-- ==== Sys2Proof/Machine/IngestView.lean ====
section
/-!
DEFINITION. Sys2Proof/Machine/IngestView.lean: held chunks (R235, R241) and the registers that show ingest (Tables 10-12 to 10-15).
-/

namespace Sys2Proof.Machine

/-- Output ports of a train (R247). -/
def Train.outs (t : Train) : List Nat := t.out4.filter fun o => o != 0xFF

/-- Readable pages of a buffer. -/
def Reservoir.readyIn (r : Reservoir) (buf : Nat) : List Nat := if buf = 0 then r.ready0 else r.ready1
def Reservoir.placeIn (r : Reservoir) (buf : Nat) : List (Nat × Nat) := if buf = 0 then r.place0 else r.place1
def Reservoir.setReady (r : Reservoir) (buf : Nat) (l : List Nat) : Reservoir :=
  if buf = 0 then { r with ready0 := l } else { r with ready1 := l }
def Reservoir.setPlace (r : Reservoir) (buf : Nat) (l : List (Nat × Nat)) : Reservoir :=
  if buf = 0 then { r with place0 := l } else { r with place1 := l }

/-! ## Sources -/

/-- Index of the base source. -/
def Ingest.baseIdx (g : Ingest) : Nat := (indexOf? (fun (s : SrcSt) => s.src.kind == 0) g.sources).getD 0
def Ingest.srcAt (g : Ingest) (i : Nat) : SrcSt := g.sources.getD i default
def Wafer.updSrc (w : Wafer) (i : Nat) (f : SrcSt → SrcSt) : Wafer :=
  { w with ingest := { w.ingest with sources := listUpd w.ingest.sources i f } }

/-- Chunks of a source that the module holds under a manifest: the first, and how many (R241). -/
def Source.held (s : Source) (m : Manifest) : Nat × Nat :=
  if s.kind = 0 then (0, m.chunks) else (s.srcFirst, min (32 * s.pages) (m.chunks - s.srcFirst))

def Source.holds (s : Source) (m : Manifest) (c : Nat) : Bool :=
  decide ((s.held m).1 ≤ c ∧ c < (s.held m).1 + (s.held m).2)

/-- Reservoir page of a chunk (R235). -/
def Source.pageOf (s : Source) (c : Nat) : Nat := s.firstPage + (c - s.srcFirst) / 32

/-- Held chunks of a segment. -/
def Source.inSegment (s : Source) (m : Manifest) (seg : Nat) : List Nat :=
  let lo := max (1024 * seg) (s.held m).1
  let hi := min (1024 * seg + 1024) ((s.held m).1 + (s.held m).2)
  rangeFrom lo (hi - lo)

/-- Held chunks of a page. -/
def Source.inPage (s : Source) (m : Manifest) (page : Nat) : List Nat :=
  (rangeFrom (s.srcFirst + 32 * (page - s.firstPage)) 32).filter fun c => s.holds m c

/-- Every held chunk of the next generation has passed. -/
def SrcSt.complete (s : SrcSt) : Bool :=
  match s.next with
  | none => false
  | some m => decide ((s.src.held m).2 ≤ s.passedNext.length)

/-- Every chunk that a train carries has passed. -/
def trainDone (s : SrcSt) (t : Train) : Bool :=
  match s.next with
  | none => false
  | some m => (rangeFrom (s.src.held m).1 (s.src.held m).2).all fun c =>
      decide (c % t.stride < t.rlo ∨ t.rhi < c % t.stride) || s.passedNext.contains c

/-! ## Registers -/

/-- WST_STAT.STATE (Table 10-12). -/
def Ingest.stateCode (g : Ingest) : Nat :=
  if !g.admitted then 0
  else if g.stopped then 6
  else if g.sources.all SrcSt.complete then 5
  else if g.sources.any fun s => !s.passedNext.isEmpty then 4
  else if !g.trains.isEmpty && g.trains.all (·.readySent) then 3
  else if g.sources.any fun s => s.next.isSome then 2
  else 1

/-- WST_SRC STATE (Table 10-15). -/
def SrcSt.stateCode (s : SrcSt) : Nat :=
  if s.complete then 4 else if s.keyNext.isSome then 3 else if s.next.isSome then 2 else 1

/-- WST_TRAIN STATE (Table 10-14). -/
def trainState (s : SrcSt) (t : Train) : Nat :=
  if s.next.isNone then 0
  else if !t.readySent then 1
  else if trainDone s t then 4
  else if s.passedNext.any fun c => decide (t.rlo ≤ c % t.stride ∧ c % t.stride ≤ t.rhi) then 3
  else 2

/-- Show the ingest state in WST_STAT, WST_PROG, WST_SRC, WST_TRAIN and TIR_PAGES. -/
def Wafer.syncIngest (w : Wafer) : Wafer :=
  let g := w.ingest
  let b := g.srcAt g.baseIdx
  let sum := fun (f : SrcSt → Nat) => g.sources.foldl (fun n s => n + f s) 0
  let w := w.wrs wstBase
    [(Reg.wstStatState, g.stateCode), (Reg.wstStatSources, g.sources.length), (Reg.wstStatNextgen, b.expects),
     (Reg.wstProgVerified, sum fun s => s.passedNext.length),
     (Reg.wstProgExpected, sum fun s => (s.next.map fun m => (s.src.held m).2).getD 0)]
  let w := (List.range g.sources.length).foldl (fun w i =>
    let s := g.srcAt i
    w.wrs (srcBase i) [(Reg.wstSrc0Manifest, (s.next.map (·.id)).getD 0), (Reg.wstSrc1State, s.stateCode),
      (Reg.wstSrc1Verified, s.passedNext.length)]) w
  let w := (List.range g.trains.length).foldl (fun w i =>
    w.wr (trainBase i) Reg.wstTrain1State (trainState b (g.trains.getD i default))) w
  w.wr tirmBase Reg.tirPagesVerified (w.reservoir.readyIn g.nextBuf).length

end Sys2Proof.Machine
end

