-- ==== Sys2Proof/Machine/Ops.lean ====
section
/-!
DEFINITION. Sys2Proof/Machine/Ops.lean: the operations the meanings share: protected memories (R200 to R202), the tally
(R316, R317), units and fences (R23, R24, R368), stopping cores and engines (R42, R81, R103, R146), job faults (R369),
and replies (R293, R294, R297).
-/

namespace Sys2Proof.Machine

/-! ## Memories -/

def Mem.get (m : Mem) (a : Nat) : Byte := mapGet (fun _ => 0#8) m.bytes a
def Mem.set (m : Mem) (a : Nat) (b : Byte) : Mem := { m with bytes := mapSet (fun _ => 0#8) m.bytes a b }

/-- The canonical form of a memory: bytes in the form of Map.lean, poisoned words strictly rising. (Log 6 DESIGN CHOICE.) -/
def Memory.wf (m : Mem) : Bool := mapWf (fun _ => 0#8) m.bytes && decide (m.poison.Pairwise (· < ·))

/-- The poison bit of the word that holds an address (R200). -/
def Mem.badAt (m : Mem) (a : Nat) : Bool := m.poison.contains (a / 8)

/-- Set or clear the poison bit of the word that holds an address. -/
def Mem.mark (m : Mem) (a : Nat) (bad : Bool) : Mem :=
  { m with poison := if bad then setInsert m.poison (a / 8) else m.poison.filter (fun k => k != a / 8) }

def Mem.read (m : Mem) (a n : Nat) : List Byte := (List.range n).map fun i => m.get (a + i)

/-- The little-endian number in n bytes. -/
def Mem.num (m : Mem) (a n : Nat) : Nat := leNat (m.read a n)

/-- Whether any word of a range is poisoned. -/
def Mem.badIn (m : Mem) (a n : Nat) : Bool := m.poison.any fun k => decide (a < 8 * k + 8 ∧ 8 * k < a + n)

def Mem.setBytes (m : Mem) : Nat → List Byte → Mem
  | _, [] => m
  | a, b :: l => (m.set a b).setBytes (a + 1) l

/-- Write bytes. A word the write covers whole loses its poison (R202); one it covers in part keeps it (R187). -/
def Mem.write (m : Mem) (a : Nat) (l : List Byte) : Mem :=
  let m' := m.setBytes a l
  { m' with poison := m'.poison.filter fun k => !decide (a ≤ 8 * k ∧ 8 * k + 8 ≤ a + l.length) }

/-- Poison the words of a range given by number from `a`. -/
def Mem.poisonWords (m : Mem) (a : Nat) (ws : List Nat) : Mem := ws.foldl (fun m i => m.mark (a + 8 * i) true) m

/-- The numbers of the poisoned words of a range of n bytes from `a`. -/
def Mem.badWords (m : Mem) (a n : Nat) : List Nat :=
  (m.poison.filter fun k => decide (a < 8 * k + 8 ∧ 8 * k < a + n)).map fun k => k - a / 8

/-- Write bytes with the poison bits of their words. -/
def Mem.writeBad (m : Mem) (a : Nat) (l : List Byte) (ws : List Nat) : Mem := (m.write a l).poisonWords a ws

/-- Return [lo, hi) to code word zero. -/
def Mem.zero (m : Mem) (lo hi : Nat) : Mem :=
  { bytes := m.bytes.filter fun e => !decide (lo ≤ e.1 ∧ e.1 < hi)
    poison := m.poison.filter fun k => !decide (lo ≤ 8 * k ∧ 8 * k < hi) }

/-- The range of n bytes from b takes the n bytes from a of another memory, with their poison (R202); a and b are multiples of 8. -/
def Mem.copyFrom (m src : Mem) (a b n : Nat) : Mem :=
  let bytes := (src.bytes.filter fun (e : Host.Cell) => decide (a ≤ e.1 ∧ e.1 < a + n)).map fun (e : Host.Cell) => ((e.1 - a + b, e.2) : Host.Cell)
  let bad := (src.poison.filter fun k => decide (a ≤ 8 * k ∧ 8 * k < a + n)).map fun k => k - a / 8 + b / 8
  { bytes := (m.bytes.filter fun (e : Host.Cell) => decide (e.1 < b)) ++ bytes ++ m.bytes.filter fun (e : Host.Cell) => decide (b + n ≤ e.1)
    poison := (m.poison.filter fun k => decide (8 * k < b)) ++ bad ++ m.poison.filter fun k => decide (b + n ≤ 8 * k) }

/-! The keys of the memories. -/
def coreAddr (site a : Nat) : Nat := site * 2 ^ 24 + a
def cluAddr (cl a : Nat) : Nat := cl * 2 ^ 25 + a
def accAddr (eng bank row : Nat) : Nat := eng * 2 ^ 20 + bank * 2 ^ 19 + row * 512
def stkAddr (stk a : Nat) : Nat := stk * 2 ^ 37 + a
def chamberAddr (port off : Nat) : Nat := port * 2 ^ 22 + off
def fwAddr (slot off : Nat) : Nat := slot * 2 ^ 28 + off

/-- Where a stack's quay begins: the top 4 GiB of its usable space, which ADMIT and the floods place at or below 47,104 pages (R178, R179, R187).
(Log 32 DEDUCED.) -/
def Wafer.quayStart (w : Wafer) (stk : Nat) : Nat := min (w.rd (stkBase stk) Reg.stkBasinQuay) 47104 * 2 ^ 21

/-- The stack address of quay byte qa (R187): the first 64 GiB are port A's window, the rest port B's. (Log 32 DEDUCED.) -/
def quayAddr (w : Wafer) (qa : Nat) : Nat :=
  let q := qa % 2 ^ 36
  let s := q / 4096 % 32
  stkAddr s (w.quayStart s + qa / 2 ^ 36 * 2 ^ 31 + q / 131072 * 4096 + q % 4096)

/-- Read n bytes of the quay. -/
def Wafer.quayRead (w : Wafer) (qa n : Nat) : List Byte :=
  (List.range n).map fun i => w.stkMem.get (quayAddr w (qa + i))

/-- Whether a quay range holds a poisoned word. -/
def Wafer.quayBad (w : Wafer) (qa n : Nat) : Bool :=
  (List.range (n / 8 + 2)).any fun i =>
    decide (qa / 8 * 8 + 8 * i < qa + n) && w.stkMem.badAt (quayAddr w (qa / 8 * 8 + 8 * i))

/-- A quay range lies within the 128 GiB (R302). -/
def quayOk (qa n : Nat) : Bool := decide (qa + n ≤ 2 ^ 37)

/-! ## Parts of the state by unit -/

/-- Registers, semaphores and lanes of a core that can be undefined (R103). -/
def lostCount : Nat := 72 + 32 * 128
/-- A core that is not listed: as after reset, or as a reset that cleared it leaves it (R103). -/
def coreUnlisted (lost : Option Nat) (s : Nat) : Core :=
  match lost with
  | none => {}
  | some n => { lost := some (n + s * lostCount) }
def Wafer.core (w : Wafer) (s : Nat) : Core := mapGet (coreUnlisted w.coresLost) w.cores s
def Wafer.setCore (w : Wafer) (s : Nat) (c : Core) : Wafer := { w with cores := mapSet (coreUnlisted w.coresLost) w.cores s c }
def Wafer.updCore (w : Wafer) (s : Nat) (f : Core → Core) : Wafer := w.setCore s (f (w.core s))
def Wafer.engine (w : Wafer) (e : Nat) : Engine := mapGet (fun _ => {}) w.engines e
def Wafer.setEngine (w : Wafer) (e : Nat) (x : Engine) : Wafer :=
  { w with engines := mapSet (fun _ => {}) w.engines e x }
def Wafer.gme (w : Wafer) (cl : Nat) : Gme := mapGet (fun _ => {}) w.gmes cl
def Wafer.setGme (w : Wafer) (cl : Nat) (g : Gme) : Wafer := { w with gmes := mapSet (fun _ => {}) w.gmes cl g }
def Wafer.tier (w : Wafer) (cl : Nat) : Tier := mapGet (fun _ => {}) w.tiers cl
def Wafer.setTier (w : Wafer) (cl : Nat) (t : Tier) : Wafer := { w with tiers := mapSet (fun _ => {}) w.tiers cl t }
def Wafer.stack (w : Wafer) (s : Nat) : StackSt := mapGet (fun _ => {}) w.stackRecs s
def Wafer.setStack (w : Wafer) (s : Nat) (t : StackSt) : Wafer := { w with stackRecs := mapSet (fun _ => {}) w.stackRecs s t }
def Wafer.port (w : Wafer) (i : Nat) : Port := mapGet (fun _ => {}) w.ports i
def Wafer.setPort (w : Wafer) (i : Nat) (p : Port) : Wafer := { w with ports := mapSet (fun _ => {}) w.ports i p }
def Wafer.updPort (w : Wafer) (i : Nat) (f : Port → Port) : Wafer := w.setPort i (f (w.port i))
def Wafer.fieldPower (w : Wafer) (f : Nat) : FieldPower := mapGet (fun _ => {}) w.power.fields f
def Wafer.setFieldPower (w : Wafer) (f : Nat) (p : FieldPower) : Wafer :=
  { w with power := { w.power with fields := mapSet (fun _ => {}) w.power.fields f p } }
def Wafer.fieldTime (w : Wafer) (f : Nat) : FieldTime := mapGet (fun _ => {}) w.time.fields f
def Wafer.setFieldTime (w : Wafer) (f : Nat) (t : FieldTime) : Wafer :=
  { w with time := { w.time with fields := mapSet (fun _ => {}) w.time.fields f t } }
def Wafer.portTime (w : Wafer) (i : Nat) : PortTime := mapGet (fun _ => {}) w.time.ports i
def Wafer.setPortTime (w : Wafer) (i : Nat) (t : PortTime) : Wafer :=
  { w with time := { w.time with ports := mapSet (fun _ => {}) w.time.ports i t } }
/-- The wafer map in effect: one whose commit waits (R317), else the current copy; with no valid copy, nothing is reached. -/
def Wafer.map (w : Wafer) : WaferMap := w.health.mapDue.getD (w.health.map.value.getD {})
def Wafer.fieldRec (w : Wafer) (f : Nat) : FieldRec := mapGet (fun _ => {}) w.map.fields f
/-- The latency correction for the wave path a field uses, from the wafer map (R38, R39). -/
def Wafer.waveCorr (w : Wafer) (f parent : Nat) : Nat := if parent = 0 then (w.fieldRec f).wlat else (w.fieldRec f).wlatAlt

/-- A field's replica counter now, in 0.1 ns: it runs on from the value it was set to (R39). -/
def Wafer.replica8 (w : Wafer) (f : Nat) : Nat :=
  ((w.fieldTime f).replica + 8 * (w.time.passed - (w.fieldTime f).setAt)) % 2 ^ 67

/-- The same in counts. -/
def Wafer.replicaNow (w : Wafer) (f : Nat) : Nat := w.replica8 f / 8

/-- The field's replica counter has reached the start value it is armed for, within the ±2 ns that tick edges agree to (R38). -/
def Wafer.fieldFires (w : Wafer) (f : Nat) : Bool :=
  decide ((w.replica8 f + 20 + 2 ^ 67 - 8 * (w.fieldTime f).armStart) % 2 ^ 67 ≤ 40)

/-- The field arms the tick after the one it has fired; at the tick of a change it was told of, it takes the new period (R35). -/
def FieldTime.next (t : FieldTime) : FieldTime :=
  match t.pend with
  | some (p, n) =>
    if n = t.armTick then
      { t with armTick := (t.armTick + 1) % 2 ^ 48, armStart := (t.armStart + p) % 2 ^ 64, period := p, pend := none, applied := some (p, n) }
    else { t with armTick := (t.armTick + 1) % 2 ^ 48, armStart := (t.armStart + t.period) % 2 ^ 64 }
  | none => { t with armTick := (t.armTick + 1) % 2 ^ 48, armStart := (t.armStart + t.period) % 2 ^ 64 }

/-- A field's replica counter is loaded (R335): with the counter, the coming tick and what is known of the schedule. -/
def Wafer.loadReplica (w : Wafer) (f : Nat) : Wafer :=
  let t := w.fieldTime f
  w.setFieldTime f { t with
    heardAt := w.time.boundaries, corr := w.waveCorr f t.waveParent, replica := 8 * w.countNow, setAt := w.time.passed
    armTick := (w.tick + 1) % 2 ^ 48, armStart := w.nextStart, period := w.period, pend := w.pendingRate, applied := w.time.changed }

/-- The margin plan in effect; with no valid copy, offsets 0 and top gear 600 MHz (Table 16-6). -/
def Wafer.plan (w : Wafer) : MarginPlan := w.health.planDue.getD (w.health.plan.value.getD {})
def Wafer.marginRec (w : Wafer) (f : Nat) : MarginRec := mapGet (fun _ => {}) w.plan.fields f
def Wafer.cmdPort (w : Wafer) (x : Nat) : CmdPort := if x = 0 then w.cmd.portA else w.cmd.portB
def Wafer.setCmdPort (w : Wafer) (x : Nat) (c : CmdPort) : Wafer :=
  { w with cmd := if x = 0 then { w.cmd with portA := c } else { w.cmd with portB := c } }
def Wafer.setJob (w : Wafer) (j : JobSt) : Wafer := { w with job := j }

/-! ## The tally (R316, R317) -/

def TallyEntry.bytes (e : TallyEntry) : List Byte :=
  natLE 8 e.index ++ natLE 6 e.tick ++ natLE 1 e.path ++ natLE 1 e.kind ++ natLE 8 e.wall ++ natLE 2 e.opcode ++
  natLE 2 e.status ++ natLE 4 e.ref ++ natLE 5 e.origin ++ natLE 3 0 ++ natLE 12 e.old ++ natLE 12 e.new

/-- The buffer of 256 entries is full. -/
def Wafer.tallyFull (w : Wafer) : Bool := decide (256 ≤ w.shp.tallyBuf.length)

/-- Append an entry whose INDEX, TICK and WALL are those of now. (Log 61 DESIGN CHOICE.) -/
def Wafer.tallyPut (w : Wafer) (e : TallyEntry) : Wafer :=
  let w := w.wr secBase Reg.secTallyNext (e.index + 1)
  let buf := w.shp.tallyBuf ++ [e]
  let c := sha3 (natLE 32 w.shp.tallyHash ++ e.bytes)
  let w := { w with shp := { w.shp with tallyBuf := buf, tallyHash := c } }
  let w := w.wrs secBase [(Reg.secTallyhash0Hash, c), (Reg.secTallyhash1Hash, c / 2 ^ 64), (Reg.secTallyhash2Hash, c / 2 ^ 128),
    (Reg.secTallyhash3Hash, c / 2 ^ 192)]
  w.wr 0 Reg.shpStatTallyfull (if buf.length < 256 then 0 else 1)

/-- Entries lost while the buffer was full get their KIND 6 entry as soon as there is room, and the first boot after a loss of all
power writes one whatever was lost (R317). -/
def Wafer.tallyGap (w : Wafer) : Wafer :=
  if (w.shp.tallyLost = 0 ∧ w.shp.gapDue = false) ∨ w.tallyFull = true then w
  else
    let tick := if w.shp.tallyLost = 0 then w.tick else w.shp.tallyLostTick
    let w := w.tallyPut ⟨w.rd secBase Reg.secTallyNext, tick, 6, 6, w.wall, 0, 0, w.shp.tallyLost, 0, 0, 0⟩
    { w with shp := { w.shp with tallyLost := 0, gapDue := false } }

/-- An entry that finds the buffer full is lost and counted. -/
def Wafer.tallyMiss (w : Wafer) : Wafer :=
  { w with shp := { w.shp with
    tallyLost := w.shp.tallyLost + 1
    tallyLostTick := if w.shp.tallyLost = 0 then w.tick else w.shp.tallyLostTick } }

/-- Record a change of a tick in the tally. The first entry written once there is room is preceded by a KIND 6 entry for the lost ones
(R317). -/
def Wafer.tallyAt (w : Wafer) (tick path kind opcode status ref origin old new : Nat) : Wafer :=
  let w := w.tallyGap
  if w.tallyFull then w.tallyMiss
  else w.tallyPut ⟨w.rd secBase Reg.secTallyNext, tick, path, kind, w.wall, opcode, status, ref, origin, old, new⟩

/-- Record a change of now in the tally. -/
def Wafer.tally (w : Wafer) (path kind opcode status ref origin old new : Nat) : Wafer :=
  w.tallyAt w.tick path kind opcode status ref origin old new

/-- An internal change that Shepherd or the module makes on its own (KIND 4, PATH 6). -/
def Wafer.tallySelf (w : Wafer) (ref : Nat) : Wafer :=
  let i := w.rd secBase Reg.secTallyNext
  w.tally 6 4 0 0 ref 0 (Config.changeDigest i 0 (natLE 4 ref)) (Config.changeDigest i 1 (natLE 4 ref))

/-- The first 12 bytes of the SHA3-256 of bytes (Table 13-5 OLD and NEW). -/
def digest12 (l : List Byte) : Nat := sha3 l % 2 ^ 96

/-- A register write that took effect (KIND 2), or was refused (KIND 3). (Log 61 DESIGN CHOICE.) -/
def Wafer.tallyReg (w : Wafer) (path kind off old new : Nat) : Wafer :=
  w.tally path kind (off / 2 ^ 20) 0 off 0 old new

/-- Write one register field, recorded as a register write: the register's value before and after. -/
def Wafer.writeTallied (w : Wafer) (path base : Nat) (f : Fld) (v : Nat) : Wafer :=
  let old := w.reg64 (base + f.off)
  let new := (w.wr base f v).reg64 (base + f.off)
  (w.tallyReg path 2 (base + f.off) old new).wr base f v

/-! ## Units and fences -/

/-- The BAR0 base of the arbiter a fence names: 0 to 31 a stack's port, 32 to 207 a port's egress, 208 to 559 the
junction of port i, input lane 208 + 2i + lane, from 1,024 bank group b of cluster c of the field (1,024 + 8c + b).
(Log 26 DESIGN CHOICE.) -/
def fenceArbBase (field index : Nat) : Nat :=
  if index < 32 then stackArbBase index
  else if index < 208 then egressArbBase (index - 32)
  else if index < 560 then junctionArbBase ((index - 208) / 2) ((index - 208) % 2)
  else bankArbBase (field * 4 + (index - 1024) / 8) ((index - 1024) % 8)

/-- The unit a fence names exists. (Log 26 DESIGN CHOICE.) -/
def unitOk (u : FenceUnit) : Bool :=
  match u.kind with
  | .site => decide (u.field < 112 ∧ u.index < 20)
  | .cluster => decide (u.field < 112 ∧ u.index < 4)
  | .field => decide (u.field < 112 ∧ u.index = 0)
  | .routerPlane => decide (u.field < 112 ∧ u.index < 40)
  | .arbiter => decide (u.index < 208 ∨ (u.index < 560 ∧ (336 ≤ u.index ∨ u.index % 2 = 0)) ∨ (u.field < 112 ∧ 1024 ≤ u.index ∧ u.index < 1056))
  | .port => decide (u.index < 176)
  | .stackChannel => decide (u.index < 1024)

def Wafer.fenced (w : Wafer) (u : FenceUnit) : Bool := w.fences.any fun r => r.unit == u

def fSite (s : Nat) : FenceUnit := ⟨.site, s / 20, s % 20⟩
def fCluster (cl : Nat) : FenceUnit := ⟨.cluster, cl / 4, cl % 4⟩
def fField (f : Nat) : FenceUnit := ⟨.field, f, 0⟩
def fRouter (r : Nat) : FenceUnit := ⟨.routerPlane, r / 40, r % 40⟩
def fPort (i : Nat) : FenceUnit := ⟨.port, 0, i⟩
def fChannel (stk ch : Nat) : FenceUnit := ⟨.stackChannel, 0, stk * 32 + ch⟩
/-- The arbiters (Table 7-6): of a stack controller's port, a port's egress, lane k of a port's junction input, and bank group g of a
cluster's memory. -/
def fStackPort (stk : Nat) : FenceUnit := ⟨.arbiter, 0, stk⟩
def fEgress (i : Nat) : FenceUnit := ⟨.arbiter, 0, 32 + i⟩
def fJunction (i k : Nat) : FenceUnit := ⟨.arbiter, 0, 208 + 2 * i + k⟩
def fGroup (cl g : Nat) : FenceUnit := ⟨.arbiter, cl / 4, 1024 + 8 * (cl % 4) + g⟩

def Wafer.fieldFenced (w : Wafer) (f : Nat) : Bool := w.fenced (fField f)
def Wafer.clusterFenced (w : Wafer) (cl : Nat) : Bool := w.fieldFenced (cl / 4) || w.fenced (fCluster cl)
def Wafer.coreFenced (w : Wafer) (s : Nat) : Bool := w.clusterFenced (siteCluster s) || w.fenced (fSite s)
def Wafer.portFenced (w : Wafer) (i : Nat) : Bool := w.fenced (fPort i)

/-- Bytes [a, a + n) of a cluster's memory reach a bank group whose arbiter is fenced: it grants nothing (R23, R192). -/
def Wafer.groupsShut (w : Wafer) (cl a n : Nat) : Bool :=
  (rangeFrom (a / 64) (min 8 ((a + n + 63) / 64 - a / 64))).any fun k => w.fenced (fGroup cl (k % 8))

/-- Power state of a field: 0 RUN, 1 REST, 2 DOZE, 3 FALLOW (Table 14-10). -/
def Wafer.fieldState (w : Wafer) (f : Nat) : Nat := w.rd (fieldBase f) Reg.fpwStateState

def rectHas (r : Rect) (x y : Nat) : Bool := decide (r.x0 ≤ x ∧ x ≤ r.x1 ∧ r.y0 ≤ y ∧ y ≤ r.y1)

/-- Fenced rectangles of a plane. -/
def Wafer.rects (w : Wafer) (plane : Nat) : List Rect := if plane = 0 then w.canal.rectsA else w.canal.rectsB

/-- A router (site × 2 + plane) is unusable (R168). -/
def Wafer.routerFenced (w : Wafer) (r : Nat) : Bool :=
  w.clusterFenced (siteCluster (r / 2)) || w.fenced (fRouter r) ||
  (w.rects (r % 2)).any fun q => rectHas q (siteX (r / 2)) (siteY (r / 2))

/-- The sites of a fenced unit whose routers the fence reaches. -/
def unitRouters (u : FenceUnit) : List Nat :=
  match u.kind with
  | .field => rangeFrom (u.field * 40) 40
  | .cluster => rangeFrom (u.field * 40 + u.index * 10) 10
  | .routerPlane => [u.field * 40 + u.index]
  | _ => []

/-- The sites whose cores a fence takes away. -/
def unitSites (u : FenceUnit) : List Nat :=
  match u.kind with
  | .field => rangeFrom (u.field * 20) 20
  | .cluster => rangeFrom (u.field * 20 + u.index * 5) 5
  | .site => [u.field * 20 + u.index]
  | _ => []

/-- GME_STAT.STOPPED follows the fence of its cluster (Table 6-5). -/
def Wafer.syncGme (w : Wafer) (cl : Nat) : Wafer := w.wr (gmeBase cl) Reg.gmeStatStopped (b2n (w.clusterFenced cl))

/-- Bring FENCED of the unit's registers in line with the fences that stand. -/
def Wafer.syncFenced (w : Wafer) (u : FenceUnit) : Wafer :=
  let w := (unitRouters u).foldl (fun w r => w.wr (rtrBase r) Reg.rtrStatFenced (b2n (w.routerFenced r))) w
  match u.kind with
  | .arbiter => w.wr (fenceArbBase u.field u.index) Reg.arbStatFenced (b2n (w.fenced u))
  | .port => w.wr (portBase u.index) Reg.tpLinkstatFenced (b2n (w.fenced u))
  | .cluster => w.syncGme (u.field * 4 + u.index)
  | .field => (rangeFrom (u.field * 4) 4).foldl (fun w cl => w.syncGme cl) w
  | _ => w

/-! ## Engines and cores as faults stop them -/

/-- Whether an outstanding copy touches an accumulator bank (R109): its rows there count 512-byte rows from
engine × 2,048 + bank × 1,024. -/
def Copy.usesBank (c : Copy) (e bank : Nat) : Bool :=
  let k := e % 2 * 2 + bank
  let hits := fun (a stride : Nat) => (List.range c.rows).any fun i => (a + i * (stride / 512)) / 1024 == k
  (c.fill.isNone && c.sspace == 2 && hits c.src c.sstride) || (c.dspace == 2 && hits c.dst c.dstride)

/-- An accumulate pass claims its bank (R74) once every copy accepted before it has finished with the bank. -/
def Pass.claims (p : Pass) (c : Core) (e bank : Nat) : Bool :=
  decide (p.mode.out < 2) && p.desc.bank == bank && !c.copies.any fun x => decide (x.serial < p.serial) && x.usesBank e bank

/-- The bank of an accumulate pass. -/
def Pass.usesBank (p : Pass) (bank : Nat) : Bool := decide (p.mode.out < 2) && p.desc.bank == bank

/-- A VEC or MOV instruction that reads or writes the bank is held (R74): an accepted pass uses it. The pass comes before the
instruction in program order, so its claim ends first, even where an earlier copy keeps that claim from beginning. -/
def Wafer.bankHeld (w : Wafer) (e bank : Nat) : Bool := (w.engine e).passes.any fun p => p.usesBank bank

/-- The accumulator bank is claimed. -/
def Wafer.claimed (w : Wafer) (e bank : Nat) : Bool := (w.engine e).passes.any fun p => p.claims (w.core (e / 2)) e bank

/-- The fields of MAT_STAT that mirror the engine (Table 3-11). -/
def Wafer.engineSync (w : Wafer) (e : Nat) : Wafer :=
  let x := w.engine e
  let claimed := fun b => w.claimed e b
  w.wrs (matBase (e / 2) (e % 2))
    [(Reg.matStatQueue, x.passes.length), (Reg.matStatPend, b2n x.pend.isSome), (Reg.matStatActive, b2n x.active.isSome),
     (Reg.matStatClaim0, b2n (claimed 0)), (Reg.matStatClaim1, b2n (claimed 1)),
     (Reg.matStatOp, (x.active.map (·.mode.op)).getD 0), (Reg.matStatWfmt, (x.active.map (·.mode.wfmt)).getD 0)]

/-- The GME abandons an engine's request or lane (R146). -/
def Wafer.gmeAbandon (w : Wafer) (e : Nat) : Wafer :=
  let cl := siteCluster (e / 2)
  let g := w.gme cl
  let g' : Gme := ⟨g.lanes.filter fun l => l.2.engine != e, g.queue.filter fun x => x != e⟩
  (w.setGme cl g').wrs (gmeBase cl)
    [(Reg.gmeStatLanes, maskOf 4 fun i => g'.lanes.any fun l => l.1 == i), (Reg.gmeStatQueue, g'.queue.length)]

/-- A TICK_OVERRUN or a job fault that stops the core: issued passes go on, the rest and the pending tile are discarded
(R81). -/
def Wafer.engineDiscard (w : Wafer) (e : Nat) : Wafer :=
  let x := w.engine e
  let w := ((w.setEngine e { x with passes := x.passes.filter (·.issued), pend := none }).gmeAbandon e).engineSync e
  w.wr (matBase (e / 2) (e % 2)) Reg.matStatState 3

/-- Free bytes for a region whose contents are undefined. -/
def freeBytes (n0 len : Nat) : List Byte := (List.range len).map fun i => BitVec.ofNat 8 (Config.freeValue (n0 + i))

/-- Bytes of an element of a stream-out format (Table 3-2 OFMT). -/
def ofmtBytes (ofmt : Nat) : Nat := match ofmt with
  | 0 => 4 | 1 => 2 | 2 => 2 | _ => 1

/-- The core memory rows a stream-out pass writes (R75, R78): addresses and lengths. -/
def streamRows (mode : Mode) (d : StreamDesc) (n : Nat) : List (Nat × Nat) :=
  let len := n * ofmtBytes mode.ofmt
  match mode.tail with
  | 0 => (List.range d.m).map fun i => (d.dst + i * d.dstride, len)
  | 1 => [(d.dst, len)]
  | _ => [(d.dst, len), (d.dst + d.dstride, 4 * n)]

/-- A fence of the core or its field: the engine stops; every claimed bank, and every output row not yet written, is
undefined (R81). The spec names no more of the engine's own state: its queue and its pending tile go, its active tile and its mode
stay. (Log 75 DESIGN CHOICE.) -/
def Wafer.engineFence (w : Wafer) (e : Nat) : Wafer :=
  let x := w.engine e
  let rows := (x.passes.filter fun p => p.mode.out == 2).flatMap fun p => streamRows p.mode p.desc p.n
  let w := rows.foldl (fun w r =>
    { w with coreMem := w.coreMem.write (coreAddr (e / 2) r.1) (freeBytes w.free r.2), free := w.free + r.2 }) w
  let w := [0, 1].foldl (fun w b =>
    if w.claimed e b then
      { w with accMem := w.accMem.write (accAddr e b 0) (freeBytes w.free (2 ^ 19)), free := w.free + 2 ^ 19 }
    else w) w
  let w := ((w.setEngine e { x with passes := [], pend := none }).gmeAbandon e).engineSync e
  w.wr (matBase (e / 2) (e % 2)) Reg.matStatState 3

/-- A fence or a reset of the core leaves its registers and semaphores undefined (R103): every one takes a free value.
(Log 5 DESIGN CHOICE.) -/
def Core.undefinedFrom (c : Core) (n0 : Nat) : Core :=
  { c with copies := [], sends := [], lost := some n0, s := [], sem := [], v := [], vbad := [], m := [] }

/-- A reset clears the cores of the sites named (R103): nothing is left of them, and their registers are undefined. -/
def Wafer.loseCores (w : Wafer) (l : List Nat) : Wafer :=
  l.foldl (fun w s => { w.setCore s { lost := some w.free } with free := w.free + lostCount }) w

/-- A reset clears every core. -/
def Wafer.loseAllCores (w : Wafer) : Wafer :=
  { w with cores := [], coresLost := some w.free, free := w.free + 2240 * lostCount }

/-- Stop a core's issue: its stage cannot go on (SEQ_STAT.STATE 3). -/
def Wafer.coreStop (w : Wafer) (s : Nat) : Wafer :=
  (w.wr (siteBase s) Reg.seqStatState 3).wr (siteBase s) Reg.seqStatHeld 0

/-! A flit's source is its sender's site + 4,096 × the send's serial number; 4,095 for a stack or a junction. -/

/-- The source of flits that a port has brought in from another module. -/
def portSource : Nat := 4094

/-- The sends of a core that have not left it are abandoned. -/
def Wafer.dropSends (w : Wafer) (s : Nat) : Wafer :=
  { w with canal := { w.canal with flits := w.canal.flits.filter fun f => f.left || f.src % 4096 != s } }

/-- Flits and partial sums held in routers that become unusable are lost (R168). -/
def Wafer.loseRouters (w : Wafer) (rs : List Nat) : Wafer :=
  let w := { w with canal := { w.canal with
    flits := w.canal.flits.filter fun f =>
      !(f.left && rs.any fun r => r % 2 == f.plane && siteX (r / 2) == f.x && siteY (r / 2) == f.y)
    conf := w.canal.conf.filter fun e => !rs.contains e.1 } }
  rs.foldl (fun w r => w.wr (rtrBase r) Reg.rtrStatConfbuf 0) w

/-! ## The signal canal (R167) -/

/-- Sequence numbers that a node still knows a source by: the later half of the 16-bit numbers up to the newest.
(Log 77 DESIGN CHOICE.) -/
def scnKeep (l : List Nat) (seq : Nat) : List Nat := seq :: l.filter fun q => q != seq && decide ((seq + 2 ^ 16 - q) % 2 ^ 16 < 2 ^ 15)

def Wafer.scnKnown (w : Wafer) (source seq : Nat) : Bool := (mapGet (fun _ => []) w.canal.scnSeen source).contains seq
def Wafer.scnHear (w : Wafer) (source seq : Nat) : Wafer :=
  { w with canal := { w.canal with scnSeen := mapUpd (fun _ => []) w.canal.scnSeen source fun l => scnKeep l seq } }

/-- The service node broadcasts a message under its next sequence number. -/
def Wafer.scnSend (w : Wafer) (m : ScnMsg) : Wafer :=
  let w := w.scnHear 112 w.canal.scnSeq
  { w with canal := { w.canal with scnSeq := (w.canal.scnSeq + 1) % 2 ^ 16 } }.emit (.signal m)

/-- A broadcast that has come over the signal canal acts once (R167): a repeat of its source and sequence number is ignored. -/
def Wafer.scnOnce (w : Wafer) (source seq : Nat) (act : Wafer → Wafer) : Wafer :=
  if w.scnKnown source seq then w else act (w.scnHear source seq)

/-- A core stopped by an overrun or a job fault: its engines follow R81; sends not yet injected are abandoned (R369). -/
def Wafer.coreHalt (w : Wafer) (s : Nat) : Wafer :=
  let w := ((w.coreStop s).engineDiscard (2 * s)).engineDiscard (2 * s + 1)
  ((w.updCore s fun c => { c with sends := [] }).wr (cnlBase s) Reg.cnlStatSends 0).dropSends s

/-- A core taken away by a fence. (Log 12 DEDUCED.) -/
def Wafer.coreFence (w : Wafer) (s : Nat) : Wafer :=
  let w := ((w.coreStop s).engineFence (2 * s)).engineFence (2 * s + 1)
  let w := ((w.setCore s ((w.core s).undefinedFrom w.free)).wr (cnlBase s) Reg.cnlStatSends 0).dropSends s
  { w with free := w.free + lostCount }

/-- The sites that hold the placement's cores. -/
def Wafer.jobSites (w : Wafer) : List Nat := (w.cores.filter fun e => e.2.logical.isSome).map (·.1)

/-! ## Jobs -/

def JobPhase.code : JobPhase → Nat
  | .idle => 0 | .loaded => 1 | .placed => 2 | .armed => 3 | .running => 4 | .stopped => 5

/-- Enter a job state, shown in CMD_INFLIGHT.JOB. -/
def Wafer.setPhase (w : Wafer) (p : JobPhase) : Wafer :=
  ({ w with job := { w.job with phase := p } } : Wafer).wr cmdmBase Reg.cmdInflightJob p.code

def Wafer.running (w : Wafer) : Bool := w.job.phase == .running
def Wafer.armedOrRunning (w : Wafer) : Bool := w.job.phase == .armed || w.job.phase == .running
/-- A job is placed, armed or running. A LOAD in PLACED ends that job, and with it what it holds and locks (R191).
(Log 71 DESIGN CHOICE.) -/
def Wafer.jobHolds (w : Wafer) : Bool := w.job.phase == .placed || w.armedOrRunning

/-- The field holds part of a job that is running. -/
def Wafer.fieldInRun (w : Wafer) (f : Nat) : Bool := w.running && w.job.placement.contains f
/-- The field is in the placement of a job that is placed, armed or running. -/
def Wafer.fieldHeld (w : Wafer) (f : Nat) : Bool := w.jobHolds && w.job.placement.contains f

/-- A link that a running job uses: the port carries the job's current tag and is UP. -/
def Wafer.portInRun (w : Wafer) (i : Nat) : Bool :=
  w.running && w.rd (portBase i) Reg.tpTagCur != 0 && w.rd (portBase i) Reg.tpLinkstatState == 6

/-- A running job uses the unit (R368). -/
def Wafer.unitInRun (w : Wafer) (u : FenceUnit) : Bool :=
  match u.kind with
  | .site => w.running && (w.core (u.field * 20 + u.index)).logical.isSome
  | .cluster | .field | .routerPlane => w.fieldInRun u.field
  | .arbiter => if u.index < 32 then w.running else if u.index < 208 then w.portInRun (u.index - 32)
      else if u.index < 560 then w.portInRun ((u.index - 208) / 2) else w.fieldInRun u.field
  | .port => w.portInRun u.index
  | .stackChannel => w.running

/-! ## Ports (R205, R229) -/

/-- Area ports have the indices 64 to 175 (R205). -/
def isArea (i : Nat) : Bool := decide (64 ≤ i)

/-- TPx_LINKSTAT.STATE of a port. -/
def linkState (w : Wafer) (i : Nat) : Nat := w.rd (portBase i) Reg.tpLinkstatState

/-- Lanes a port carries under a plan: bit v for VLv (Table 9-9). -/
def planLanes (plan i peerKind : Nat) : Nat :=
  if isArea i then (if plan = 0 then 0 else 0b1011)
  else if plan = 0 then 0b1111
  else if plan = 1 then 0b1100
  else if peerKind = 1 then 0b1111 else 0b1110

def peerKind (w : Wafer) (i : Nat) : Nat := w.rd (portBase i) Reg.tpPeeridKind
def portPlan (w : Wafer) (i : Nat) : Nat := w.rd (portBase i) Reg.tpLinkctlPlan

/-- The plan gives the port a lane (R229). -/
def planCarries (w : Wafer) (i vl : Nat) : Bool := bit (planLanes (portPlan w i) i (peerKind w i)) vl

/-- The port carries a lane: under its plan, and only VL2 and VL3 while MGMT_ONLY (R221, R229). -/
def portCarries (w : Wafer) (i vl : Nat) : Bool := planCarries w i vl && (linkState w i == 6 || decide (2 ≤ vl))

/-- Frames a replay buffer holds (R214). -/
def replayRoom (i : Nat) : Nat := if isArea i then 8192 else 4096

/-! ## Slot tables (R171, R176) -/

/-- The active table of an arbiter after a reset (R213): a port's egress grants slot 0 of 64 to requester 0 and slot 32 to
requester 1. -/
def arbReset (base : Nat) : ArbTable := if base < 0x2000000 then { len := 64, owners := [(0, 0), (32, 1)] } else {}

def Wafer.arbTable (w : Wafer) (base : Nat) : ArbTable := mapGet arbReset w.canal.arbs base

/-! ## The hop receiver's buffer (R212) -/

/-- The receiver frees a frame and returns its credit: a CREDIT frame at 64 waiting (R212). -/
def Wafer.returnCredit (w : Wafer) (i vl : Nat) : Wafer :=
  let w := w.updPort i fun p => { p with owed := listUpd p.owed vl (· + 1) }
  let o := (w.port i).owed
  if 64 ≤ o.foldl (· + ·) 0 then
    (w.updPort i fun p => { p with owed := [0, 0, 0, 0] }).emit (.linkCtl i 1 o)
  else w

/-- Relayed copies of a received frame still wait to leave the module (R249). -/
def Wafer.relayWaits (w : Wafer) (i seq : Nat) : Bool := w.ports.any fun e => e.2.egress.any fun f => f.held == some (i, seq)

/-- Free frame k of a port's buffer, once no relayed copy of it waits. -/
def Wafer.rxFree (w : Wafer) (i k : Nat) : Wafer :=
  match (w.port i).rx[k]? with
  | none => w
  | some f =>
    if w.relayWaits i f.seq then w.updPort i fun p => { p with rx := listSet p.rx k { f with taken := true } }
    else (w.updPort i fun p => { p with rx := dropAt p.rx k }).returnCredit i f.vl

/-- The first frame of a port's buffer that the selection names is taken by the unit it is for. A command may also bring a frame that is
not in the buffer. (Log 74 DESIGN CHOICE.) -/
def Wafer.rxTake (w : Wafer) (i : Nat) (sel : RxFrame → Bool) : Wafer :=
  match indexOf? (fun (f : RxFrame) => !f.taken && sel f) (w.port i).rx with
  | none => w
  | some k => w.rxFree i k

/-- The frame with this lane, type and payload is taken. -/
def Wafer.rxTook (w : Wafer) (i vl ftype : Nat) (payload : List Byte) : Wafer :=
  w.rxTake i fun f => f.vl == vl && f.ftype == ftype && f.payload == payload

/-- A frame that cannot be taken yet stays in the buffer, where it holds its credit. -/
def Wafer.rxKeep (w : Wafer) (i vl ftype : Nat) (payload : List Byte) : Wafer :=
  if (w.port i).rx.any fun f => f.vl == vl && f.ftype == ftype && f.payload == payload then w
  else w.updPort i fun p => { p with rx := p.rx ++ [⟨vl, ftype, 2 ^ 16, payload, false⟩] }

/-- Frames of the buffer that the selection names are discarded, and their credits returned. -/
def Wafer.rxDrop (w : Wafer) (i : Nat) (sel : RxFrame → Bool) : Wafer :=
  let l := (w.port i).rx.filter sel
  l.foldl (fun w f => w.returnCredit i f.vl) (w.updPort i fun p => { p with rx := p.rx.filter fun f => !sel f })

/-- Frames that had been taken, and whose last relayed copy is gone, are freed. -/
def Wafer.rxSettle (w : Wafer) : Wafer :=
  (List.range 176).foldl (fun w i => if (w.port i).rx.any fun f => f.taken && !w.relayWaits i f.seq
    then w.rxDrop i fun f => f.taken && !w.relayWaits i f.seq else w) w

/-- Job data in the buffers is discarded: barge trains, fetches, chains and collectives (R256, R281). -/
def Wafer.rxStop (w : Wafer) : Wafer :=
  (List.range 176).foldl (fun w i => if (w.port i).rx.isEmpty then w
    else w.rxDrop i fun f => f.vl == 0 || (f.vl == 1 && fieldAt f.payload 2 1 != 4)) w

/-! ## Sending on a port (R209, R212 to R214, R218, R223) -/

/-- A frame is sent protected (R218, R220; LINKCTL.ENC0 for VL0). -/
def protects (w : Wafer) (i : Nat) (f : TxFrame) : Bool :=
  f.ftype == 5 || f.ftype == 6 || (f.ftype == 0 && (f.vl != 0 || w.rd (portBase i) Reg.tpLinkctlEnc0 == 1))

/-- The bytes in which a queued frame leaves now: under the current SEQ and, when protected, the send key. -/
def Port.frameBytes (p : Port) (f : TxFrame) (prot : Bool) : List Byte :=
  let fr : Frame := ⟨f.vl, f.ftype, prot, prot && p.txIdx % 2 == 1, p.nextSeq, f.payload.length, f.tag, f.payload⟩
  if prot then sealFrame (sessionKey (p.secret.getD 0) p.txIdx p.exch.sendDir) fr (p.txF.getD f.vl 0)
  else Machine.frameBytes fr []

/-- One frame leaves: it takes a credit, a SEQ and a place in the replay buffer (R212, R214). A received frame whose credit it held is
freed. -/
def Wafer.sendFrame (w : Wafer) (i : Nat) (f : TxFrame) : Wafer :=
  let prot := protects w i f
  let wire := (w.port i).frameBytes f prot
  let w := w.updPort i fun p =>
    { p with
      credits := listUpd p.credits f.vl (· - 1)
      nextSeq := (p.nextSeq + 1) % 2 ^ 16
      replay := p.replay ++ [{ f with seq := p.nextSeq, held := none, wire := wire }]
      txF := if prot then listUpd p.txF f.vl (· + 1) else p.txF
      txTotal := if prot then p.txTotal + 1 else p.txTotal }
  let w := (w.count (portBase i) Reg.tpTxframes).emit (.frame i f.requester wire)
  match f.held with
  | none => w
  | some (j, seq) => match indexOf? (fun (x : RxFrame) => x.taken && x.seq == seq) (w.port j).rx with
    | none => w
    | some k => w.rxFree j k

/-- The state of the link lets a frame leave (Table 9-8): IDENT frames from IDENT on and in quarantine, KEYX frames in KEYX, others in a
session. -/
def linkLets (w : Wafer) (i : Nat) (f : TxFrame) : Bool :=
  let st := linkState w i
  if f.ftype = 7 then decide (2 ≤ st ∧ st ≤ 4)
  else if f.ftype = 8 then st == 4
  else portCarries w i f.vl && (st == 5 || st == 6)

/-- A queued frame can leave now. During a width change frames wait (R215). A fenced port or egress arbiter sends no VL0 or VL1
(R23, R224). (Log 26 DESIGN CHOICE.) -/
def canSend (w : Wafer) (i : Nat) (f : TxFrame) : Bool :=
  let p := w.port i
  decide (0 < p.credits.getD f.vl 0) && decide (p.replay.length < replayRoom i) && p.widthTo.isNone && linkLets w i f &&
  !(decide (f.vl < 2) && (w.portFenced i || w.fenced (fEgress i)))

/-- The next frame that the egress arbiter grants (R172, R213): of the first frames of the lanes that can leave, one of the current slot's
owner, else the one queued first. (Log 26 DESIGN CHOICE.) -/
def Wafer.egressPick (w : Wafer) (i : Nat) : Option Nat :=
  let q := (w.port i).egress
  let heads := (List.range 4).filterMap fun v => indexOf? (fun (f : TxFrame) => f.vl == v) q
  let ready := heads.filter fun k => canSend w i (q.getD k default)
  let owner := (w.arbTable (egressArbBase i)).owners.lookup (w.rd (egressArbBase i) Reg.arbStatSlot)
  match ready.find? fun k => owner == some (q.getD k default).requester with
  | some k => some k
  | none => match ready with
    | [] => none
    | k :: l => some (l.foldl min k)

/-- Show the requesters that wait. -/
def Wafer.syncPend (w : Wafer) (i : Nat) : Wafer :=
  w.wr (egressArbBase i) Reg.arbStatPend (maskOf 32 fun r => (w.port i).egress.any fun f => f.requester == r)

/-- A beat of the egress arbiter moves a frame of a requester. -/
def Wafer.egressBeat (w : Wafer) (i requester : Nat) : Wafer :=
  let b := egressArbBase i
  (w.wrs b [(Reg.arbStatSlot, (w.rd b Reg.arbStatSlot + 1) % (w.arbTable b).len), (Reg.arbStatGrant, requester)]).count b Reg.arbGrants

/-- Send queued frames as the arbiter grants them, each lane in the order of its queue, until none can leave. -/
def Wafer.drain (w : Wafer) (i : Nat) : Nat → Wafer
  | 0 => w
  | n + 1 =>
    match w.egressPick i with
    | none => w
    | some k =>
      let f := (w.port i).egress.getD k default
      (((w.updPort i fun p => { p with egress := dropAt p.egress k }).egressBeat i f.requester).sendFrame i f).drain i n

/-- Send what can leave a port now. -/
def Wafer.sendAll (w : Wafer) (i : Nat) : Wafer :=
  if (w.port i).egress.isEmpty then w else (w.drain i (w.port i).egress.length).syncPend i

/-- Queue a frame at the egress arbiter under the port's current tag (R223) and send what can leave. -/
def Wafer.queueHeld (w : Wafer) (i requester vl ftype : Nat) (payload : List Byte) (held : Option (Nat × Nat)) : Wafer :=
  let w := w.updPort i fun p =>
    { p with egress := p.egress ++ [⟨requester, vl, ftype, w.rd (portBase i) Reg.tpTagCur, 0, payload, held, []⟩] }
  w.sendAll i

def Wafer.queueFrame (w : Wafer) (i requester vl ftype : Nat) (payload : List Byte) : Wafer :=
  w.queueHeld i requester vl ftype payload none

/-- Queue a message that has no frame prefix, 232 bytes a frame. (Log 33 DEDUCED.) -/
def payloadFrames (body : List Byte) : List (List Byte) :=
  (List.range (max 1 (ceilDiv body.length 232))).map fun k => (body.drop (232 * k)).take 232

/-! ## Messages on VL0 (R242) -/

/-- The frames of a message: prefix of Table 10-5 and up to 224 body bytes each. (Log 74 DESIGN CHOICE.) -/
def msgFrames (stream msg : Nat) (reply : Bool) (body : List Byte) : List (List Byte) :=
  let n := max 1 (ceilDiv body.length 224)
  (List.range n).map fun k =>
    natLE 2 stream ++ natLE 1 msg ++ natLE 1 (b2n (k == 0) + 2 * b2n (k + 1 == n) + 4 * b2n reply) ++ natLE 4 k ++
    (body.drop (224 * k)).take 224

def Wafer.sendVl0 (w : Wafer) (port requester stream msg : Nat) (reply : Bool) (body : List Byte) : Wafer :=
  (msgFrames stream msg reply body).foldl (fun w l => w.queueFrame port requester 0 0 l) w

/-- FETCH and FETCH_NAK bodies (Table 10-9). -/
def fetchBody (manifest gen first count what reason : Nat) : List Byte :=
  natLE 8 manifest ++ natLE 4 gen ++ natLE 4 first ++ natLE 2 count ++ natLE 1 what ++ natLE 1 reason ++ natLE 12 0

/-- Answer FETCH_NAK. -/
def Wafer.sendNakTo (w : Wafer) (r : FetchIn) (reason : Nat) : Wafer :=
  w.sendVl0 r.port 3 r.stream 6 true (fetchBody r.manifest r.gen r.first r.count r.what reason)

/-! ## Routes (R323) -/

/-- The primary and alternate port for a place: an exact entry, else the prefix of greatest length. -/
def RouteTables.lookup (t : RouteTables) (place : Nat) : Option (Nat × Nat) :=
  match t.exact.find? fun e => e.1 == place with
  | some e => some e.2
  | none =>
    let hits := t.prefixes.filter fun e => e.1 / 2 ^ (25 - e.2.1) == place / 2 ^ (25 - e.2.1)
    let len := hits.foldl (fun m e => max m e.2.1) 0
    (hits.find? fun e => e.2.1 == len).map fun e => e.2.2

/-- The port a message for a place leaves by: the primary while it will do, else the alternate. -/
def Wafer.routePort (w : Wafer) (place : Nat) (ok : Nat → Bool) : Option Nat :=
  match w.shp.routes.lookup place with
  | none => none
  | some (a, b) => if ok a then some a else if b < 176 ∧ ok b = true then some b else none

/-! ## Messages the module sends on the management lane (R321 to R323) -/

/-- The port a management frame for a place leaves by: the primary while it is UP or MGMT_ONLY, else the alternate; a port that does not
carry VL2 is no route for it (R229). (Log 63 DEDUCED.) -/
def Wafer.mlPort (w : Wafer) (place : Nat) : Option Nat :=
  match w.shp.routes.lookup place with
  | none => none
  | some (a, b) =>
    let i := if linkState w a = 5 ∨ linkState w a = 6 then a else b
    if i < 176 ∧ planCarries w i 2 = true then some i else none

/-- A VL2 prefix (Table 13-7). -/
def mlPrefix (dst src ttl kind msgid frag : Nat) : List Byte :=
  natLE 5 dst ++ natLE 5 src ++ natLE 1 ttl ++ natLE 1 kind ++ natLE 2 msgid ++ natLE 2 frag

/-- Send a message: frames of 216 body bytes in order, with TTL 32, from the interpreter's address. (Log 63 DEDUCED.) -/
def Wafer.mlSend (w : Wafer) (dst mtype : Nat) (body : List Byte) : Wafer :=
  let id := w.shp.mlMsgid
  let w := { w with shp := { w.shp with mlMsgid := (id + 1) % 2 ^ 16 } }
  let n := max 1 (ceilDiv body.length 216)
  match w.mlPort (dst / 2 ^ 15) with
  | none => w.count 0 Reg.shpMldrop n
  | some i => (List.range n).foldl (fun w k =>
      w.queueFrame i 1 2 0 (mlPrefix dst (endpoint (w.rd 0 Reg.shpPlacePlace) 127 0) 32
        (mtype + b2n (k == 0) * 16 + b2n (k + 1 == n) * 32) id k ++ (body.drop (216 * k)).take 216)) w

/-- A reply entry (Table 12-6) with its PHASE bit. -/
def Reply.bytes (e : Reply) (phase : Nat) : List Byte :=
  natLE 2 e.opcode ++ natLE 2 e.status ++ natLE 4 e.seq ++ natLE 6 e.tick ++ natLE 1 e.kind ++ natLE 1 (b2n e.trunc) ++ natLE 4 e.dlen ++
  natLE 4 e.cookie ++ natLE 4 e.detail ++ natLE 3 0 ++ natLE 1 (phase * 128)

/-- A packet as a command message (R297): its header, bytes 0 to 7 zero, and its parameters. -/
def packetMessage (opcode : Nat) (p : Packet) : List Byte :=
  natLE 8 0 ++ natLE 2 opcode ++ natLE 2 p.flags ++ natLE 4 p.seq ++ natLE 4 p.params.length ++ natLE 4 0 ++ natLE 6 p.target ++
  natLE 2 0 ++ natLE 4 p.jobTag ++ natLE 4 0 ++ natLE 8 p.rdaddr ++ natLE 4 p.rdlen ++ natLE 4 p.cookie ++ natLE 8 0 ++ p.params

/-! ## Replies (R293, R294, R297) -/

/-- Accepted packets whose final reply is not written yet (R289). -/
def Wafer.inflightTotal (w : Wafer) : Nat :=
  w.cmd.inflight.length + countIf (fun (r : RingItem) => r.fin)
    (w.cmd.portA.outgoing ++ w.cmd.portA.held ++ w.cmd.portB.outgoing ++ w.cmd.portB.held ++ w.cmd.msgs.map (·.2.2))

def Wafer.inflightCount (w : Wafer) : Wafer := w.wr cmdmBase Reg.cmdInflightCount w.inflightTotal

/-- A reply message leaves: a REPLY on the management lane, or a message on MCTP over I3C. -/
def Wafer.sendReply (w : Wafer) (path origin : Nat) (e : Reply) (data : List Byte) : Wafer :=
  if path = 2 then w.mlSend origin 1 (e.bytes 0 ++ data) else w.emit (.message origin e data)

/-- Reply messages that waited for the interpreter leave, oldest first (R306). -/
def Wafer.sendReplies (w : Wafer) : Wafer :=
  let l := w.cmd.msgs
  (l.foldl (fun (w : Wafer) m => w.sendReply m.1 m.2.1 m.2.2.entry m.2.2.data) { w with cmd := { w.cmd with msgs := [] } }).inflightCount

/-- A reply to a packet: on a CXL port it waits to be written to the ring, dropped when the ring is not enabled; over the
management lane or MCTP it is a message with up to 4,032 bytes of data, which waits while pair 0's duties are not served (R306). -/
def Wafer.reply (w : Wafer) (opcode : Nat) (p : Packet) (status kind detail : Nat) (data : List Byte) (fin : Bool := false) : Wafer :=
  if p.path < 2 then
    let want := if p.flags % 2 = 1 then data else []
    let e : Reply := ⟨opcode, status, p.seq, w.tick, kind, decide (p.rdlen < want.length), min want.length p.rdlen, p.cookie, detail⟩
    if w.rd (cmdBase p.path) Reg.cmdRingcfgEn = 0 then w
    else
      let c := w.cmdPort p.path
      w.setCmdPort p.path { c with outgoing := c.outgoing ++ [⟨e, p.rdaddr, want.take p.rdlen, fin⟩] }
  else
    let data' := data.take 4032
    let e : Reply := ⟨opcode, status, p.seq, w.tick, kind, decide (4032 < data.length), data'.length, p.cookie, detail⟩
    if w.dutyUp 0 then w.sendReply p.path p.origin e data'
    else { w with cmd := { w.cmd with msgs := w.cmd.msgs ++ [(p.path, p.origin, ⟨e, 0, data', fin⟩)] } }

/-- Commands that R290 checks by job tag (Tables 12-9 and 12-12). -/
def jobMarked (opcode : Nat) : Bool := opcode ∈ [0x0103, 0x0104, 0x0105, 0x0106]

/-- The first packet in flight with this opcode leaves with its final reply. -/
def Wafer.finish (w : Wafer) (sel : InFlight → Bool) (status detail : Nat) : Wafer :=
  match indexOf? sel w.cmd.inflight with
  | none => w
  | some i =>
    let fl := w.cmd.inflight.getD i default
    let w := w.reply fl.opcode fl.p status 0 detail [] true
    ({ w with cmd := { w.cmd with inflight := dropAt w.cmd.inflight i } } : Wafer).inflightCount

/-- Every packet in flight that the selection names leaves with this status. -/
def Wafer.finishAll (w : Wafer) (sel : InFlight → Bool) (status detail : Nat) : Wafer :=
  let w' := (w.cmd.inflight.filter sel).foldl (fun w fl => w.reply fl.opcode fl.p status 0 detail [] true) w
  ({ w' with cmd := { w'.cmd with inflight := w.cmd.inflight.filter fun x => !sel x } } : Wafer).inflightCount

/-! ## Stopping a job -/

/-- Ports in a link state that the selection names. -/
def Wafer.portsWhere (w : Wafer) (p : Nat → Bool) : List Nat :=
  (List.range 176).filter fun i => p (w.rd (portBase i) Reg.tpLinkstatState)

/-- Clear the current and the staged tag of every port (R223, R369 step 5). -/
def Wafer.clearTags (w : Wafer) (cur staged : Bool) : Wafer :=
  (List.range 176).foldl (fun w i =>
    let w := if cur then w.wr (portBase i) Reg.tpTagCur 0 else w
    if staged then (w.wr (portBase i) Reg.tpTagStaged 0).wr (portBase i) Reg.tpLinkstatStagedv 0 else w) w

/-- What a job's end discards: the next generation, its keys and every pending fetch (R246, R256). -/
def Ingest.stopNext (g : Ingest) : Ingest :=
  { g with
    stopped := true
    sources := g.sources.map fun s =>
      { s with next := none, keyNext := none, kept := none, passedNext := [], keyFetchAt := none
               expects := (s.cur.map (·.gen + 1)).getD s.expects }
    segments := g.segments.filter fun h => g.sources.any fun s => (s.cur.map (·.gen)) == some h.gen
    chunks := []
    fetches := []
    waiting := []
    relay := []
    inputs := []
    trains := g.trains.map fun t => { t with readyFrom := [], readySent := false } }

/-- Trains, chains and collectives stop at once (R256, R281). -/
def Wafer.stopStreams (w : Wafer) : Wafer :=
  let w := w.wr wstBase Reg.wstFlipValid 0
  let w := w.reduce.runs.foldl (fun w r =>
    if r.entry.out < 176 then w.wr (jncBase r.entry.out) Reg.jncStatRunning 0 else w) w
  let w := (w.wr collBase Reg.collStatActive 0).wr collBase Reg.collStatShbuf 0
  let w := w.wr tirmBase Reg.tirFlipValid 0
  -- requests that wait are for the generation that goes (R254)
  let w := w.ingest.waiting.foldl (fun w r => w.sendNakTo r 2) w
  let w := w.rxStop
  ({ w with
    ingest := w.ingest.stopNext
    reservoir := if w.ingest.nextBuf = 0 then { w.reservoir with ready0 := [] } else { w.reservoir with ready1 := [] }
    reduce := { w.reduce with runs := [], shadow := [], run := none, queue := [] } } : Wafer).syncIngest

/-- A survey works on one field at a time in each power region (R363): regions with none at work take their next field. -/
def Wafer.surveyAssign (w : Wafer) : Wafer :=
  let h := w.health
  let next := (List.range 16).filterMap fun r =>
    if h.surveying.any fun f => f / 7 == r then none else h.surveyTodo.find? fun f => f / 7 == r
  { w with health := { h with
    surveying := next.foldl setInsert h.surveying
    surveyTodo := h.surveyTodo.filter fun f => !next.contains f } }

/-- A full survey of some fields becomes due: those that are usable and in no placed, armed or running job (R363). None is
taken while a flood runs. -/
def Wafer.surveyFields (w : Wafer) (fs : List Nat) : Wafer :=
  if w.health.flood.isSome then w else
  let fs := fs.filter fun f => (w.fieldRec f).status % 8 == 0 && w.health.map.current.isSome && !w.fieldHeld f &&
    !w.health.surveying.contains f
  if fs.isEmpty then w
  else
    let w := { w with health := { w.health with
      surveyTodo := fs.foldl setInsert w.health.surveyTodo, surveyPlan := some (w.health.surveyPlan.getD w.plan) } }
    (w.surveyAssign).wr hltBase Reg.hltSurveyRunning 1

/-- The job's end makes a full survey due. -/
def Wafer.surveyDue (w : Wafer) : Wafer := w.surveyFields (List.range 112)

/-- The job state enters STOPPED: TIR_SPLIT and TIR_PENQ are released (R9), the floor ends, a survey becomes due.
(Log 13 DESIGN CHOICE.) -/
def Wafer.enterStopped (w : Wafer) : Wafer :=
  ((w.setPhase .stopped).wr pwrBase Reg.pwrGearFloor 0).surveyDue

/-- A job fault (R369), raised by the module (`remote = none`) or taken from a notice that arrived on a port (R370); `heard` when
the broadcast that tells it is already on the signal canal. (Log 7 DEDUCED, 13 DESIGN CHOICE.) -/
def Wafer.jobFault (w : Wafer) (cls detail : Nat) (remote : Option (Notice × Nat) := none)
    (heard : Bool := false) : Wafer :=
  if w.armedOrRunning then
    let place := w.rd 0 Reg.shpPlacePlace
    let f := detail % 256
    let origin := if f = 0xFF then endpoint place 127 0xFF else endpoint place f (detail / 256 % 256)
    let n : Notice := match remote with
      | some (n, _) => n
      | none => ⟨w.job.tag, cls, w.tick, origin, detail⟩
    -- steps 1 and 2
    let w := if heard then w else w.scnSend (.jobFault w.job.tag cls detail)
    let w := w.jobSites.foldl (fun w s => w.coreHalt s) w
    let w := w.stopStreams
    -- step 3
    let w := w.recordFirst hltBase Reg.hltJobfaultValid
      [(Reg.hltJobfaultCls, cls), (Reg.hltJobfaultRemote, b2n remote.isSome), (Reg.hltJobfaultOrigclass, n.cls),
       (Reg.hltJftickTick, n.tick), (Reg.hltJforiginOrigin, n.origin), (Reg.hltJfdetailDetail, n.detail)]
    let w := w.count hltBase Reg.hltJobfaults
    -- step 4
    let w := (w.portsWhere (· == 6)).foldl (fun w i =>
      if remote.map (·.2) = some i then w else w.queueFrame i 0 3 0 (noticeBytes n)) w
    -- steps 5 and 6
    let w := (w.mgmt ⟨cls, detail⟩).post ⟨cls, detail⟩
    -- R303, R372, Table 12-8
    let w := w.finishAll (fun x => jobMarked x.opcode) 0x0501 cls
    let w := w.tallySelf cls
    let w := { w with job := { w.job with
      faulted := true, tagsDue := some ⟨cls, detail⟩, draining := false
      firstFault := if w.job.firstFault = 0 then cls else w.job.firstFault } }
    let w := (w.wr cmdmBase Reg.cmdArmArmid 0).wr cmdmBase Reg.cmdArmTag 0
    let w := (w.wr hltBase Reg.hltReplaceState 1)
    let w := { w with health := { w.health with proposalTick := n.tick } }
    w.enterStopped
  else if w.job.phase == .stopped && w.job.faulted then w.count hltBase Reg.hltJobfaults
  else w.notify cls detail

/-! ## Raising and lifting fences -/

/-- The FENCED status of a fence (Table 16-3). -/
def fenceDetail (u : FenceUnit) (cls : Nat) : Nat :=
  match u.kind with
  | .site => detailOf u.field u.index 255 (cls / 256)
  | .cluster => detailOf u.field (32 + u.index) 255 (cls / 256)
  | .port => detailOf 0xFF 0xFF (portRunit u.index) (cls / 256)
  | .stackChannel => detailOf 0xFF 0xFF (u.index / 32) (cls / 256)
  | .routerPlane => detailOf u.field (u.index / 2) 255 (cls / 256)
  | .arbiter => if u.index < 208 then detailOf 0xFF 0xFF u.index (cls / 256)
      else if u.index < 560 then detailOf 0xFF 0xFF (portRunit ((u.index - 208) / 2)) (cls / 256)
      else detailOf u.field (32 + (u.index - 1024) / 8) 255 (cls / 256)
  | .field => detailOf u.field 0xFF 255 (cls / 256)

/-- Raise a fence (R23, R368): the unit takes no further data-plane traffic, the fence is broadcast on the signal canal,
reaches Shepherd as a management event, and is posted at step 3 of the next boundary. `cls` is the class of what caused
it; when no other job fault causes it (`own`), the fence of a unit that a running job uses is the job fault FENCED.
(Log 12 DEDUCED.) -/
def Wafer.raiseFence (w : Wafer) (u : FenceUnit) (cls : Nat) (own : Bool) (cmdTick : Option Nat := none)
    (heard : Bool := false) : Wafer :=
  let wasUsed := w.unitInRun u
  let w := { w with
    fences := w.fences.filter (fun (r : FenceRec) => r.unit != u) ++ [(⟨u, w.fenceSerial, cmdTick⟩ : FenceRec)]
    fenceSerial := w.fenceSerial + 1
    raised := w.raised ++ [(u, cls)] }
  let w := if heard then w else w.scnSend (.fence u cls)
  let w := (unitSites u).foldl (fun w s => w.coreFence s) w
  let w := w.syncFenced u
  -- flits held in a router when it is fenced are lost (R168)
  let w := w.loseRouters (unitRouters u)
  let d := fenceDetail u cls
  let w := w.mgmt ⟨0x0B10, d⟩
  let w := w.tallySelf (0x0B10)
  if own && wasUsed then w.jobFault 0x0B10 d else w

/-- Show a plane's rectangle list in RTR_RECT of a field (Table 7-10). -/
def Wafer.showRects (w : Wafer) (f first : Nat) (l : List Rect) : Wafer :=
  (List.range 16).foldl (fun w i =>
    let q := l.getD i ⟨0, 0, 0, 0⟩
    w.wrs (rectBase f (first + i)) [(Reg.rtrRectX0, q.x0), (Reg.rtrRectY0, q.y0), (Reg.rtrRectX1, q.x1), (Reg.rtrRectY1, q.y1),
      (Reg.rtrRectValid, b2n (decide (i < l.length)))]) w

/-- Replace the fenced rectangle lists that every router holds (R168): what the routers held that a rectangle newly fences is lost. -/
def Wafer.setRects (w : Wafer) (a b : List Rect) : Wafer :=
  if w.canal.rectsA = a ∧ w.canal.rectsB = b then w
  else
    let old := w.canal.rectsA ++ w.canal.rectsB ++ a ++ b
    let open' := (List.range 4480).filter fun r =>
      (if r % 2 = 0 then a else b).any (fun q => rectHas q (siteX (r / 2)) (siteY (r / 2))) && !w.routerFenced r
    let w := ({ w with canal := { w.canal with rectsA := a, rectsB := b } } : Wafer).loseRouters open'
    let w := (List.range 112).foldl (fun w f => (w.showRects f 0 a).showRects f 16 b) w
    (List.range 2240).foldl (fun w s => if old.any fun q => rectHas q (siteX s) (siteY s) then
      [2 * s, 2 * s + 1].foldl (fun w r => w.wr (rtrBase r) Reg.rtrStatFenced (b2n (w.routerFenced r))) w else w) w

/-- Lift the fences of the units that p names; a fenced rectangle in which no fence stands goes with them. (Log 12 DEDUCED.) -/
def Wafer.liftFences (w : Wafer) (p : FenceUnit → Bool) : Wafer :=
  let gone := (w.fences.filter fun r => p r.unit).map (·.unit)
  let w := { w with fences := w.fences.filter fun r => !p r.unit }
  let stands := fun (plane : Nat) (q : Rect) => w.fences.any fun r => (unitRouters r.unit).any fun k =>
    k % 2 == plane && rectHas q (siteX (k / 2)) (siteY (k / 2))
  let w := w.setRects (w.canal.rectsA.filter (stands 0)) (w.canal.rectsB.filter (stands 1))
  gone.foldl (fun w u => w.syncFenced u) w

/-! ## Faults of a core (R130) -/

/-- A core fault: the code and the pc in SEQ_FAULT, the core stopped, a job fault. (Log 7 DEDUCED.) -/
def Wafer.coreFault (w : Wafer) (s code pc : Nat) : Wafer :=
  let w := w.recordFirst (siteBase s) Reg.seqFaultValid [(Reg.seqFaultCode, code), (Reg.seqFaultPc, pc)]
  ((w.coreStop s)).jobFault (0x0300 + code) (detailSite s)

/-- An engine parameter fault (R79): MAT_FAULT, the core stopped at the instruction, a job fault. (Log 7 DEDUCED.) -/
def Wafer.engineFault (w : Wafer) (e code desc row bank : Nat) : Wafer :=
  let w := w.recordFirst (matBase (e / 2) (e % 2)) Reg.matFaultValid
    [(Reg.matFaultCode, code), (Reg.matFaultDesc, desc), (Reg.matFaultRow, row), (Reg.matFaultBank, bank)]
  w.jobFault (0x0200 + code) (detailOf (e / 2 / 20) (e / 2 % 20) 255 (e % 2))

end Sys2Proof.Machine
end

