-- ==== Sys2Proof/Machine/LinkOps.lean ====
section
/-!
DEFINITION. Sys2Proof/Machine/LinkOps.lean: what the meanings share about Towpath ports: plans (R229), light (R207),
bring-up (R216), sessions (R219), sending (R212 to R214), and links going down (R232).
-/

namespace Sys2Proof.Machine

/-- An area port. -/
def fullLanes (i : Nat) : Nat := if isArea i then 16 else 8

def Wafer.setLink (w : Wafer) (i st : Nat) : Wafer := w.wr (portBase i) Reg.tpLinkstatState st
/-- Show VLEN for the plan in effect. -/
def Wafer.syncVlen (w : Wafer) (i : Nat) : Wafer :=
  w.wr (portBase i) Reg.tpLinkctlVlen (planLanes (portPlan w i) i (peerKind w i))

/-- The link layer delivers VL0 or VL1 frames that arrive on a port (R221, R223, R224, R229): those of a job whose tag the port
holds. (Log 34 DEDUCED.) -/
def laneOpen (w : Wafer) (i vl : Nat) : Bool :=
  linkState w i == 6 && portCarries w i vl && !w.portFenced i &&
  (w.rd (portBase i) Reg.tpTagCur != 0 || w.rd (portBase i) Reg.tpLinkstatStagedv == 1)

def portRec (w : Wafer) (i : Nat) : PortRec := mapGet (fun _ => {}) w.map.ports i

/-- The module's fields and ports have power: powering its fields or running, no ordered shutdown held. -/
def Wafer.powered (w : Wafer) : Bool :=
  (w.rd pwrBase Reg.pwrStatState == 1 || w.rd pwrBase Reg.pwrStatState == 2) && !w.power.shutdown

/-- Whether a port is lit (R17, R207, R229), and the DOWNCAUSE when it is not. -/
def portDarkCause (w : Wafer) (i : Nat) : Option Nat :=
  if !w.powered then some 10
  else if (portRec w i).status ≥ 3 || linkState w i == 7 then some 6
  else if planLanes (portPlan w i) i 1 = 0 || w.rd (portBase i) Reg.tpLinkctlHold == 1 then some 7
  else if isArea i && (decide (2 ≤ w.fieldState (i - 64)) || (w.fieldRec (i - 64)).status % 8 != 0) then some 10
  else none

/-- Retired lanes decide the width: none full, else the half without a retired lane; `none` when both halves hold one. -/
def widthFor (i retired : Nat) : Option (Nat × Nat × Nat) :=
  let n := fullLanes i
  let lower := retired % 2 ^ (n / 2)
  let upper := bits retired (n / 2) (n / 2)
  if lower = 0 ∧ upper = 0 then some (n, 0, 2 ^ n - 1)
  else if lower = 0 then some (n / 2, 0, 2 ^ (n / 2) - 1)
  else if upper = 0 then some (n / 2, 1, (2 ^ (n / 2) - 1) * 2 ^ (n / 2))
  else none

/-- Credits a sender starts with (R212). -/
def fullCredits (i : Nat) : List Nat := if isArea i then [3072, 4096, 512, 512] else [1536, 2048, 256, 256]

/-- Tear the session down: keys and frame counts go. -/
def Port.endSession (p : Port) : Port :=
  { p with secret := none, setup := false, txF := [0, 0, 0, 0], rxF := [0, 0, 0, 0], txTotal := 0, txIdx := 0, rxIdx := 0
           rxLane := [0, 0, 0, 0], oldKey := false, hbSeen := false, hbTick := false, hbMissed := 0
           exch := { identOut := p.exch.identOut, identIn := p.exch.identIn } }

/-- The hop starts afresh: numbering, credits and buffers. -/
def Port.restartHop (p : Port) (i : Nat) : Port :=
  { p with credits := fullCredits i, owed := [0, 0, 0, 0], nextSeq := 0, expectSeq := 0, nakked := false, unacked := 0
           replay := [], resends := 0, egress := [], rx := [], widthTo := none }

/-! ## Identity (R217, R307, R308) -/

/-- Time for certificate validity (R307): the wall clock, or the manufacture date while it is unset. -/
def Wafer.chainTime (w : Wafer) : Nat := if w.time.wallSet then w.wall else Config.madeAt

/-- An identity (R307): both chains verify, each at its root, and both leaves name the same subject. -/
def chainsOk (ed ml : List Byte) (edRoot mlRoot ext time : Nat) : Bool :=
  Config.chainOk ed edRoot ext time && Config.chainOk ml mlRoot ext time && Config.chainSubject ed edRoot == Config.chainSubject ml mlRoot

def Wafer.roots (w : Wafer) : List RootPair := w.shp.roots.value.getD []

/-- A root pair's name: the hash of its two public keys. -/
def RootPair.hash (r : RootPair) : Nat := sha3 (r.ed ++ r.ml)

/-- The roots at which a partner's chains verify: a module's at the Umastad roots; a weight server's, with its extension, and another
device's at a root pair that may anchor link partners (R217, R308). -/
def Wafer.peerAnchor (w : Wafer) (i kind : Nat) : Option (Nat × Nat) :=
  let p := w.port i
  if kind = 1 then
    if chainsOk p.peerEd p.peerMl Config.edRootHash Config.mlRootHash 0 w.chainTime then some (Config.edRootHash, Config.mlRootHash) else none
  else (w.roots.find? fun r => r.peer && chainsOk p.peerEd p.peerMl (sha3 r.ed) (sha3 r.ml) (if kind = 2 then 3 else 0) w.chainTime).map
    fun r => (sha3 r.ed, sha3 r.ml)

/-- The payload of IDENT frames: the peer record, its last three fields laid out as TPx_PEERID, and both chains, each after its length.
(Log 33 DEDUCED.) -/
def identPayload (r : PeerRec) (ed ml : List Byte) : List Byte :=
  natLE 32 r.hash ++ natLE 8 (r.place % 2 ^ 25 + 2 ^ 25 * (r.port % 2 ^ 8) + 2 ^ 33 * (r.kind % 2 ^ 3)) ++ natLE 4 ed.length ++ ed ++
  natLE 4 ml.length ++ ml

/-- The module's own peer record on a port (R221). -/
def Wafer.ownRecord (w : Wafer) (i : Nat) : PeerRec := ⟨Config.certHash, w.rd 0 Reg.shpPlacePlace, i, 1⟩

/-- Queue the frames of an IDENT or a KEYX message. -/
def Wafer.sendSetup (w : Wafer) (i ftype : Nat) (body : List Byte) : Wafer :=
  (payloadFrames body).foldl (fun w l => w.queueFrame i 8 3 ftype l) w

/-! ## The key exchange (R217) -/

/-- This end is the initiator: its place address is lower, or the same and its port index lower. -/
def Wafer.isInitiator (w : Wafer) (i : Nat) : Bool :=
  let a := w.rd 0 Reg.shpPlacePlace
  let b := w.rd (portBase i) Reg.tpPeeridPlace
  decide (a < b ∨ (a = b ∧ i < w.rd (portBase i) Reg.tpPeeridPort))

def Wafer.updExchange (w : Wafer) (i : Nat) (f : Exchange → Exchange) : Wafer := w.updPort i fun p => { p with exch := f p.exch }

/-- The hash of the transcript: the IDENT payloads, the initiator's first, and the KEYX payloads before the signatures.
(Log 33 DEDUCED.) -/
def Exchange.hash (x : Exchange) : Nat :=
  sha3 ((if x.initiator then x.identOut ++ x.identIn else x.identIn ++ x.identOut) ++ x.keyx)

/-- Both secrets are shared: this end signs the transcript with its two identity keys. -/
def Wafer.keyxSign (w : Wafer) (i : Nat) : Wafer :=
  let h := (w.port i).exch.hash
  w.sendSetup i 8 (Config.edSign h ++ Config.mlSign h)

/-- The responder takes the initiator's keys and answers. -/
def Wafer.keyxAnswer (w : Wafer) (i : Nat) (x kem : List Byte) : Wafer :=
  let n := (w.port i).exch.id
  let answer := Config.x25519Pub n ++ Config.kemEncaps n kem
  let w := w.updExchange i fun e => { e with keyx := x ++ kem ++ answer, shared := some (Config.x25519 n x ++ Config.kemShared n kem) }
  (w.sendSetup i 8 answer).keyxSign i

/-- The exchange begins: the initiator sends its keys; a responder takes an offer that came before. -/
def Wafer.keyxStart (w : Wafer) (i : Nat) : Wafer :=
  let first := w.isInitiator i
  let n := w.free
  let w := ({ w with free := n + 1 } : Wafer).updExchange i fun e => { e with initiator := first, id := n }
  if first then
    let offer := Config.x25519Pub n ++ Config.kemKey n
    (w.updExchange i fun e => { e with keyx := offer }).sendSetup i 8 offer
  else match (w.port i).exch.early with
    | .offer x kem :: _ => w.keyxAnswer i x kem
    | _ => w

/-- Session setups in progress. -/
def Wafer.setups (w : Wafer) : Nat := countIf (fun e => e.2.setup) w.ports

/-- Give a free place among the 16 setups to the first port that waits for one (R216), and begin its exchange. -/
def Wafer.admitSetup (w : Wafer) : Wafer :=
  if w.setups < 16 then
    match (List.range 176).find? fun i => linkState w i == 4 && !(w.port i).setup with
    | none => w
    | some i => ((w.updPort i fun p => { p with setup := true }).count (portBase i) Reg.tpSetups).keyxStart i
  else w

/-- Enter IDENT: the peer record and both chains are sent (Table 9-8). -/
def Wafer.enterIdent (w : Wafer) (i : Nat) : Wafer :=
  let body := identPayload (w.ownRecord i) Config.edChain Config.mlChain
  let w := w.updPort i fun p =>
    { p.endSession with exch := { identOut := body, identIn := p.exch.identIn }, egress := p.egress.filter fun f => f.ftype != 7 && f.ftype != 8 }
  (w.setLink i 2).sendSetup i 7 body

/-- Switch a port's transmitters off. -/
def Wafer.darken (w : Wafer) (i cause : Nat) : Wafer :=
  let w := w.updPort i fun p => (p.endSession).restartHop i
  let w := w.wrs (portBase i) [(Reg.tpLinkstatState, if cause = 6 then 7 else 0), (Reg.tpLinkstatLanes, 0),
    (Reg.tpLinkstatLaneok, 0), (Reg.tpLinkstatDowncause, cause), (Reg.tpPeeridValid, 0)]
  w.rxSettle.admitSetup

/-- Bring-up starts at step 1. -/
def Wafer.train (w : Wafer) (i : Nat) : Wafer :=
  ((w.updPort i fun p => (p.endSession).restartHop i).setLink i 1).rxSettle

/-- A link goes down (R232): a link that a running job uses is fenced and the job faults with `cls`; otherwise a
management event. It returns to step 1 (`back = 1`) or step 2. -/
def Wafer.linkDown (w : Wafer) (i cause cls back : Nat) : Wafer :=
  let used := w.portInRun i
  let w := if back = 1 then w.updPort i fun p => (p.endSession).restartHop i
    else (w.updPort i fun p => { p.endSession with egress := [] }).rxDrop i fun _ => true
  let w := w.wrs (portBase i) [(Reg.tpLinkstatState, back), (Reg.tpLinkstatDowncause, cause), (Reg.tpPeeridValid, 0)]
  let w := (if back = 2 then w.enterIdent i else w).rxSettle.admitSetup
  let d := detailRunit (portRunit i)
  if used then (w.raiseFence (fPort i) cls false).jobFault cls d
  else w.mgmt ⟨cls, d⟩

/-- Bring a port's light in line with its plan, its HOLD bit, its retirement and its power. -/
def Wafer.relight (w : Wafer) (i : Nat) : Wafer :=
  let w := w.syncVlen i
  match portDarkCause w i with
  | some c => if linkState w i = 0 ∨ linkState w i = 7 then w
      else if w.portInRun i then
        ((w.raiseFence (fPort i) 0x0701 false).jobFault 0x0701 (detailRunit (portRunit i))).darken i c
      else w.darken i c
  | none => if linkState w i = 0 then w.train i else w

def Wafer.relightAll (w : Wafer) : Wafer := (List.range 176).foldl (fun w i => w.relight i) w

/-! ## Sending -/

/-- Drop queued frames of the lanes named. -/
def Wafer.dropQueued (w : Wafer) (i : Nat) (lane : Nat → Bool) : Wafer :=
  ((w.updPort i fun p => { p with egress := p.egress.filter fun f => !lane f.vl }).syncPend i).rxSettle

/-- Drop queued VL0 and VL1 frames at every port (ABORT, R299). -/
def Wafer.dropJobFrames (w : Wafer) : Wafer :=
  (List.range 176).foldl (fun w i => if (w.port i).egress.isEmpty then w else w.dropQueued i (fun v => decide (v < 2))) w

/-- Every VL0 and VL1 queue is empty. (Log 48 DESIGN CHOICE.) -/
def Wafer.queuesEmpty (w : Wafer) : Bool :=
  w.ports.all fun e => e.2.egress.all fun f => decide (2 ≤ f.vl)

/-- Resend from the replay buffer: the entries from position k on, unchanged (R214). After 16 consecutive resends without
ACK progress the hop goes down. -/
def Wafer.resendFrom (w : Wafer) (i k : Nat) : Wafer :=
  let p := w.port i
  if 16 ≤ p.resends then w.linkDown i 3 0x0701 1
  else
    let l := p.replay.drop k
    let w := w.updPort i fun p => { p with resends := p.resends + 1 }
    (l.foldl (fun w f => w.emit (.frame i f.requester f.wire)) w).count (portBase i) Reg.tpReplays l.length

/-! ## Peers -/

/-- The stored peer record matches the expected entry (R221); kind always must match. -/
def peerMatches (w : Wafer) (i : Nat) : Bool :=
  let b := portBase i
  let any := w.rd b Reg.tpExpidAny
  (bit any 0 || (w.rd b Reg.tpPeerhash0Hash == w.rd b Reg.tpExphash0Hash && w.rd b Reg.tpPeerhash1Hash == w.rd b Reg.tpExphash1Hash &&
    w.rd b Reg.tpPeerhash2Hash == w.rd b Reg.tpExphash2Hash && w.rd b Reg.tpPeerhash3Hash == w.rd b Reg.tpExphash3Hash)) &&
  (bit any 1 || w.rd b Reg.tpPeeridPlace == w.rd b Reg.tpExpidPlace) &&
  (bit any 2 || w.rd b Reg.tpPeeridPort == w.rd b Reg.tpExpidPort) &&
  w.rd b Reg.tpPeeridKind == w.rd b Reg.tpExpidKind

def expectHeld (w : Wafer) (i : Nat) : Bool := w.rd (portBase i) Reg.tpExpidValid == 1

/-- A job that is armed or running uses the link: the port holds its tag. -/
def Wafer.portInJob (w : Wafer) (i : Nat) : Bool :=
  w.armedOrRunning && (w.rd (portBase i) Reg.tpTagCur != 0 || w.rd (portBase i) Reg.tpTagStaged != 0)

/-- Quarantine a port (R221): no session; PEER_MISMATCH is an event and a status, and a job fault if a job uses the link. -/
def Wafer.quarantine (w : Wafer) (i cause : Nat) : Wafer :=
  let used := w.portInJob i
  let d := detailRunit (portRunit i)
  let w := ((w.updPort i fun p => { p.endSession with egress := p.egress.filter fun f => f.ftype == 7 }).rxDrop i fun _ => true).rxSettle
  let w := w.wrs (portBase i) [(Reg.tpLinkstatState, 3), (Reg.tpLinkstatDowncause, cause)]
  let w := w.admitSetup
  if cause = 9 then (if used then w.jobFault 0x0704 d else w.notify 0x0704 d)
  else if used then w.jobFault 0x0703 d else w.mgmt ⟨0x0703, d⟩

/-- Check the partner's chains and compare its record (R217, R221): quarantine, or on to the key exchange. -/
def Wafer.identCheck (w : Wafer) (i : Nat) : Wafer :=
  match w.peerAnchor i (peerKind w i) with
  | none => w.quarantine i 8
  | some a =>
    let w := w.updPort i fun p => { p with anchor := some a }
    if expectHeld w i && !peerMatches w i then w.quarantine i 9
    else (w.setLink i 4).admitSetup

/-- A quarantined port tries again (R221): it sends IDENT anew, and compares the record it holds. (Log 33 DEDUCED.) -/
def Wafer.retryIdent (w : Wafer) (i : Nat) : Wafer :=
  let w := w.enterIdent i
  if w.rd (portBase i) Reg.tpPeeridValid = 1 then w.identCheck i else w

/-- A new expected entry takes effect on a port (R222). -/
def Wafer.expectApplied (w : Wafer) (i : Nat) : Wafer :=
  match linkState w i with
  | 3 => w.retryIdent i
  | 6 =>
    if !expectHeld w i then
      let used := w.portInJob i
      let w := (w.setLink i 5).dropQueued i (fun v => decide (v < 2))
      if used then w.jobFault 0x0704 (detailRunit (portRunit i)) else w
    else if peerMatches w i then w else w.quarantine i 9
  | 5 => if !expectHeld w i then w else if peerMatches w i then w.setLink i 6 else w.quarantine i 9
  | _ => w

end Sys2Proof.Machine
end

