-- ==== Sys2Proof/Machine/Classify.lean ====
section
/-!
DEFINITION. Sys2Proof/Machine/Classify.lean: the wafer map's changes in service (R356, R359), Shepherd's lockstep pairs
(R305, R306), error classification (R366) and the retirement ladders (R367, Table 16-1).
-/

namespace Sys2Proof.Machine

/-! ## The wafer map -/

/-- Fields that count as usable (R360). -/
def WaferMap.usable (m : WaferMap) : Nat :=
  countIf (fun f => (mapGet (fun _ => ({} : FieldRec)) m.fields f).status % 8 == 0 && !bit m.regions (f / 7)) (List.range 112)

/-- Show the committed map in HLT_MAP. -/
def Wafer.syncMap (w : Wafer) : Wafer :=
  w.wrs hltBase [(Reg.hltMapSeq, w.health.map.seq), (Reg.hltMapUsable, w.map.usable), (Reg.hltMapActive, 16 * w.map.usable),
    (Reg.hltMapValid, b2n w.health.map.current.isSome)]

/-- A persistent record can be committed now: pair 3's duties are served, and the tally has room (R304, R317). -/
def Wafer.canCommit (w : Wafer) : Bool := w.dutyUp 3 && !w.tallyFull

/-- Commit a new copy of the wafer map (R359, R376), recorded in the tally; the map is in effect at once, and its commit waits until
it can be made (R317). -/
def Wafer.commitMap (w : Wafer) (m : WaferMap) : Wafer :=
  let m := { m with seq := (w.health.map.current.map (fun x => x.1 + 1)).getD 0, tick := w.tick, wall := w.wall }
  if w.canCommit then
    let w := w.tallySelf 5
    ({ w with health := { w.health with map := w.health.map.commit m, mapDue := none } } : Wafer).syncMap
  else { w with health := { w.health with mapDue := some m } }

/-- Change the record of one field and commit. -/
def Wafer.updField (w : Wafer) (f : Nat) (g : FieldRec → FieldRec) : Wafer :=
  w.commitMap { w.map with fields := mapUpd (fun _ => {}) w.map.fields f g }

/-- Commit a new margin plan (R362), as the map is. -/
def Wafer.commitPlan (w : Wafer) (p : MarginPlan) : Wafer :=
  let p := { p with wall := w.wall }
  if w.canCommit then
    let w := w.tallySelf 6
    { w with health := { w.health with plan := w.health.plan.commit p, planDue := none } }
  else { w with health := { w.health with planDue := some p } }

/-- Commits that waited are made as soon as they can be. -/
def Wafer.commitDue (w : Wafer) : Wafer :=
  let w := match w.health.mapDue with
    | some m => if w.canCommit then w.commitMap m else w
    | none => w
  match w.health.planDue with
  | some p => if w.canCommit then w.commitPlan p else w
  | none => w

/-- A field becomes unusable with a status and a cause (R352); it keeps an earlier one. -/
def Wafer.unusable (w : Wafer) (f status cause : Nat) : Wafer :=
  if (w.fieldRec f).status % 8 = 0 then w.updField f fun r => { r with status := r.status - r.status % 8 + status, cause := cause, retired := true }
  else w

/-! ## Spare mapping (R14) -/

/-- CLU_COREMAP for the sites that do not work (five bits): logical cores take the working sites in increasing order;
the fifth site is the spare. -/
def coremapFor (fail : Nat) : Nat :=
  let good := (List.range 5).filter fun i => !bit fail i
  if good.length < 4 then 2 ^ 16
  else
    let lc := good.take 4
    let spare := if good.length = 5 then 4 else ((List.range 5).find? fun i => bit fail i).getD 4
    lc.getD 0 0 + lc.getD 1 0 * 8 + lc.getD 2 0 * 64 + lc.getD 3 0 * 512 + spare * 4096 + (if good.length = 5 then 2 ^ 15 else 0)

/-- Set CLU_COREMAP of a cluster from a 17-bit image. -/
def Wafer.setCoremap (w : Wafer) (cl x : Nat) : Wafer :=
  w.wrs (coremapBase cl) [(Reg.cluCoremapLc0, bits x 0 3), (Reg.cluCoremapLc1, bits x 3 3), (Reg.cluCoremapLc2, bits x 6 3),
    (Reg.cluCoremapLc3, bits x 9 3), (Reg.cluCoremapSpare, bits x 12 3), (Reg.cluCoremapSparegood, bits x 15 1),
    (Reg.cluCoremapRetired, bits x 16 1)]

/-- The physical site of a logical core (R14). -/
def Wafer.siteOf (w : Wafer) (field cluster core : Nat) : Nat :=
  let cl := field * 4 + cluster
  let s := match core with
    | 0 => w.rd (coremapBase cl) Reg.cluCoremapLc0
    | 1 => w.rd (coremapBase cl) Reg.cluCoremapLc1
    | 2 => w.rd (coremapBase cl) Reg.cluCoremapLc2
    | _ => w.rd (coremapBase cl) Reg.cluCoremapLc3
  field * 20 + cluster * 5 + s

/-- The site holds an active logical core (R149). -/
def Wafer.siteActive (w : Wafer) (s : Nat) : Bool :=
  w.rd (coremapBase (siteCluster s)) Reg.cluCoremapRetired == 0 &&
  (List.range 4).any fun k => w.siteOf (s / 20) (s % 20 / 5) k == s

/-! ## Lockstep pairs (R305, R306) -/

/-- Work of a pair's duty, which pauses while that duty is not served (R304, R306). -/
def Wafer.asDuty (w : Wafer) (p : Nat) (f : Wafer → Wafer) : Wafer := if w.dutyUp p then f w else w

/-- Every pair carries a pair's duties at reduced speed once one is retired. -/
def Wafer.reducedScan (w : Wafer) : Bool := (w.pair 0).retired

/-- Commands accepted and not yet applied when pair 0 goes down: 0x0503, no effect (R306). -/
def Wafer.dropAccepted (w : Wafer) : Wafer := w.finishAll (fun x => !x.working) 0x0503 0

/-- A pair restarts: recorded in the tally and counted; its third restart within an hour retires it. While pair 2's duties are not
served, the cap loop keeps the last cap (R306). (Log 60 PRESUMED.) -/
def Wafer.pairRestart (w : Wafer) (p : Nat) : Wafer :=
  let x := w.pair p
  if x.retired || !x.up then w
  else
    let hour := 4500000000000
    let now := w.countNow
    let recent := now :: (x.restarts.filter fun t => decide ((now + 2 ^ 64 - t) % 2 ^ 64 < hour))
    let w := w.tallySelf (0x1000 + p)
    let w := w.countIn 0 Reg.shpStatRestarts Reg.shpStatRstovf 1
    let gone := decide (3 ≤ recent.length)
    let interp := decide (w.carrier 0 = some p)
    let w := w.setPair p { up := false, retired := gone, restarts := recent.take 3 }
    let w := w.wrs 0 [(Reg.shpStatPairup, maskOf 4 fun i => (w.pair i).up), (Reg.shpStatRetired, maskOf 4 fun i => (w.pair i).retired)]
    let w := if interp then w.dropAccepted else w
    if w.dutyUp 2 || w.power.capKept.isSome then w
    else { w with power := { w.power with capKept := some (w.rd pwrBase Reg.pwrCapCap) } }

/-! ## Retirement steps (R367) -/

/-- A retirement is counted, recorded in the tally and posted as RETIRED. -/
def Wafer.retireStep (w : Wafer) (detail : Nat) (unit : Bool) : Wafer :=
  let w := (w.tallySelf 0x0B11).count hltBase Reg.hltRetires
  if unit then w.notify 0x0B11 detail else w

/-- A cluster is retired: fenced, its field unusable (R129, R15). -/
def Wafer.retireCluster (w : Wafer) (cl cause : Nat) : Wafer :=
  let w := w.raiseFence (fCluster cl) 0x0B11 true
  let w := (w.retireStep (detailCluster cl) true).unusable (cl / 4) 1 cause
  let w := w.updField (cl / 4) fun r => { r with coremap := listSet r.coremap (cl % 4) (2 ^ 16) }
  w.setCoremap cl (2 ^ 16)

/-- Remap a cluster around the sites that do not work; a cluster with no working spare is retired (R129). -/
def Wafer.remapCluster (w : Wafer) (cl : Nat) : Wafer :=
  let fail := bits (w.fieldRec (cl / 4)).siteFail (5 * (cl % 4)) 5
  let m := coremapFor fail
  let w := { w with health := { w.health with
    retireSites := w.health.retireSites.filter fun s => siteCluster s != cl } }
  if m = 2 ^ 16 then w.retireCluster cl 7
  else
    let w := w.tallySelf (0x2000 + cl)
    let w := w.updField (cl / 4) fun r => { r with coremap := listSet r.coremap (cl % 4) m }
    w.setCoremap cl m

/-- A core site is retired: marked failed in the wafer map at once; the remap waits until the job that holds the cluster
has stopped (R129). -/
def Wafer.retireSite (w : Wafer) (s : Nat) : Wafer :=
  let w := w.updField (s / 20) fun r => { r with
    siteFail := if bit r.siteFail (s % 20) then r.siteFail else r.siteFail + 2 ^ (s % 20)
    siteRet := if bit r.siteRet (s % 20) then r.siteRet else r.siteRet + 2 ^ (s % 20) }
  let w := w.retireStep (detailSite s) true
  let w := { w with health := { w.health with retireSites := setInsert w.health.retireSites s } }
  w

/-- What waits for the job that holds a cluster to stop (R129, Table 16-1): sites to be marked, the cluster's own retirement, its
remap. -/
def Wafer.clusterDue (w : Wafer) (cl : Nat) : Wafer :=
  let h := w.health
  let mine := fun s => siteCluster s == cl
  let w := { w with health := { h with
    markSites := h.markSites.filter fun s => !mine s, retireClusters := h.retireClusters.filter fun c => c != cl } }
  let w := (h.markSites.filter mine).foldl (fun w s => w.retireSite s) w
  if h.retireClusters.contains cl then w.retireCluster cl 5
  else if w.health.retireSites.any mine then w.remapCluster cl else w

/-- Clusters with something that waits. -/
def HealthSt.clustersDue (h : HealthSt) : List Nat :=
  (List.range 448).filter fun cl => h.retireClusters.contains cl || (h.retireSites ++ h.markSites).any fun s => siteCluster s == cl

/-- Every remap that waits takes effect once no job is armed or running: at the latest before a PLACE (R129). -/
def Wafer.remapsDone (w : Wafer) : Wafer :=
  if w.armedOrRunning then w else w.health.clustersDue.foldl (fun w cl => w.clusterDue cl) w

/-- A Towpath lane is retired (R215): the port changes to the half without a retired lane, or the link is retired. -/
def Wafer.retireLane (w : Wafer) (i k : Nat) : Wafer :=
  let b := portBase i
  let old := w.rd b Reg.tpLinkstatRetired
  if bit old k then w
  else
    let mask := old + 2 ^ k
    let w := w.wr b Reg.tpLinkstatRetired mask
    match widthFor i mask with
    | some (_, h, _) =>
      let w := w.commitMap { w.map with ports := mapUpd (fun _ => {}) w.map.ports i fun r => { r with retired := mask, status := 1 + h } }
      let w := w.retireStep (detailOf 0xFF 0xFF (portRunit i) k) false
      w.updPort i fun p => { p with widthTo := some h }
    | none =>
      let w := w.commitMap { w.map with ports := mapUpd (fun _ => {}) w.map.ports i fun r => { r with retired := mask, status := 3 } }
      let w := w.retireStep (detailRunit (portRunit i)) true
      let used := w.portInRun i
      let d := detailRunit (portRunit i)
      let w := if used then w.raiseFence (fPort i) 0x0701 false else w
      let w := w.darken i 6
      if used then w.jobFault 0x0701 d else w

/-- A stack row is retired (R204): one of the channel's 64 spare rows; at the 64th the channel is marked; a further one in
a marked channel fences the channel. -/
def Wafer.retireStackRow (w : Wafer) (stk ch : Nat) : Wafer :=
  let st := w.stack stk
  if st.marked.contains ch then
    if w.fenced (fChannel stk ch) then w
    else (w.raiseFence (fChannel stk ch) 0x0B11 true).retireStep (detailRunit stk) true
  else
    let fs := [[Reg.stkRowret0Ret0, Reg.stkRowret0Ret1, Reg.stkRowret0Ret2, Reg.stkRowret0Ret3, Reg.stkRowret0Ret4, Reg.stkRowret0Ret5,
        Reg.stkRowret0Ret6, Reg.stkRowret0Ret7],
      [Reg.stkRowret1Ret0, Reg.stkRowret1Ret1, Reg.stkRowret1Ret2, Reg.stkRowret1Ret3, Reg.stkRowret1Ret4, Reg.stkRowret1Ret5,
        Reg.stkRowret1Ret6, Reg.stkRowret1Ret7],
      [Reg.stkRowret2Ret0, Reg.stkRowret2Ret1, Reg.stkRowret2Ret2, Reg.stkRowret2Ret3, Reg.stkRowret2Ret4, Reg.stkRowret2Ret5,
        Reg.stkRowret2Ret6, Reg.stkRowret2Ret7],
      [Reg.stkRowret3Ret0, Reg.stkRowret3Ret1, Reg.stkRowret3Ret2, Reg.stkRowret3Ret3, Reg.stkRowret3Ret4, Reg.stkRowret3Ret5,
        Reg.stkRowret3Ret6, Reg.stkRowret3Ret7]]
    let f := (fs.getD (ch / 8) []).getD (ch % 8) Reg.stkRowret0Ret0
    let n := w.rd (stkBase stk) f + 1
    let w := w.wr (stkBase stk) f n
    let w := if n < 64 then w else w.setStack stk { st with marked := setInsert st.marked ch }
    let w := w.commitMap { w.map with stackRecs := mapUpd (fun _ => {}) w.map.stackRecs stk fun r =>
      { r with rows := r.rows + 1, marked := if n < 64 || bit r.marked ch then r.marked else r.marked + 2 ^ ch } }
    w.retireStep (detailRunit stk) false

/-- Spare rows of a bank: kind, unit and bank give the pool; its size is Table 16-1's. -/
def sparePool (l : ErrLoc) : Nat :=
  let bank := match l.kind with
    | 1 => l.index / 8192
    | 2 => l.index / 2 ^ 17
    | 3 => l.index / 1024
    | _ => l.index / 2 ^ 12
  ((l.kind * 128 + l.field % 128) * 256 + l.unit % 256) * 1024 + bank % 1024

def spareSize (kind : Nat) : Nat :=
  match kind with
  | 2 => 32 | 3 => 4 | _ => 16

/-- Take a spare row if one remains. -/
def Wafer.takeSpare (w : Wafer) (l : ErrLoc) : Option Wafer :=
  let k := sparePool l
  let n := mapGet (fun _ => 0) w.health.spares k
  if n < spareSize l.kind then
    some { w with health := { w.health with
      spares := mapSet (fun _ => 0) w.health.spares k (n + 1)
      rowsDue := if l.kind = 9 then w.health.rowsDue else w.health.rowsDue ++ [l]
      perms := w.health.perms ++ [(l, 1)] } }
  else none

/-- An event the spec calls a management event and gives no code. (Log 5 DESIGN CHOICE.) -/
def Wafer.mgmtOpen (w : Wafer) (detail : Nat) : Wafer :=
  let (c, w) := w.fresh
  w.mgmt ⟨c % 2 ^ 16, detail⟩

/-- A neighbour that carries a reference or a wave: reached, and not dark. -/
def Wafer.runs (w : Wafer) (f : Nat) : Bool := decide (w.fieldState f < 2)

/-- A field's reference moves on: from the primary to the alternate while that runs on its own primary, else to the rim line
(R28, R353). -/
def Wafer.rerootRef (w : Wafer) (f : Nat) : Wafer :=
  let t := w.fieldTime f
  if t.refSource = 2 then w
  else
    let usable := match fieldNeighbour f (w.fieldRec f).refAlt with
      | some g => w.runs g && (w.fieldTime g).refSource == 0
      | none => false
    (w.setFieldTime f { t with refSource := if t.refSource = 0 ∧ usable = true then 1 else 2 }).mgmtOpen (detailField f)

/-- A field takes its wave from its alternate, while that runs on its own primary, with the latency correction of that path
(R39, R353). -/
def Wafer.rerootWave (w : Wafer) (f : Nat) : Wafer :=
  match fieldNeighbour f (w.fieldRec f).waveAlt with
  | some g =>
    if w.runs g && (w.fieldTime g).waveParent == 0 then
      (w.setFieldTime f { w.fieldTime f with waveParent := 1, corr := w.waveCorr f 1 }).mgmtOpen (detailField f)
    else w
  | none => w

/-- The link that a path code names at a field: the rim's is to the south. -/
def pathLink (code : Nat) : Nat := if code = 0 then 3 else code

/-- One end of a failed signal canal link: its record, and the wave and reference that came over it re-root (R28, R39). A field whose
links have all failed is unusable. -/
def Wafer.cutLink (w : Wafer) (f code : Nat) : Wafer :=
  let w := w.updField f fun r => { r with links := if bit r.links (3 + code) then r.links - 2 ^ (3 + code) else r.links }
  let r := w.fieldRec f
  let w := if (w.fieldTime f).waveParent = 0 ∧ pathLink r.wave = code then w.rerootWave f else w
  let w := if (w.fieldTime f).refSource = 0 ∧ pathLink r.ref = code then w.rerootRef f else w
  if bits r.links 4 4 = 0 then w.unusable f 1 4 else w

/-- A signal canal link is marked failed, at both its ends. -/
def Wafer.retireSignalLink (w : Wafer) (f code : Nat) : Wafer :=
  let w := w.cutLink f code
  let w := match fieldNeighbour f code with
    | some g => w.cutLink g (if code ≤ 2 then code + 2 else code - 2)
    | none => w
  w.retireStep (detailField f) false

/-- The first step of the ladder that remains (Table 16-1). An SRAM row found permanent during a job stays in use until the job stops, and
so does the cluster that it retires; the site of a failed router is marked then. -/
def Wafer.retire (w : Wafer) (l : ErrLoc) : Wafer :=
  match l.kind with
  | 1 => match w.takeSpare l with
    | some w => w.retireStep (detailOf l.field l.unit 255 0) false
    | none => w.retireSite (l.field * 20 + l.unit)
  | 2 => match w.takeSpare l with
    | some w => w.retireStep (detailOf l.field l.unit 255 0) false
    | none =>
      let cl := l.field * 4 + l.unit % 32
      if w.armedOrRunning && w.fieldHeld l.field then
        { w with health := { w.health with retireClusters := setInsert w.health.retireClusters cl } }
      else w.retireCluster cl 5
  | 3 => match w.takeSpare l with
    | some w => w.retireStep (detailOf l.field l.unit 255 0) false
    | none => w.retireSite (l.field * 20 + l.unit)
  | 4 => w.retireStackRow l.runit (l.index / 2 ^ 17)
  | 5 =>
    let s := l.field * 20 + l.unit
    let r := s * 2 + l.index / 8 % 2
    let w := w.raiseFence (fRouter r) 0x0B11 true
    let w := w.updField l.field fun f => { f with rtrFail := if bit f.rtrFail l.unit then f.rtrFail else f.rtrFail + 2 ^ l.unit }
    if w.armedOrRunning && w.fieldHeld l.field then
      { w with health := { w.health with markSites := setInsert w.health.markSites s } }
    else w.retireSite s
  | 6 => w.retireLane (l.runit - 32) l.index
  | 7 => w.retireSignalLink l.field l.index
  | 8 => w.retireSite (l.field * 20 + l.unit)
  | _ => match w.takeSpare l with
    | some w => w.retireStep detailNone false
    | none => w.pairRestart (l.unit % 4)

/-- The unit a location names exists. -/
def errLocOk (l : ErrLoc) : Bool :=
  match l.kind with
  | 1 | 3 | 5 | 8 => decide (l.field < 112 ∧ l.unit < 20)
  | 2 => decide (l.field < 112 ∧ 32 ≤ l.unit ∧ l.unit < 36)
  | 4 => decide (l.runit < 32 ∧ l.index < 2 ^ 22)
  | 6 => decide (32 ≤ l.runit ∧ l.runit < 208 ∧ l.index < 16)
  | 7 => decide (l.field < 112 ∧ 1 ≤ l.index ∧ l.index ≤ 4)
  | 9 => decide (l.index < 2 ^ 22)
  | _ => false

/-- A permanent location: HLT_PERM, HLT_PERMS, and the retirement step. (Log 55 DESIGN CHOICE.) -/
def Wafer.permanent (w : Wafer) (l : ErrLoc) : Wafer :=
  let w := w.wrs hltBase [(Reg.hltPermKind, l.kind), (Reg.hltPermField, l.field), (Reg.hltPermUnit, l.unit),
    (Reg.hltPermRunit, l.runit), (Reg.hltPermIndex, l.index), (Reg.hltPermValid, 1)]
  (w.count hltBase Reg.hltPerms).retire l

/-- Error classification of one error at a location (R366); it pauses while pair 2's duties are not served (R306). The
table holds 65,536 locations, newest error first; a new one takes the entry whose newest error is oldest.
(Log 55 DESIGN CHOICE.) -/
def Wafer.classify (w : Wafer) (l : ErrLoc) (uncorrectable : Bool) : Wafer :=
  if !w.dutyUp 2 then w
  else
    let w := if uncorrectable then w else w.count hltBase Reg.hltCe
    let now := w.tick
    let entry := (w.health.errs.find? fun e => e.loc == l).getD ⟨l, [], false⟩
    let atOnce := l.kind = 8 ∨ (uncorrectable ∧ l.kind ≠ 6 ∧ l.kind ≠ 7)
    let perm := decide (atOnce) || (decide (entry.ticks.length = 3) &&
      decide (tickDiff now (entry.ticks.getD 2 0) < 2 ^ 20))
    let entry' : ErrEntry := ⟨l, if perm then [] else (now :: entry.ticks).take 3, entry.perm || perm⟩
    let w := { w with health := { w.health with
      errs := (entry' :: w.health.errs.filter fun e => e.loc != l).take 65536 } }
    if perm then w.permanent l else w

/-- The location of an accumulator row (kind 3): engine × 2,048 + bank × 1,024 + row (Table 16-1). (Log 28 PRESUMED.) -/
def accLoc (s e bank row : Nat) : ErrLoc := ⟨3, s / 20, s % 20, 255, e * 2048 + bank * 1024 + row⟩

/-- The location of a core memory address (kind 1): bank × 8,192 + row (R117). (Log 28 PRESUMED.) -/
def coreMemLoc (s a : Nat) : ErrLoc := ⟨1, s / 20, s % 20, 255, a / 32 % 64 * 8192 + a / 2048⟩

end Sys2Proof.Machine
end

