-- ==== Sys2Proof/Machine/FirmwareOps.lean ====
section
/-!
DEFINITION. Sys2Proof/Machine/FirmwareOps.lean: firmware images (R309, R310), the boot (R311), and the registers that show the
persistent records of Shepherd and the root of trust (Tables 13-10 and 13-11).
-/

namespace Sys2Proof.Machine

/-! ## Firmware images (Table 13-3) -/

/-- A slot's image header. -/
def Wafer.fwHeader (w : Wafer) (slot : Nat) : List Byte := w.fwMem.read (fwAddr slot 0) 512

def Wafer.fwVersion (w : Wafer) (slot : Nat) : Nat := fieldAt (w.fwHeader slot) 4 4
def Wafer.fwSvn (w : Wafer) (slot : Nat) : Nat := fieldAt (w.fwHeader slot) 8 1
def Wafer.fwDigest (w : Wafer) (slot : Nat) : Nat := fieldAt (w.fwHeader slot) 24 32

/-- The body, and the chains and signatures after it: at most what the body bound leaves of the slot. -/
def Wafer.fwBody (w : Wafer) (slot : Nat) : List Byte := w.fwMem.read (fwAddr slot 512) (fieldAt (w.fwHeader slot) 16 8)
def Wafer.fwTrailer (w : Wafer) (slot : Nat) : List Byte :=
  let off := fieldAt (w.fwHeader slot) 56 4
  w.fwMem.read (fwAddr slot off) (min 15872 (2 ^ 28 - off))

/-- The status of two signature checks (Table 12-7). -/
def sigStatus (ed ml : Bool) : Nat :=
  match ed, ml with
  | true, true => 0
  | false, true => 0x0301
  | true, false => 0x0302
  | false, false => 0x0303

/-- Both chains of a firmware signer verify and carry the extension. -/
def Wafer.fwChains (w : Wafer) (slot : Nat) : Bool :=
  let t := w.fwTrailer slot
  chainsOk t t Config.edRootHash Config.mlRootHash 1 w.chainTime

/-- The checks of R310 in order; 0 when all hold. A header or a digest that fails is BAD_IMAGE. -/
def Wafer.fwCheck (w : Wafer) (slot : Nat) : Nat :=
  let h := w.fwHeader slot
  if fieldAt h 0 4 ≠ 0x57464D55 ∨ 63 < fieldAt h 8 1 ∨ 2 ^ 28 - 2 ^ 14 < fieldAt h 16 8 then 0x0105
  else if sha3 (w.fwBody slot) ≠ fieldAt h 24 32 then 0x0105
  else if !w.fwChains slot then 0x0304
  else
    let t := w.fwTrailer slot
    match sigStatus (Config.ed25519Ok (Config.chainLeaf t Config.edRootHash) h t) (Config.mlDsaOk (Config.chainLeaf t Config.mlRootHash) h t) with
    | 0 => if fieldAt h 8 1 < w.shp.otp then 0x0305 else 0
    | n => n

/-! ## Records shown in registers -/

def SlotState.code : SlotState → Nat
  | .empty => 0 | .written => 1 | .committed => 2

/-- A slot's state (Table 16-6: EMPTY with no valid copy). -/
def Wafer.slotState (w : Wafer) (slot : Nat) : SlotState :=
  (((if slot = 0 then w.shp.slotA else w.shp.slotB).value).map (·.st)).getD .empty

/-- Commit a slot record. -/
def Wafer.setSlot (w : Wafer) (slot : Nat) (r : SlotRec) : Wafer :=
  let w := w.tallySelf (2 + slot)
  let w : Wafer := if slot = 0 then { w with shp := { w.shp with slotA := w.shp.slotA.commit r } }
    else { w with shp := { w.shp with slotB := w.shp.slotB.commit r } }
  w.wr secBase (if slot = 0 then Reg.secFwstatStatea else Reg.secFwstatStateb) r.st.code

/-- The slot the boot record names (slot A with no valid copy). -/
def Wafer.bootSlot (w : Wafer) : Nat := w.shp.boot.value.getD 0 % 2

/-- SHP_PLACE (R319): the committed address, or the default with the slot strap. -/
def Wafer.syncPlace (w : Wafer) : Wafer :=
  w.wrs 0 [(Reg.shpPlacePlace, w.shp.place.value.getD (0x1FFFFFC + w.shp.strap % 4)), (Reg.shpPlaceSet, b2n w.shp.place.value.isSome)]


def Wafer.syncRoots (w : Wafer) : Wafer :=
  let l := w.roots
  w.wrs secBase [(Reg.secRootsValid, maskOf 16 fun i => decide (i < l.length)),
    (Reg.secRootsAdmins, maskOf 16 fun i => (l.map (·.admin)).getD i false)]

/-- What the boot shows of the part's identity and records. -/
def Wafer.showIdentity (w : Wafer) : Wafer :=
  let h := Config.certHash
  let w := w.wrs secBase [(Reg.secCerthash0Hash, h), (Reg.secCerthash1Hash, h / 2 ^ 64), (Reg.secCerthash2Hash, h / 2 ^ 128),
    (Reg.secCerthash3Hash, h / 2 ^ 192), (Reg.secVendoridId, Config.vendorId), (Reg.secSvnOtp, w.shp.otp),
    (Reg.secFwstatStatea, (w.slotState 0).code), (Reg.secFwstatStateb, (w.slotState 1).code), (Reg.secFwstatBootslot, w.bootSlot)]
  ((w.wr 0 Reg.shpIdSerial Config.serial).syncPlace).syncRoots.syncMap

/-! ## The boot (R311) -/

/-- The first slot, from the boot slot on, that passes R310. -/
def Wafer.runnable (w : Wafer) : Option Nat :=
  let b := w.bootSlot
  if w.fwCheck b = 0 then some b else if w.fwCheck (1 - b) = 0 then some (1 - b) else none

/-- The slot whose image runs; none in the ROM recovery service. -/
def Wafer.runSlot (w : Wafer) : Option Nat :=
  if w.rd 0 Reg.shpStatRecovery = 1 then none else some (w.rd secBase Reg.secFwstatRunslot)

/-- The boot ROM runs: recorded as KIND 5. Fuses wait for an image whose SVN exceeds them and whose self-test passes. -/
def Wafer.boot (w : Wafer) : Wafer :=
  let i := w.rd secBase Reg.secTallyNext
  let w := w.tally 6 5 0 0 0 0 (Config.changeDigest i 0 []) (Config.changeDigest i 1 [])
  let w := w.showIdentity
  match w.runnable with
  | none =>
    ({ w with shp := { w.shp with fusePending := false } } : Wafer).wr 0 Reg.shpStatRecovery 1
  | some k =>
    let svn := w.fwSvn k
    let w := { w with shp := { w.shp with fusePending := decide (w.shp.otp < svn) && Config.selfTest (w.fwDigest k) } }
    (w.wr 0 Reg.shpStatRecovery 0).wrs secBase [(Reg.secFwstatRunslot, k), (Reg.secFwstatFellback, b2n (k != w.bootSlot)),
      (Reg.secFwstatVersion, w.fwVersion k), (Reg.secSvnRun, svn)]

end Sys2Proof.Machine
end

