-- ==== Sys2Proof/Machine/Numerics.lean ====
section
/-!
DEFINITION. Sys2Proof/Machine/Numerics.lean: number formats and arithmetic (chapter 4). A value is exact and dyadic; every
operation rounds once, where the spec says it rounds.
-/

namespace Sys2Proof.Machine

/-- An extended real that a format can hold: (−1)^neg × m × 2^e, an infinity, or a NaN. -/
inductive Ext where
  | nan
  | inf (neg : Bool)
  | fin (neg : Bool) (m : Nat) (e : Int)
  deriving DecidableEq, Repr, Inhabited

/-- A binary format (Table 4-1); `sp`: 0 has infinities and NaNs at the all-ones exponent, 1 E4M3 (one NaN pattern), 2 has
neither. -/
structure FpFmt where
  ebits : Nat
  mbits : Nat
  bias : Nat
  sp : Nat
  deriving DecidableEq, Repr, Inhabited

def fp32 : FpFmt := ⟨8, 23, 127, 0⟩
def bf16 : FpFmt := ⟨8, 7, 127, 0⟩
def fp16 : FpFmt := ⟨5, 10, 15, 0⟩
def e4m3 : FpFmt := ⟨4, 3, 7, 1⟩
def e5m2 : FpFmt := ⟨5, 2, 15, 0⟩
def e3m2 : FpFmt := ⟨3, 2, 3, 2⟩
def e2m3 : FpFmt := ⟨2, 3, 1, 2⟩
def e2m1 : FpFmt := ⟨2, 1, 1, 2⟩

/-- Width in bits. -/
def FpFmt.width (f : FpFmt) : Nat := 1 + f.ebits + f.mbits

/-- Exponent of the unit of a subnormal. -/
def FpFmt.emin (f : FpFmt) : Int := 1 - (f.bias : Int) - f.mbits

/-- The magnitude pattern of the largest finite value. -/
def FpFmt.maxMag (f : FpFmt) : Nat :=
  if f.sp = 0 then (2 ^ f.ebits - 1) * 2 ^ f.mbits - 1
  else if f.sp = 1 then 2 ^ (f.ebits + f.mbits) - 2
  else 2 ^ (f.ebits + f.mbits) - 1

/-- The NaN the module produces (R86). -/
def FpFmt.nan (f : FpFmt) : Nat :=
  if f.sp = 1 then 2 ^ (f.ebits + f.mbits) - 1
  else (2 ^ f.ebits - 1) * 2 ^ f.mbits + 2 ^ (f.mbits - 1)

/-- The infinity pattern of a format that has one. -/
def FpFmt.infMag (f : FpFmt) : Nat := (2 ^ f.ebits - 1) * 2 ^ f.mbits

/-- The value of a pattern (R82). -/
def FpFmt.dec (f : FpFmt) (x : Nat) : Ext :=
  let neg := bit x (f.ebits + f.mbits)
  let e := bits x f.mbits f.ebits
  let m := x % 2 ^ f.mbits
  if f.sp = 0 ∧ e = 2 ^ f.ebits - 1 then (if m = 0 then .inf neg else .nan)
  else if f.sp = 1 ∧ e = 2 ^ f.ebits - 1 ∧ m = 2 ^ f.mbits - 1 then .nan
  else if e = 0 then .fin neg m f.emin
  else .fin neg (2 ^ f.mbits + m) (f.emin + e - 1)

/-- How a value is rounded: to nearest-even, or stochastically with 16 random bits (R96, R97). -/
inductive Rnd where
  | near
  | sto (r : Nat)
  deriving DecidableEq, Repr, Inhabited

/-- Round m × 2^−sh to an integer, sh > 0. -/
def roundShift (rnd : Rnd) (m sh : Nat) : Nat :=
  let n := m / 2 ^ sh
  let rem := m % 2 ^ sh
  match rnd with
  | .near => if 2 * rem < 2 ^ sh then n else if 2 ^ sh < 2 * rem then n + 1 else n + n % 2
  | .sto r => if 2 ^ 16 ≤ 2 ^ 16 * rem / 2 ^ sh + r then n + 1 else n

/-- The magnitude pattern of m × 2^e before any limit on the exponent: patterns of one sign rise with their values. -/
def FpFmt.mag (f : FpFmt) (rnd : Rnd) (m : Nat) (e : Int) : Nat :=
  if m = 0 then 0
  else
    let top : Int := (Nat.log2 m : Int) + e
    let q : Int := max (top - f.mbits) f.emin
    let n := if q ≤ e then m * 2 ^ (e - q).toNat else roundShift rnd m (q - e).toNat
    if q = f.emin then n else (q - f.emin).toNat * 2 ^ f.mbits + n

/-- Narrow a value into a format (Table 4-3, R95 to R97). FP8 saturates after rounding; E5M2 keeps infinities. -/
def FpFmt.enc (f : FpFmt) (rnd : Rnd) (v : Ext) : Nat :=
  let sign := fun (neg : Bool) (m : Nat) => if neg then 2 ^ (f.ebits + f.mbits) + m else m
  match v with
  | .nan => f.nan
  | .inf neg => if f.sp = 0 then sign neg f.infMag else if f.sp = 1 then f.nan else sign neg f.maxMag
  | .fin neg m e =>
    let g := f.mag rnd m e
    if g ≤ f.maxMag then sign neg g
    else if f.sp = 0 ∧ f ≠ e5m2 then sign neg f.infMag
    else sign neg f.maxMag

/-- FP32 nearest-even. -/
def rne (v : Ext) : Nat := fp32.enc .near v
def val32 (x : Nat) : Ext := fp32.dec x

/-! ## Exact operations -/

def Ext.neg : Ext → Ext
  | .nan => .nan
  | .inf s => .inf (!s)
  | .fin s m e => .fin (!s) m e

def Ext.abs : Ext → Ext
  | .nan => .nan
  | .inf _ => .inf false
  | .fin _ m e => .fin false m e

def Ext.mul : Ext → Ext → Ext
  | .nan, _ => .nan
  | _, .nan => .nan
  | .inf s, .inf t => .inf (s != t)
  | .inf s, .fin t m _ => if m = 0 then .nan else .inf (s != t)
  | .fin t m _, .inf s => if m = 0 then .nan else .inf (s != t)
  | .fin s m e, .fin t n d => .fin (s != t) (m * n) (e + d)

/-- The sum; an exact zero of unlike signs is +0 under nearest-even. -/
def Ext.add : Ext → Ext → Ext
  | .nan, _ => .nan
  | _, .nan => .nan
  | .inf s, .inf t => if s = t then .inf s else .nan
  | .inf s, .fin _ _ _ => .inf s
  | .fin _ _ _, .inf s => .inf s
  | .fin s m e, .fin t n d =>
    let q := min e d
    let a : Int := (m * 2 ^ (e - q).toNat : Nat)
    let b : Int := (n * 2 ^ (d - q).toNat : Nat)
    let c := (if s then -a else a) + (if t then -b else b)
    if c = 0 then .fin (s && t) 0 q else .fin (decide (c < 0)) c.natAbs q

/-- Multiply by 2^k. -/
def Ext.scale (v : Ext) (k : Int) : Ext :=
  match v with
  | .fin s m e => .fin s m (e + k)
  | x => x

/-- The order of R77: a NaN is greater than every number, and NaNs compare equal; −0 and +0 compare equal. -/
def Ext.lt : Ext → Ext → Bool
  | .nan, _ => false
  | _, .nan => true
  | .inf s, .inf t => s && !t
  | .inf s, .fin _ _ _ => s
  | .fin _ _ _, .inf t => !t
  | .fin s m e, .fin t n d =>
    let q := min e d
    let a : Int := (m * 2 ^ (e - q).toNat : Nat)
    let b : Int := (n * 2 ^ (d - q).toNat : Nat)
    decide ((if s then -a else a) < (if t then -b else b))

def Ext.isNan : Ext → Bool
  | .nan => true
  | _ => false

def Ext.isZero : Ext → Bool
  | .fin _ m _ => m == 0
  | _ => false

/-! ## FP32 operations, each rounded once -/

def add32 (a b : Nat) : Nat := rne ((val32 a).add (val32 b))
def mul32 (a b : Nat) : Nat := rne ((val32 a).mul (val32 b))
def fma32 (a b c : Nat) : Nat := rne (((val32 a).mul (val32 b)).add (val32 c))

/-! ## Integers -/

/-- An integer as a value. -/
def extInt (i : Int) : Ext := .fin (decide (i < 0)) i.natAbs 0

/-- Convert to a two's complement integer of n bits, saturating; NaN gives 0 (Table 4-3). -/
def encInt (n : Nat) (rnd : Rnd) (v : Ext) : Nat :=
  let top : Int := (2 ^ (n - 1) : Nat) - 1
  let bot : Int := -((2 ^ (n - 1) : Nat) : Int)
  let clampI := fun (i : Int) => ofInt n (if top < i then top else if i < bot then bot else i)
  match v with
  | .nan => 0
  | .inf s => ofInt n (if s then bot else top)
  | .fin s m e =>
    let k : Nat := if 0 ≤ e then m * 2 ^ e.toNat else roundShift rnd m (-e).toNat
    clampI (if s then -(k : Int) else k)

/-! ## Element formats of the engines (Table 3-3) -/

/-- Bits of an element of a format code. -/
def fmtBits (c : Nat) : Nat :=
  match c with
  | 0 | 1 => 16
  | 2 | 3 | 4 | 5 | 9 | 11 => 8
  | 6 | 7 => 6
  | _ => 4

/-- Packing factor (Table 3-1). -/
def fmtPack (c : Nat) : Nat := if c ≤ 1 then 1 else if c = 8 ∨ c = 10 ∨ c = 12 then 4 else 2

def fmtIsMx (c : Nat) : Bool := decide (4 ≤ c ∧ c ≤ 9)

/-- The value of an element code (R82, R94). -/
def fmtVal (c x : Nat) : Ext :=
  match c with
  | 0 => bf16.dec x
  | 1 => fp16.dec x
  | 2 | 4 => e4m3.dec x
  | 3 | 5 => e5m2.dec x
  | 6 => e3m2.dec x
  | 7 => e2m3.dec x
  | 8 | 10 => e2m1.dec x
  | 9 => (extInt (toInt 8 x)).scale (-6)
  | 11 => extInt (toInt 8 x)
  | _ => extInt (toInt 4 x)

/-- Convert a value to an element code. -/
def fmtEnc (c : Nat) (rnd : Rnd) (v : Ext) : Nat :=
  match c with
  | 0 => bf16.enc rnd v
  | 1 => fp16.enc rnd v
  | 2 | 4 => e4m3.enc rnd v
  | 3 | 5 => e5m2.enc rnd v
  | 6 => e3m2.enc rnd v
  | 7 => e2m3.enc rnd v
  | 8 | 10 => e2m1.enc rnd v
  | 9 => encInt 8 rnd (v.scale 6)
  | 11 => encInt 8 rnd v
  | _ => encInt 4 rnd v

/-- Element i of elements of `b` bits packed from the least significant bit up (R84). -/
def packedElem (l : List Byte) (b i : Nat) : Nat :=
  let k := b * i
  bits (fieldAt l (k / 8) (k % 8 / 8 + 3)) (k % 8) b

/-- Pack elements of `b` bits into bytes. -/
def packElems (b : Nat) (xs : List Nat) : List Byte :=
  natLE (ceilDiv (b * xs.length) 8) (xs.foldr (fun x a => x % 2 ^ b + 2 ^ b * a) 0)

/-! ## MX quantisation (R100) -/

/-- e_max of an MX code. -/
def mxEmax (c : Nat) : Int :=
  match c with
  | 4 => 8 | 5 => 15 | 6 => 4 | 7 => 2 | 8 => 2 | _ => 0

/-- ⌊log2⌋ of a finite magnitude greater than 0. -/
def extLog2 : Ext → Int
  | .fin _ m e => (Nat.log2 m : Int) + e
  | _ => 0

/-- Quantise a block of FP32 values: the scale byte and the element codes; `r j` is the rounding of element j. -/
def mxBlock (c : Nat) (xs : List Nat) (r : Nat → Rnd) : Nat × List Nat :=
  let vs := xs.map val32
  if vs.any fun v => match v with | .fin _ _ _ => false | _ => true then (0xFF, xs.map fun _ => 0)
  else
    let a := vs.foldl (fun a v => if a.lt v.abs then v.abs else a) (.fin false 0 0)
    let x : Int := if a.isZero then -127 else max (-127) (min 127 (extLog2 a - mxEmax c))
    ((x + 127).toNat, (List.range vs.length).map fun j => fmtEnc c (r j) ((vs.getD j .nan).scale (-x)))

/-! ## Philox4x32-10 (R98): the constants are the published generator's, notes/assumptions/4.md, PRESUMED -/

def philoxRound (k0 k1 : Nat) (c : Nat × Nat × Nat × Nat) : Nat × Nat × Nat × Nat :=
  let p0 := 0xD2511F53 * c.1
  let p1 := 0xCD9E8D57 * c.2.2.1
  ((p1 / 2 ^ 32) ^^^ c.2.1 ^^^ k0, p1 % 2 ^ 32, (p0 / 2 ^ 32) ^^^ c.2.2.2 ^^^ k1, p0 % 2 ^ 32)

def philoxFrom : Nat → Nat → Nat → Nat × Nat × Nat × Nat → Nat × Nat × Nat × Nat
  | 0, _, _, c => c
  | n + 1, k0, k1, c =>
    philoxFrom n ((k0 + 0x9E3779B9) % 2 ^ 32) ((k1 + 0xBB67AE85) % 2 ^ 32) (philoxRound k0 k1 c)

/-- Output word i, 0 to 3, for a 64-bit key, low word first, and counter words c0 to c3. (Log 4 PRESUMED.) -/
def philox (key c0 c1 c2 c3 i : Nat) : Nat :=
  let x := philoxFrom 10 (key % 2 ^ 32) (key / 2 ^ 32) (c0 % 2 ^ 32, c1 % 2 ^ 32, c2 % 2 ^ 32, c3 % 2 ^ 32)
  match i with
  | 0 => x.1
  | 1 => x.2.1
  | 2 => x.2.2.1
  | _ => x.2.2.2

/-- The 16 bits for output element j (R98, Table 4-4). -/
def stoBits (key q c2 c3 j : Nat) : Nat :=
  let x := philox key (j / 8) q c2 c3 (j % 8 / 2)
  if j % 8 % 2 = 0 then x % 2 ^ 16 else x / 2 ^ 16

end Sys2Proof.Machine
end

