-- ==== Sys2Proof/Machine/StackOps.lean ====
section
/-!
DEFINITION. Sys2Proof/Machine/StackOps.lean: where things lie in the stacks: channels and rows (R178), regions (R179), pages of
the reservoir (R188, R190), what a GET reads (R198, R199), and the basin slices of chains (R265).
-/

namespace Sys2Proof.Machine

/-! ## Channels and regions -/

/-- Active channels of a stack, in increasing number. -/
def Wafer.channels (w : Wafer) (stk : Nat) : List Nat :=
  (List.range 32).filter fun k => bit (w.rd (stkBase stk) Reg.stkCapActive) k

/-- The channel of a stack-local address (R178). -/
def Wafer.channelOf (w : Wafer) (stk a : Nat) : Nat :=
  let l := w.channels stk
  l.getD (a / 256 % l.length) 0

/-- The channel and the row within it (R178). (Log 28 PRESUMED.) -/
def Wafer.rowOf (w : Wafer) (stk a : Nat) : Nat := a / 256 / (w.channels stk).length / 32

/-- The error location of a stack word (Table 16-1): channel × 2^17 + row. (Log 28 PRESUMED.) -/
def Wafer.stackLoc (w : Wafer) (stk a : Nat) : ErrLoc := ⟨4, 0xFF, 0xFF, stk, w.channelOf stk a * 2 ^ 17 + w.rowOf stk a⟩

/-- The line at an address is out of reach: its channel is fenced (R199, R204), or the arbiter of the controller's port (R23). -/
def Wafer.lineFenced (w : Wafer) (stk a : Nat) : Bool := w.fenced (fStackPort stk) || w.fenced (fChannel stk (w.channelOf stk a))

/-- No channel of a stack is fenced, and its port grants. -/
def Wafer.stackServes (w : Wafer) (stk : Nat) : Bool :=
  !w.fenced (fStackPort stk) && (w.channels stk).all fun ch => !w.fenced (fChannel stk ch)

def Wafer.basinBase (w : Wafer) (stk : Nat) : Nat := w.rd (stkBase stk) Reg.stkBasinBase * 2 ^ 21
def Wafer.basinSize (w : Wafer) (stk : Nat) : Nat := w.rd (stkBase stk) Reg.stkBasinSize * 2 ^ 21

/-- The line at an address lies in the basin. -/
def Wafer.inBasin (w : Wafer) (stk a : Nat) : Bool :=
  decide (w.basinBase stk ≤ a ∧ a + 256 ≤ w.basinBase stk + w.basinSize stk)

/-- The line at an address lies in the quay, the 4 GiB at the top of usable space. -/
def Wafer.inQuay (w : Wafer) (stk a : Nat) : Bool :=
  decide (w.quayStart stk ≤ a ∧ a + 256 ≤ w.rd (stkBase stk) Reg.stkCapCap * 2 ^ 21)

/-! ## Reservoir pages -/

/-- P: the pages of the admitted image. -/
def Wafer.pageCount (w : Wafer) : Nat := w.rd tirmBase Reg.tirPagesPages
/-- The buffer that holds the current generation. -/
def Wafer.curBuf (w : Wafer) : Nat := 1 - w.ingest.nextBuf
/-- The buffer of GEN 0 or 1. -/
def Wafer.bufOf (w : Wafer) (gen : Nat) : Nat := if gen = 0 then w.curBuf else w.ingest.nextBuf

/-- Stack and stack-local address of byte `off` of a page in a buffer. -/
def Wafer.pageAt (w : Wafer) (buf page off : Nat) : Nat × Nat :=
  let (stk, slot) := (w.reservoir.placeIn buf).getD page (0, 0)
  let base := if buf = 0 then w.rd (stkBase stk) Reg.stkResvBase0 else w.rd (stkBase stk) Reg.stkResvBase1
  (stk, (base + slot) * 2 ^ 21 + off)

/-- The page is readable in its generation (R188). (Log 42 DESIGN CHOICE.) -/
def Wafer.pageReady (w : Wafer) (buf page : Nat) : Bool := (w.reservoir.readyIn buf).contains page

/-- A range of a page lies in no fenced channel. -/
def Wafer.pageServed (w : Wafer) (buf page : Nat) : Bool :=
  w.stackServes (w.pageAt buf page 0).1

/-- Deal pages to the stacks 0 to 31, 31 to 0, 0 and on in the order given (R190): stack and slot by page. (Log 41 PRESUMED.) -/
def dealPages (order : List Nat) : List (Nat × Nat) :=
  let dealt := (List.range order.length).map fun k =>
    (order.getD k 0, (if k / 32 % 2 = 0 then k % 32 else 31 - k % 32, k / 32))
  (List.range order.length).map fun p => ((dealt.find? fun e => e.1 == p).map (·.2)).getD (0, 0)

/-- Pages a range of the reservoir touches. -/
def pagesOf (ra len : Nat) : List Nat := rangeFrom (ra / 2 ^ 21) ((ra + len - 1) / 2 ^ 21 + 1 - ra / 2 ^ 21)

/-! ## What a GET reads (R198, R199) -/

/-- Where a GET reads a page now (R198): a filled frame, the frame being filled, or the page in place. -/
inductive PageSource where
  | frame
  | fill
  | place
  /-- In place, though a frame whose deadline tick has begun is still being filled: a deadline miss. -/
  | missed
  /-- The page is not yet readable, or in a fenced channel (R199). -/
  | none
  deriving DecidableEq, Repr, Inhabited

/-- Stack and address of byte `off` of a page as a GET captured it (R189, R198). -/
def Wafer.getAt (w : Wafer) (g : Get) (page off : Nat) : Nat × Nat :=
  match g.kept.find? fun e => e.1 == page with
  | some (_, stk, slot) =>
    (stk, (w.rd (stkBase stk) (if g.buf = 0 then Reg.stkResvBase0 else Reg.stkResvBase1) + slot) * 2 ^ 21 + off)
  | none => w.pageAt g.buf page off

/-- A page that a GET captured is readable in place: verified, and in no fenced channel. -/
def Wafer.getReady (w : Wafer) (g : Get) (page : Nat) : Bool :=
  let stk := (w.getAt g page 0).1
  (!g.kept.isEmpty || w.pageReady g.buf page) && w.stackServes stk

def Wafer.pageSource (w : Wafer) (cl : Nat) (g : Get) (page : Nat) : PageSource :=
  let inPlace := fun (x : PageSource) => if w.getReady g page then x else PageSource.none
  if g.inPlace.contains page || !g.kept.isEmpty then inPlace .place
  else match (w.tier cl).frames.find? fun f => f.page == page && f.buf == g.buf with
    | some f =>
      if f.filled then .frame
      else if f.pins.any fun p => tickFuture p.deadline w.tick then .fill
      else if f.pins.isEmpty then inPlace .place
      else inPlace .missed
    | .none => inPlace .place

/-! ## Basin slices (R265) -/

/-- Lines of a slice. -/
def ChainEntry.lines (e : ChainEntry) : Nat := ceilDiv e.nelem 64

/-- Stack and basin line of line j. -/
def ChainEntry.lineAt (e : ChainEntry) (j : Nat) : Nat × Nat :=
  ((e.sfirst + j % max e.scount 1) % 32, e.boff + j / max e.scount 1)

/-- The slice holds basin line b of a stack. -/
def ChainEntry.holds (e : ChainEntry) (stk b : Nat) : Bool :=
  let k := (stk + 32 - e.sfirst % 32) % 32
  decide (k < e.scount ∧ e.boff ≤ b ∧ (b - e.boff) * e.scount + k < e.lines)

/-- The line at an address belongs to a range whose drain has begun: a slice of a chain that runs (R186). -/
def Wafer.drainBegun (w : Wafer) (stk a : Nat) : Bool :=
  w.reduce.runs.any fun r => bits r.entry.flags 2 1 == 0 && r.entry.holds stk ((a - w.basinBase stk) / 256)

end Sys2Proof.Machine
end

