-- ==== Sys2Proof/Machine/Waits.lean ====
section
/-!
DEFINITION. Sys2Proof/Machine/Waits.lean: what an instruction held at issue waits on, as Table 2-2 codes it (R42, R113). Each answer is
a cause and LCK_OVRSTAT.PORT.
-/

namespace Sys2Proof.Machine

/-! ## Units that an arbiter keeps waiting -/

/-- A row of a copy lies in cluster memory that an arbiter does not grant. -/
def Wafer.copyShut (w : Wafer) (site : Nat) (x : Copy) : Bool :=
  let cl := siteCluster site
  let hit := fun (a stride : Nat) => (List.range x.rows).any fun r => w.groupsShut cl (a + r * stride) x.len
  (x.fill.isNone && x.sspace == 1 && hit x.src x.sstride) || (x.dspace == 1 && hit x.dst x.dstride)

/-- The stored rows that a weight feeder reads (R64, R72): the memory's byte address and the length of each. -/
def LoadDesc.rows (d : LoadDesc) (wfmt : Nat) : List (Nat × Nat) :=
  let (rows, per) := if bit d.flags 0 then (d.n, d.k) else (d.k, d.n)
  (List.range rows).map fun j => (d.src + j * d.stride, ceilDiv (per * fmtBits wfmt) 8)

/-- A weight feeder reads cluster memory that an arbiter does not grant (R119). -/
def Wafer.feedShut (w : Wafer) (site : Nat) (m : Mode) (d : LoadDesc) : Bool :=
  bit d.flags 2 && (d.rows m.wfmt).any fun r => w.groupsShut (siteCluster site) r.1 r.2

/-- Cause of a wait on the copies of a core. -/
def Wafer.copyCause (w : Wafer) (s : Nat) : Nat := if (w.core s).copies.any fun x => w.copyShut s x then 3 else 0

/-- Cause of a wait on a matrix engine: its feeder lacks rows that an arbiter does not grant, or its pass waits for a copy (R74). -/
def Wafer.engineCause (w : Wafer) (e : Nat) : Nat :=
  let x := w.engine e
  if x.pend.any fun p => p.fed.isNone && w.feedShut (e / 2) p.mode p.desc then 3
  else if x.passes.any fun p => decide (p.mode.out < 2) && !p.claims (w.core (e / 2)) e p.desc.bank then w.copyCause (e / 2)
  else 0

/-- Cause of a wait on the sends of a core: a flit has yet to enter the canal. -/
def Wafer.sendCause (w : Wafer) (s : Nat) : Nat :=
  if w.canal.flits.any fun f => !f.left && f.src % 4096 == s then 1 else 0

/-- Cause of a wait on a GET: a page that is late or out of reach (R198, R199). -/
def Wafer.getCause (w : Wafer) (cl : Nat) (g : Get) : Nat :=
  if (pagesOf g.ra g.len).any fun p => w.pageSource cl g p == .none || w.pageSource cl g p == .fill then 2
  else if g.dspace = 1 ∧ w.groupsShut cl g.dst g.len = true then 3 else 0

/-- Cause of a wait on the tier controller for a core: its GETs, or prefetches whose pages are not filled. -/
def Wafer.tierCause (w : Wafer) (s : Nat) : Nat :=
  let cl := siteCluster s
  let t := w.tier cl
  if t.prefetches.any fun p => p.1 == s then 2
  else (t.gets.filter fun g => g.site == s).foldl (fun c g => if c = 0 then w.getCause cl g else c) 0

/-! ## Semaphores -/

/-- The port of a running chain, or 0xFF for a collective that runs or waits its turn, whose completion posts that semaphore of the
core (R268, R277). -/
def Wafer.collectorOf (w : Wafer) (s d : Nat) : Option Nat :=
  match w.reduce.runs.find? fun r => siteOfXY r.entry.nx r.entry.ny == some s && r.entry.sem == d with
  | some r => some r.entry.out
  | none =>
    let mine := fun (e : CollEntry) => siteOfXY e.nx e.ny == some s && e.sem == d
    let waits := w.reduce.colls.any fun e => w.reduce.queue.contains e.id && mine e
    if (w.reduce.run.any fun r => mine r.entry) || waits then some 0xFF else none

/-- A flit of the planes that will post a semaphore of the core. -/
def Flit.posts (f : Flit) (s d : Nat) : Bool :=
  f.sem == some d && f.runit == 255 &&
  (if f.kind = 1 then rectHas ⟨f.dx, f.dy, f.x1, f.y1⟩ (siteX s) (siteY s) else siteOfXY f.dx f.dy == some s)

/-- A link carries the current job to or from another module. -/
def Wafer.jobLinked (w : Wafer) : Bool := (List.range 176).any fun i => w.portInRun i

/-- Cause of a wait on a semaphore of a core (R113): what will post it. Where nothing that the module holds will, its poster is a core
that has not sent, or another module: the causes are 4 and 5, and the spec does not say which unless inter-module arrivals are known
to post it. (Log 19 DEDUCED.) -/
def Wafer.semCause (w : Wafer) (s d : Nat) : Nat × Nat :=
  match w.collectorOf s d with
  | some p => (6, p)
  | none =>
    let t := w.tier (siteCluster s)
    match t.gets.find? fun g => g.site == s && g.sem == d with
    | some g => (w.getCause (siteCluster s) g, 0xFF)
    | none =>
      let fs := w.canal.flits.filter fun f => f.posts s d
      let sums := (w.core s).landing.any fun b => b.sem == some d
      if fs.any fun f => f.src == portSource then (5, 0xFF)
      else if !fs.isEmpty || sums || (w.core s).waiting.any fun f => f.sem == some d then (1, 0xFF)
      else if (w.core s).copies.any fun x => x.sem == d then (w.copyCause s, 0xFF)
      else if (w.core s).xsems.contains d then (5, 0xFF)
      else if w.jobLinked && Config.farPoster w.tick s d then (5, 0xFF) else (4, 0xFF)

/-- The first cause that is not 0. -/
def firstCause : List Nat → Nat
  | [] => 0
  | c :: l => if c = 0 then firstCause l else c

/-- What a held core waits on (Table 2-2): a unit that is only busy gives 0. (Log 19 DEDUCED.) -/
def Wafer.waitCause (w : Wafer) (s : Nat) (x : Wait) : Nat × Nat :=
  match x with
  | .engine e => (w.engineCause e, 0xFF)
  | .copies => (w.copyCause s, 0xFF)
  | .sends => (w.sendCause s, 0xFF)
  | .tier => (w.tierCause s, 0xFF)
  | .sem d => w.semCause s d
  | .units m =>
    (firstCause [if bit m 3 then w.sendCause s else 0, if bit m 2 then w.copyCause s else 0,
      if bit m 0 then w.engineCause (2 * s) else 0, if bit m 1 then w.engineCause (2 * s + 1) else 0], 0xFF)
  | .time => (0, 0xFF)
  | .banks => (3, 0xFF)

end Sys2Proof.Machine
end

