-- ==== Sys2Proof/Machine/Sequencer.lean ====
section
/-!
DEFINITION. Sys2Proof/Machine/Sequencer.lean: how a core issues an instruction (R104, R105, R130): the registers it reads,
and what issuing, waiting and faulting do to the sequencer.
-/

namespace Sys2Proof.Machine

/-! ## Registers of a core (R103) -/

/-- What an unlisted register, semaphore or lane holds: zero, or the free value of its place (R103). The places are the scalar
registers, the semaphores from 32, the masks from 64 and the lanes from 72. (Log 5 DESIGN CHOICE.) -/
def lostValue (lost : Option Nat) (place : Nat) : Nat :=
  match lost with
  | none => 0
  | some n => Config.freeValue (n + place)

def Core.sget (c : Core) (r : Nat) : Word := if r = 0 then 0#64 else mapGet (fun k => BitVec.ofNat 64 (lostValue c.lost k)) c.s r
/-- s0 discards writes. -/
def Core.sset (c : Core) (r : Nat) (v : Word) : Core :=
  if r = 0 then c else { c with s := mapSet (fun k => BitVec.ofNat 64 (lostValue c.lost k)) c.s r v }
def Core.semGet (c : Core) (k : Nat) : Nat := mapGet (fun k => lostValue c.lost (32 + k) % 2 ^ 16) c.sem k
def Core.semSet (c : Core) (k v : Nat) : Core := { c with sem := mapSet (fun k => lostValue c.lost (32 + k) % 2 ^ 16) c.sem k v }
/-- The 128 lanes of a vector register that is not listed. -/
def lanesUnlisted (lost : Option Nat) (r : Nat) : List Nat :=
  match lost with
  | none => List.replicate 128 0
  | some _ => (List.range 128).map fun l => lostValue lost (72 + r * 128 + l) % 2 ^ 32
/-- The 128 lanes of a vector register. -/
def Core.vget (c : Core) (r : Nat) : List Nat := mapGet (lanesUnlisted c.lost) c.v r
def Core.vset (c : Core) (r : Nat) (l : List Nat) : Core := { c with v := mapSet (lanesUnlisted c.lost) c.v r l }
def Core.mget (c : Core) (k : Nat) : Nat := mapGet (fun k => lostValue c.lost (64 + k) % 2 ^ 128) c.m k
def Core.mset (c : Core) (k v : Nat) : Core := { c with m := mapSet (fun k => lostValue c.lost (64 + k) % 2 ^ 128) c.m k v }
def Core.vbadAt (c : Core) (r lane : Nat) : Bool := c.vbad.contains (r * 128 + lane)
def Core.setVbad (c : Core) (r : Nat) (lanes : List Bool) : Core :=
  let kept := c.vbad.filter fun k => k / 128 != r
  { c with vbad := (List.range 128).foldl (fun l i => if lanes.getD i false then setInsert l (r * 128 + i) else l) kept }

/-! ## Issue -/

/-- How an instruction leaves issue. -/
inductive Went where
  /-- It issued; the next one follows. -/
  | ok (w : Wafer)
  /-- It issued and control goes to an address. -/
  | jump (w : Wafer) (pc : Nat)
  /-- A wait condition is not met (R105). -/
  | hold (on : Wait)
  /-- A core fault (Table 5-13); the instruction has no effect. -/
  | fault (code : Nat)
  /-- A unit refused it: the core has already been stopped by that unit's fault. -/
  | stopped (w : Wafer)
  /-- It issued, and its result stops the core afterwards (a vector instruction that consumed poison, R131), at a location where the
  poison was read from a memory (R130). -/
  | poisoned (w : Wafer) (loc : Option ErrLoc)

def Wafer.pcOf (w : Wafer) (s : Nat) : Nat := w.rd (siteBase s) Reg.seqPcPc

/-- The instruction has issued after `held` VEC cycles of waiting. -/
def Wafer.issued (w : Wafer) (s held pc : Nat) : Wafer :=
  let b := siteBase s
  ((w.wrs b [(Reg.seqStatHeld, 0), (Reg.seqStatCause, 0), (Reg.seqPcPc, pc)]).count b Reg.seqHeld held).count b Reg.seqIssued

/-- Why the sequencer cannot issue what it fetches at the pc: a poisoned word is CORE_POISON (R131), a reserved CLASS or OP is
CORE_ILLEGAL (R104, Table 5-13). A pc that is not a multiple of 8, as an entry table or a jump may give it, is fetched at as it stands.
(Log 35 DESIGN CHOICE, 75 DESIGN CHOICE.) -/
def Wafer.fetchFault (w : Wafer) (site pc : Nat) : Option Nat :=
  if w.coreMem.badIn (coreAddr site pc) 8 then some 0x10
  else match decodeWord (BitVec.ofNat 64 (w.coreMem.num (coreAddr site pc) 8)) with
    | .error _ => some 1
    | .ok x => if opDefined x.cls x.op.toNat then none else some 1

/-- The fetch stops the core; CORE_POISON also reports its location (R130). (Log 35 DESIGN CHOICE.) -/
def Wafer.fetchStops (w : Wafer) (site code pc : Nat) : Wafer :=
  (if code = 0x10 then w.classify (coreMemLoc site pc) true else w).coreFault site code pc

/-- The instruction waits (R105): SEQ_STAT shows it held with its cause, and the pc and the registers stay. -/
def Wafer.heldOn (w : Wafer) (i : Issue) (x : Wait) : Wafer :=
  let b := siteBase i.site
  let t := (w.wrs b [(Reg.seqStatHeld, 1), (Reg.seqStatCause, (w.waitCause i.site x).1)]).count b Reg.seqHeld i.held
  t.updCore i.site fun c => { c with wait := some x }

/-- Issue an instruction on a core whose stage is issuing (SEQ_STAT.STATE 1); any other core issues nothing. The command names the
instruction; the word at the pc is read for what stops its fetch. A field the instruction does not use must be zero (R104).
(Log 35 DESIGN CHOICE.) -/
def Wafer.issue (w : Wafer) (i : Issue) (unused : Bool) (go : Wafer → Went) : Wafer :=
  let b := siteBase i.site
  let pc := w.pcOf i.site
  if w.rd b Reg.seqStatState ≠ 1 then w
  else match w.fetchFault i.site pc with
  | some c => w.fetchStops i.site c pc
  | none =>
    if unused then w.coreFault i.site 1 pc
    else match go w with
      | .ok w => w.issued i.site i.held ((pc + 8) % 2 ^ 24)
      | .jump w t => w.issued i.site i.held t
      | .hold x => w.heldOn i x
      | .fault c => w.coreFault i.site c pc
      | .stopped w => w
      | .poisoned w a =>
        let w := w.issued i.site i.held ((pc + 8) % 2 ^ 24)
        let w := match a with
          | some l => w.classify l true
          | none => w
        w.coreFault i.site 0x10 pc

/-- A meaning of one instruction. (Log 35 DESIGN CHOICE.) -/
def coreInstr (i : Issue) (s : State) (unused : Bool) (go : Wafer → Went) : Host.Outcome State Fault Refusal :=
  s.updIf (decide (i.site < 2240)) fun w => w.issue i unused go

/-- sA. -/
def Wafer.ra (w : Wafer) (i : Issue) : Word := (w.core i.site).sget i.a
/-- sB. -/
def Wafer.rb (w : Wafer) (i : Issue) : Word := (w.core i.site).sget i.b
/-- Write sD. -/
def Wafer.setD (w : Wafer) (i : Issue) (v : Word) : Wafer := w.updCore i.site fun c => c.sset i.d v

/-- IMM sign-extended. -/
def simm (i : Issue) : Word := i.imm.signExtend 64

/-- The address sA + IMM with IMM taken as unsigned (R108 to R110). -/
def Wafer.descAddr (w : Wafer) (i : Issue) : Nat := ((w.ra i) + i.imm.setWidth 64).toNat

/-- An address range within the code region of the core (R128). -/
def Core.inCode (c : Core) (a n : Nat) : Bool := decide (a < c.codeBase + c.codeSize ∧ c.codeBase < a + n)

/-- A branch or jump target (R107) that the core cannot take, by the fault it gives (Table 5-13): misaligned, or outside the code
region. -/
def Core.targetFault (c : Core) (t : Nat) : Option Nat :=
  if t % 8 ≠ 0 then some 2 else if c.codeBase ≤ t ∧ t < c.codeBase + c.codeSize then none else some 6

/-- Control goes to a target, or the core faults. -/
def Wafer.goTo (w : Wafer) (site t : Nat) : Went :=
  match (w.core site).targetFault t with
  | some c => .fault c
  | none => .jump w t

/-- A 32-byte or 16-byte descriptor at sA + IMM: aligned to 16 bytes and within core memory. (Log 20 DEDUCED.) -/
def descOk (a n : Nat) : Bool := decide (a % 16 = 0 ∧ a + n ≤ 2 ^ 24)

/-- Bytes of core memory. -/
def Wafer.coreBytes (w : Wafer) (s a n : Nat) : List Byte := w.coreMem.read (coreAddr s a) n

/-- Post to a semaphore (R115): past 65,535 it is left unchanged and CORE_SEM is raised. -/
def Wafer.semPost (w : Wafer) (s k n : Nat) : Wafer :=
  let v := (w.core s).semGet k + n
  if v ≤ 65535 then w.updCore s fun c => c.semSet k v
  else w.coreFault s 4 (w.pcOf s)

/-- A sequencer held by R64, R65, R66 or R74 counts in MAT_HOLD, in ENG cycles; two VEC cycles make one. -/
def Wafer.matHold (w : Wafer) (e held : Nat) : Wafer := w.count (matBase (e / 2) (e % 2)) Reg.matHold (held / 2)

/-- Two byte ranges meet. -/
def meets (a n b m : Nat) : Bool := decide (a < b + m ∧ b < a + n)

/-- A pending tile or an accepted pass of an engine has yet to read a scale byte of the range: weight scales are read during the shadow
load, data scales as the rows enter the array. -/
def Wafer.engineScaleHeld (w : Wafer) (e a n : Nat) : Bool :=
  let x := w.engine e
  let mx := fun (c : Nat) => decide (4 ≤ c ∧ c ≤ 9)
  let wait := match x.pend with
    | some p => !p.started && mx p.mode.wfmt && meets a n p.desc.wsc (p.desc.n * (p.desc.k / 32))
    | none => false
  wait || x.passes.any fun p => !p.issued && mx p.mode.dfmt && meets a n p.desc.dsc (p.desc.m * (p.k / 32))

/-- A core store to a scale byte that an accepted pass or a pending tile has yet to read holds the sequencer (R101). -/
def Wafer.scaleHeld (w : Wafer) (s a n : Nat) : Bool := w.engineScaleHeld (2 * s) a n || w.engineScaleHeld (2 * s + 1) a n

/-- The engine that a store to a scale byte waits on. -/
def Wafer.scaleWait (w : Wafer) (s a n : Nat) : Wait := if w.engineScaleHeld (2 * s) a n then .engine (2 * s) else .engine (2 * s + 1)

/-- The stage arithmetic of R41 for tick n. -/
def stageOf (img : Image) (t0 n : Nat) : Nat :=
  let i := tickDiff n t0
  if i < img.a then i else img.a + (i - img.a) % img.l

end Sys2Proof.Machine
end

