-- ==== Sys2Proof/Machine/CanalOps.lean ====
section
/-!
DEFINITION. Sys2Proof/Machine/CanalOps.lean: what the meanings share about the canal planes: planes and routes (R150, R161),
fenced rectangles and detours (R168, R169), discards (R170), and what an arriving flit does at its core (R157).
-/

namespace Sys2Proof.Machine

/-! ## Planes (R150, R161) -/

def atSite (x y : Nat) : Bool := (siteOfXY x y).isSome

/-- Whether a plane's order keeps a unicast route inside the array. -/
def planeCarries (plane sx sy dx dy : Nat) : Bool := if plane = 0 then atSite dx sy else atSite sx dy

/-- The plane a flit travels on: the one asked for, or the other when its order leaves the array (R150). -/
def planeFor (want sx sy dx dy : Nat) : Nat := if planeCarries want sx sy dx dy then want else 1 - want

/-- Whether a plane carries a multicast rectangle (R161). -/
def rectCarried (plane sx sy : Nat) (r : Rect) : Bool :=
  let xs := rangeFrom r.x0 (r.x1 + 1 - r.x0)
  let ys := rangeFrom r.y0 (r.y1 + 1 - r.y0)
  if plane = 0 then xs.all fun x => !(ys.any fun y => atSite x y) || atSite x sy
  else ys.all fun y => !(xs.any fun x => atSite x y) || atSite sx y

/-! ## Fenced rectangles -/

/-- A router that no flit may enter: fenced, or in a field in DOZE or FALLOW (R168, R333). -/
def Wafer.routerShut (w : Wafer) (plane x y : Nat) : Bool :=
  match siteOfXY x y with
  | none => false
  | some s => w.routerFenced (2 * s + plane) || decide (2 ≤ w.fieldState (s / 20))

def fieldRect (f : Nat) : Rect := ⟨5 * fieldCol f, 4 * fieldRow f, 5 * fieldCol f + 4, 4 * fieldRow f + 3⟩

/-- The fenced rectangle that a shut router lies in: a listed one, or that of its field, its cluster or itself. -/
def Wafer.rectAt (w : Wafer) (plane x y : Nat) : Option Rect :=
  match siteOfXY x y with
  | none => none
  | some s =>
    if !w.routerShut plane x y then none
    else match (w.rects plane).find? fun q => rectHas q x y with
      | some q => some q
      | none =>
        let f := s / 20
        let row := 4 * fieldRow f + s % 20 / 5
        if w.fieldFenced f || decide (2 ≤ w.fieldState f) then some (fieldRect f)
        else if w.clusterFenced (siteCluster s) then some ⟨5 * fieldCol f, row, 5 * fieldCol f + 4, row⟩
        else some ⟨x, y, x, y⟩

/-- Two rectangles touch (R168): no router lies between them. -/
def rectsTouch (a b : Rect) : Bool := decide (a.x0 ≤ b.x1 + 1 ∧ b.x0 ≤ a.x1 + 1 ∧ a.y0 ≤ b.y1 + 1 ∧ b.y0 ≤ a.y1 + 1)
def rectsJoin (a b : Rect) : Rect := ⟨min a.x0 b.x0, min a.y0 b.y0, max a.x1 b.x1, max a.y1 b.y1⟩
def rectsGap (a b : Rect) : Nat := max (a.x0 - b.x1) (b.x0 - a.x1) + max (a.y0 - b.y1) (b.y0 - a.y1)

/-- Add a rectangle: it absorbs every rectangle it touches, until none does. -/
def absorb : Nat → List Rect → Rect → List Rect
  | 0, l, r => l ++ [r]
  | n + 1, l, r =>
    match l.find? fun q => rectsTouch q r with
    | none => l ++ [r]
    | some q => absorb n (l.filter fun x => x != q) (rectsJoin q r)

/-- Add a rectangle to a plane's list of at most 16; a 17th is merged with the nearest one (R168). -/
def addRect (l : List Rect) (r : Rect) : List Rect :=
  let l' := absorb (l.length + 1) l r
  if l'.length ≤ 16 then l'
  else
    let q := l.foldl (fun (best : Rect) x => if rectsGap x r < rectsGap best r then x else best) (l.headD r)
    absorb (l.length + 1) (l.filter fun x => x != q) (rectsJoin q r)

/-! ## Routes (R150) -/

/-- The next router of a dimension-order route; `none` at the destination. (Log 25 DEDUCED.) -/
def nextHop (plane x y dx dy : Nat) : Option (Nat × Nat) :=
  let alongX := if x < dx then some (x + 1, y) else if dx < x then some (x - 1, y) else none
  let alongY := if y < dy then some (x, y + 1) else if dy < y then some (x, y - 1) else none
  if plane = 0 then (match alongX with | some p => some p | none => alongY)
  else (match alongY with | some p => some p | none => alongX)

/-- The dimension-order route from a router enters a rectangle. -/
def routeEnters (q : Rect) (plane dx dy : Nat) : Nat → Nat → Nat → Bool
  | 0, _, _ => false
  | n + 1, x, y =>
    match nextHop plane x y dx dy with
    | none => false
    | some p => rectHas q p.1 p.2 || routeEnters q plane dx dy n p.1 p.2

/-- The next router on the ring around a rectangle. From the back face clockwise is the order SW, S, SE, E, NE, N, NW, W of R16:
along the south side towards the east, up the east side, along the north side towards the west, down the west side.
`none` beyond the array's edge. (Log 25 DEDUCED.) -/
def ringNext (q : Rect) (clockwise : Bool) (x y : Nat) : Option (Nat × Nat) :=
  let xi : Int := x
  let yi : Int := y
  let xl : Int := (q.x0 : Int) - 1
  let xr : Int := (q.x1 : Int) + 1
  let yl : Int := (q.y0 : Int) - 1
  let yh : Int := (q.y1 : Int) + 1
  let p : Int × Int :=
    if clockwise then
      (if yi = yl ∧ xi < xr then (xi + 1, yi) else if xi = xr ∧ yi < yh then (xi, yi + 1)
       else if yi = yh ∧ xl < xi then (xi - 1, yi) else (xi, yi - 1))
    else
      (if yi = yl ∧ xl < xi then (xi - 1, yi) else if xi = xl ∧ yi < yh then (xi, yi + 1)
       else if yi = yh ∧ xi < xr then (xi + 1, yi) else (xi, yi - 1))
  if p.1 < 0 ∨ p.2 < 0 then none
  else if atSite p.1.toNat p.2.toNat then some (p.1.toNat, p.2.toNat) else none

/-- Where a unicast, CONF or SIGNAL flit goes next (R169): the flit at its next router, or the code it is discarded with. -/
inductive Hop where
  | arrived
  | move (f : Flit)
  | drop (code : Nat)

/-- The input of the router at the second place that takes a flit from the first (RTR_ERR.PORT): 0 N, 1 E, 2 S, 3 W. -/
def inputFrom (x y : Nat) (p : Nat × Nat) : Nat :=
  if y < p.2 then 2 else if p.2 < y then 0 else if x < p.1 then 3 else 1

/-- A flit moves to the input buffer of a neighbouring router, on a virtual channel. -/
def Flit.goTo (f : Flit) (p : Nat × Nat) (vc : Nat) : Flit :=
  { f with port := inputFrom f.x f.y p, x := p.1, y := p.2, vc := vc, left := true }

/-- One hop on VC1 around a rectangle. (Log 25 DEDUCED.) -/
def ringStep (w : Wafer) (f : Flit) (q : Rect) : Hop :=
  let dir := (f.plane == 0) != f.reversed
  let go := fun (f : Flit) (p : Nat × Nat) =>
    if w.routerShut f.plane p.1 p.2 then Hop.drop 2 else Hop.move { f.goTo p 1 with ring := some q }
  match ringNext q dir f.x f.y with
  | some p => go f p
  | none =>
    if f.reversed then .drop 2
    else match ringNext q (!dir) f.x f.y with
      | none => .drop 2
      | some p => go { f with reversed := true } p

/-- One hop off a ring: along the dimension-order route on VC0, or blocked by a fenced rectangle. -/
def orderStep (w : Wafer) (f : Flit) : Hop :=
  match nextHop f.plane f.x f.y f.dx f.dy with
  | none => .arrived
  | some p =>
    if !atSite p.1 p.2 then .drop 1
    else match w.rectAt f.plane p.1 p.2 with
    | none => .move (f.goTo p 0)
    | some q =>
      if 2 ≤ f.blocked ∨ rectHas q f.dx f.dy = true then .drop 2
      else ringStep w { f with blocked := f.blocked + 1 } q

/-- One hop (R169). A flit on a ring returns to VC0 at the first router from which its route no longer enters the rectangle, so its
last hop on the ring is on VC1. -/
def hopOf (w : Wafer) (f : Flit) : Hop :=
  match f.ring with
  | some q =>
    if routeEnters q f.plane f.dx f.dy 120 f.x f.y then ringStep w f q
    else orderStep w { f with ring := none, reversed := false }
  | none => orderStep w f

/-! ## Flits -/

/-- The router that holds a flit: site × 2 + plane. -/
def flitRouter (f : Flit) : Nat := ((siteOfXY f.x f.y).getD 0) * 2 + f.plane

def Wafer.flitAt (w : Wafer) (i : Nat) : Option Flit := w.canal.flits[i]?
def Wafer.dropFlit (w : Wafer) (i : Nat) : Wafer := { w with canal := { w.canal with flits := dropAt w.canal.flits i } }
def Wafer.setFlit (w : Wafer) (i : Nat) (f : Flit) : Wafer := { w with canal := { w.canal with flits := listSet w.canal.flits i f } }
def Wafer.addFlits (w : Wafer) (l : List Flit) : Wafer := { w with canal := { w.canal with flits := w.canal.flits ++ l } }

/-- Flits in the buffer of an input port and virtual channel of a router. -/
def Wafer.buffered (w : Wafer) (plane x y port vc : Nat) : Nat :=
  countIf (fun (g : Flit) => g.left && g.plane == plane && g.x == x && g.y == y && g.port == port && g.vc == vc) w.canal.flits

/-- The buffer that a flit is to enter has a credit for it: it holds 8 flits (R148). -/
def Wafer.hasRoom (w : Wafer) (f : Flit) : Bool := decide (w.buffered f.plane f.x f.y f.port f.vc < 8)

/-- A discard (R170): recorded in the router's RTR_DISC and counted; while a job runs, a discard of a job's flit is a job
fault. (Log 7 DEDUCED.) -/
def Wafer.discard (w : Wafer) (f : Flit) (code : Nat) : Wafer :=
  let r := flitRouter f
  let w := w.recordFirst (rtrBase r) Reg.rtrDiscValid
    [(Reg.rtrDiscCode, code), (Reg.rtrDiscDx, f.dx), (Reg.rtrDiscDy, f.dy), (Reg.rtrDiscKind, f.kind)]
  let w := w.count (rtrBase r) Reg.rtrDiscards
  if f.job && w.running then w.jobFault (0x0510 + code) (detailSite (r / 2)) else w

/-- Discard flit i. -/
def Wafer.discardAt (w : Wafer) (i : Nat) (f : Flit) (code : Nat) : Wafer := (w.dropFlit i).discard f code

/-! ## Arrival at a core -/

/-- A core takes flits: its site is active, its field is in RUN and no fence closes its local port (R149, R333). -/
def Wafer.takesFlits (w : Wafer) (s : Nat) : Bool := w.siteActive s && w.fieldState (s / 20) == 0 && !w.coreFenced s

/-- Bytes a flit writes (SHORT: data words 0 to 27). -/
def Flit.len (f : Flit) : Nat := if f.short then 224 else 256
def wordsLE (l : List Word) : List Byte := l.flatMap fun v => natLE 8 v.toNat
def Flit.payload (f : Flit) : List Byte := (wordsLE f.data).take f.len

/-- A write at a core's memories is allowed (R157, R191, R128). -/
def landingOk (w : Wafer) (s dspace a n : Nat) : Bool :=
  match dspace with
  | 0 => decide (a + n ≤ 2 ^ 24) && !(w.core s).inCode a n
  | 1 => decide (a + n ≤ w.rd (tirBase (siteCluster s)) Reg.tirSplitScratch * 2 ^ 21)
  | _ => false

/-- Write bytes and poison bits at a core or its cluster. -/
def Wafer.landBytes (w : Wafer) (s dspace a : Nat) (l : List Byte) (bad : List Nat) : Wafer :=
  if dspace = 0 then { w with coreMem := w.coreMem.writeBad (coreAddr s a) l bad }
  else { w with cluMem := w.cluMem.writeBad (cluAddr (siteCluster s) a) l bad }

/-- Post to a semaphore that a flit names. -/
def Wafer.semOpt (w : Wafer) (s : Nat) (sem : Option Nat) : Wafer :=
  match sem with
  | some k => w.semPost s k 1
  | none => w

/-! ## Injection -/

/-- A flit with every field zero but its place. -/
def blankFlit (plane x y src : Nat) (job : Bool) : Flit :=
  ⟨0, 0, false, none, 0, 0, 0, 0, 0, 0, false, 0, 0, 0, 0, 255, false, [], [], plane, x, y, src, false, 4, 0, none, false, 0, job⟩

/-- The router input through which a rim unit or area port brings flits in (R152, R153): the outward edge of its field, or the local port. -/
def unitInput (u : Nat) : Nat :=
  if 96 ≤ u then 4
  else
    let f := if u < 32 then stackAttach.getD u 0 else portField (u - 32)
    if fieldRow f ≤ 1 then 2 else if 10 ≤ fieldRow f then 0 else if fieldCol f ≤ 5 then 3 else 1

/-- A blank flit that waits in a unit for its gateway number i; its source is a stack or junction (4,095) or `portSource`. -/
def unitFlit (u i src want dx dy : Nat) (job : Bool) : Flit :=
  let gates := runitGates u
  let (x, y) := gates.getD (i % gates.length) (0, 0)
  { blankFlit (planeFor want x y dx dy) x y src job with dx := dx, dy := dy, port := unitInput u }

end Sys2Proof.Machine
end

