-- ==== Sys2Proof/Machine/Canal.lean ====
section
/-!
DEFINITION. Sys2Proof/Machine/Canal.lean: flits on the canal planes (R155 to R170), confluence (R163 to R166), signal canal
messages (R167, R168), job faults (R369) and the slot-table arbiters (R175, R176).
-/

namespace Sys2Proof.Machine

/-! ## Routers (R155, R162, R169) -/

/-- What a router finds in a flit's words is counted against the flit's input (R155). -/
def countErrors (w : Wafer) (f : Flit) (e : FlitError) : Wafer :=
  let b := rtrBase (flitRouter f)
  let ue := e.uncorrectable.length + e.control
  let w := w.countIn b Reg.rtrErrCe Reg.rtrErrCeovf e.corrected
  if ue = 0 then w else (w.countIn b Reg.rtrErrUe Reg.rtrErrUeovf ue).wr b Reg.rtrErrPort f.port

/-- It is reported, word by word, to error classification. -/
def reportErrors (w : Wafer) (f : Flit) (e : FlitError) : Wafer :=
  let r := flitRouter f
  let loc : ErrLoc := ⟨5, r / 40, r / 2 % 20, 255, r % 2 * 8 + f.port⟩
  let w := (List.range e.corrected).foldl (fun w _ => w.classify loc false) w
  (List.range (e.uncorrectable.length + e.control)).foldl (fun w _ => w.classify loc true) w

/-- A flit moves on from a router. -/
def countForward (w : Wafer) (f : Flit) (vc : Nat) : Wafer :=
  let b := rtrBase (flitRouter f)
  let w := w.count b Reg.rtrFlits
  if vc = 1 then w.count b Reg.rtrVc1 else w

/-- The copies a router makes of a multicast flit (R161): along its leg, onto the branches at its columns (canal A) or rows
(canal B), and for its local port. -/
def mcastCopies (f : Flit) : List Flit :=
  let a := f.plane == 0
  -- u runs along the first leg, v along the branches
  let u := if a then f.x else f.y
  let v := if a then f.y else f.x
  let (u0, u1) := if a then (f.dx, f.x1) else (f.dy, f.y1)
  let (v0, v1) := if a then (f.dy, f.y1) else (f.dx, f.x1)
  let su := if a then siteX (f.src % 4096) else siteY (f.src % 4096)
  let at' : Nat → Nat → Nat → Flit := fun u v leg =>
    { f.goTo (if a then (u, v) else (v, u)) 0 with leg := leg }
  let onward :=
    (if f.leg = 0 ∧ su ≤ u ∧ u < u1 then [at' (u + 1) v 0] else []) ++
    (if f.leg = 0 ∧ u ≤ su ∧ u0 < u then [at' (u - 1) v 0] else [])
  let inSpan := decide (u0 ≤ u ∧ u ≤ u1)
  let branch :=
    (if ((f.leg = 0 ∧ inSpan = true) ∨ f.leg = 1) ∧ v < v1 then [at' u (v + 1) 1] else []) ++
    (if ((f.leg = 0 ∧ inSpan = true) ∨ f.leg = 2) ∧ v0 < v then [at' u (v - 1) 2] else [])
  (onward ++ branch).filter fun g => atSite g.x g.y

/-- The site is an active logical core that the mask names (R162). -/
def maskNames (w : Wafer) (f : Flit) : Bool :=
  let s := (siteOfXY f.x f.y).getD 0
  rectHas ⟨f.dx, f.dy, f.x1, f.y1⟩ f.x f.y &&
  w.rd (coremapBase (siteCluster s)) Reg.cluCoremapRetired == 0 &&
  (List.range 4).any fun k => w.siteOf (s / 20) (s % 20 / 5) k == s && bit f.tag (s % 20 / 5 * 4 + k)

/-- A multicast flit leaves its router: copies go on, one stays for the local port, and a branch whose next hop is fenced is
discarded with code FENCE. It waits until every buffer it is to enter has a credit (R148). -/
def mcastHop (w : Wafer) (i : Nat) (f : Flit) : Wafer :=
  let local' := if maskNames w f then [{ f with leg := 3, left := true }] else []
  let copies := mcastCopies f
  let open' := fun (g : Flit) => !w.routerShut g.plane g.x g.y
  if !((copies.all fun g => !open' g || w.hasRoom g) && (f.left || local'.all fun g => w.hasRoom g)) then w
  else
    let w := (w.dropFlit i).addFlits local'
    copies.foldl (fun w g => if w.routerShut g.plane g.x g.y then w.discard f 4 else (countForward w f 0).addFlits [g]) w

/-- A router moves flit i on, or keeps it until the next buffer has a credit. -/
def Wafer.hopAct (w : Wafer) (i : Nat) (f : Flit) : Wafer :=
  if f.kind = 1 then (if f.leg = 3 then w else mcastHop w i f)
  else match hopOf w f with
    | .arrived => w
    | .move g => if w.hasRoom g then (countForward w f g.vc).setFlit i g else w
    | .drop c => w.discardAt i f c

/-- CANAL_FLIT_HOP (R148, R155, R161, R169). A flit at its destination router, and a copy for a local port, goes no further; a flit
does not leave its sender for a router that is shut. The words of a sum that the router itself sends on come over no link.
(Log 9 DESIGN CHOICE.) -/
def execCanalFlitHop (idx : Nat) (err : FlitError) (s : State) : Host.Outcome State Fault Refusal :=
  s.upd fun w =>
    match w.flitAt idx with
    | none => w
    | some f0 =>
      if !f0.left && w.routerShut f0.plane f0.x f0.y then w
      else
        let err := if f0.port = 5 then ⟨0, [], 0⟩ else { err with control := min 2 err.control }
        let f := { f0 with bad := err.uncorrectable.foldl setInsert f0.bad }
        let w := (countErrors w f err).setFlit idx f
        let w := if 0 < err.control then w.discardAt idx f 3 else w.hopAct idx f
        reportErrors w f err

/-- The flit stands at the router of its destination core. -/
def atCore (f : Flit) : Bool := f.runit == 255 && (if f.kind = 1 then f.leg == 3 else f.x == f.dx && f.y == f.dy)

/-- A flit adds n to the semaphore it names; a semaphore that an inter-module arrival posts is noted (R46). -/
def Wafer.flitPost (w : Wafer) (t : Nat) (f : Flit) (n : Nat) : Wafer :=
  match f.sem with
  | none => w
  | some k =>
    let w := if f.src = portSource then w.updCore t fun c => { c with xsems := setInsert c.xsems k } else w
    w.semPost t k n

/-- CANAL_FLIT_DELIVER (R149, R157): the flit is written and posts its semaphore, or is discarded with code DEST. It stays in its
router while the landing wait queue is full (R166), or while the bank group it writes takes no traffic (R23). -/
def execCanalFlitDeliver (idx : Nat) (s : State) : Host.Outcome State Fault Refusal :=
  s.upd fun w =>
    match w.flitAt idx with
    | none => w
    | some f =>
      if f.kind = 2 ∨ atCore f = false then w
      else
        let t := (siteOfXY f.x f.y).getD 0
        if !w.takesFlits t then w.discardAt idx f 1
        else if 16 ≤ (w.core t).waiting.length then w
        else if f.kind = 3 then (w.dropFlit idx).flitPost t f (f.daddr % 2 ^ 16)
        else if !landingOk w t f.dspace f.daddr f.len then w.discardAt idx f 1
        else if f.dspace == 1 && w.groupsShut (siteCluster t) f.daddr f.len then w
        else ((w.dropFlit idx).landBytes t f.dspace f.daddr f.payload (f.bad.filter fun k => decide (8 * k < f.len))).flitPost t f 1

/-! ## Confluence (R163 to R166) -/

/-- The key of a CONF flit matches. -/
def ConfBuf.holds (b : ConfBuf) (f : Flit) : Bool :=
  b.tag == f.tag && b.dx == f.dx && b.dy == f.dy && b.daddr == f.daddr && b.count == f.count

def confOf (f : Flit) : ConfBuf := ⟨f.tag, f.dx, f.dy, f.daddr, f.count, f.dspace, f.sem, f.carried, f.data, f.bad, f.job⟩

/-- Add two 64-bit words as pairs of FP32 values. -/
def addWord (a b : Word) : Word :=
  BitVec.ofNat 64 (add32 (a.toNat % 2 ^ 32) (b.toNat % 2 ^ 32) + 2 ^ 32 * add32 (a.toNat / 2 ^ 32) (b.toNat / 2 ^ 32))

/-- Add a flit into a sum (R163); a poisoned word makes the sum word poisoned. -/
def ConfBuf.merge (b : ConfBuf) (f : Flit) : ConfBuf :=
  { b with
    carried := b.carried + f.carried
    data := (List.range 32).map fun i => addWord (b.data.getD i 0#64) (f.data.getD i 0#64)
    bad := f.bad.foldl setInsert b.bad
    job := b.job || f.job }

/-- The CONF flit a buffer is sent on as: it stands in the router, and merges at later routers only. -/
def ConfBuf.flit (b : ConfBuf) (plane x y : Nat) (part : Bool) : Flit :=
  { blankFlit plane x y 4095 b.job with
    kind := 2, partSum := part, sem := b.sem, dx := b.dx, dy := b.dy, tag := b.tag, carried := b.carried, daddr := b.daddr
    dspace := b.dspace, count := b.count, data := b.data, bad := b.bad, left := true, port := 5 }

def Wafer.confBufs (w : Wafer) (r : Nat) : List ConfBuf := mapGet (fun _ => []) w.canal.conf r
def Wafer.setConfBufs (w : Wafer) (r : Nat) (l : List ConfBuf) : Wafer :=
  ({ w with canal := { w.canal with conf := mapSet (fun _ => []) w.canal.conf r l } } : Wafer).wr (rtrBase r) Reg.rtrStatConfbuf l.length

/-- Put a sum back into place i of a router's buffers, or send it on once CARRIED reaches COUNT (R164). -/
def Wafer.confPut (w : Wafer) (r i : Nat) (b : ConfBuf) (f : Flit) : Wafer :=
  let l := w.confBufs r
  if b.count ≤ b.carried then
    (w.setConfBufs r (dropAt l i)).addFlits [b.flit f.plane f.x f.y false]
  else w.setConfBufs r (listSet l i b)

/-- CONF_MERGE (R163, R164): not at the destination router, not on VC1 (R169), and not a sum that this router has sent on. With no
buffer free the flit passes on unmerged. -/
def execConfMerge (idx : Nat) (s : State) : Host.Outcome State Fault Refusal :=
  s.upd fun w =>
    match w.flitAt idx with
    | none => w
    | some f =>
      if f.kind ≠ 2 ∨ f.vc = 1 ∨ f.port = 5 ∨ atCore f = true ∨ w.routerShut f.plane f.x f.y = true then w
      else
        let r := flitRouter f
        let l := w.confBufs r
        match indexOf? (fun (b : ConfBuf) => b.holds f) l with
        | some i =>
          ((w.dropFlit idx).count (rtrBase r) Reg.rtrMerge).confPut r i ((l.getD i default).merge f) f
        | none =>
          if 64 ≤ l.length then w
          else ((w.dropFlit idx).setConfBufs r (l ++ [confOf f])).confPut r l.length (confOf f) f

/-- CONF_BUFFER_TIMEOUT (R164): the buffer is sent on with PARTIAL set. -/
def execConfBufferTimeout (router idx : Nat) (s : State) : Host.Outcome State Fault Refusal :=
  s.updIf (decide (router < 4480)) fun w =>
    let l := w.confBufs router
    match l[idx]? with
    | none => w
    | some b =>
      let f := b.flit (router % 2) (siteX (router / 2)) (siteY (router / 2)) true
      let w := (w.setConfBufs router (dropAt l idx)).count (rtrBase router) Reg.rtrPartial
      w.addFlits [f]

/-- A fault of a core's canal interface: CNL_FAULT and a job fault (Table 7-11). (Log 7 DEDUCED.) -/
def Wafer.canalFault (w : Wafer) (t code : Nat) (f : Flit) : Wafer :=
  let w := w.recordFirst (cnlBase t) Reg.cnlFaultValid
    [(Reg.cnlFaultCode, code), (Reg.cnlFaultAddr, f.daddr), (Reg.cnlFaultTag, f.tag)]
  w.jobFault (0x0500 + code) (detailSite t)

def Wafer.setLanding (w : Wafer) (t : Nat) (l : List ConfBuf) : Wafer :=
  (w.updCore t fun c => { c with landing := l }).wr (cnlBase t) Reg.cnlStatLanding l.length

/-- An entry is complete: its sum is written and posts, and the entry is free. -/
def Wafer.landSum (w : Wafer) (t i : Nat) (b : ConfBuf) : Wafer :=
  let w := w.setLanding t (dropAt (w.core t).landing i)
  (w.landBytes t b.dspace b.daddr (wordsLE b.data) b.bad).semOpt t b.sem

/-- Where a CONF flit goes at its core (R165). -/
inductive Landing where
  | done (w : Wafer)
  /-- The table is full and no entry holds the key. -/
  | full

/-- The bank group that a CONF flit's sum goes to takes no traffic (R23). -/
def Wafer.sumShut (w : Wafer) (t : Nat) (f : Flit) : Bool := f.dspace == 1 && w.groupsShut (siteCluster t) f.daddr 256

/-- Land one CONF flit that has been taken from the router. -/
def Wafer.landConf (w : Wafer) (t : Nat) (f : Flit) : Landing :=
  let l := (w.core t).landing
  match indexOf? (fun (b : ConfBuf) => b.holds f) l with
  | some i =>
    let b := (l.getD i default).merge f
    if b.count < b.carried then .done (w.canalFault t 2 f)
    else if b.carried = b.count then .done (w.landSum t i b)
    else .done (w.setLanding t (listSet l i b))
  | none =>
    if l.any fun b => b.tag == f.tag && b.daddr == f.daddr && b.count != f.count then .done (w.canalFault t 3 f)
    else if 128 ≤ l.length then .full
    else if f.count < f.carried then .done (w.canalFault t 2 f)
    else
      let w := w.setLanding t (l ++ [confOf f])
      if f.carried = f.count then .done (w.landSum t l.length (confOf f)) else .done w

/-- The first waiting flit, from place k on, that an entry now takes; those before it wait on. -/
def Wafer.landNext (w : Wafer) (t : Nat) : Nat → Nat → Option Wafer
  | _, 0 => none
  | k, n + 1 =>
    match (w.core t).waiting[k]? with
    | none => none
    | some f =>
      if w.sumShut t f then w.landNext t (k + 1) n
      else match (w.updCore t fun c => { c with waiting := dropAt c.waiting k }).landConf t f with
        | .done w => some w
        | .full => w.landNext t (k + 1) n

/-- Freed entries go to waiting flits in the order in which they entered the queue (R166); one whose key an entry has come to hold is
added there. -/
def Wafer.landWaiting (w : Wafer) (t : Nat) : Nat → Wafer
  | 0 => w
  | n + 1 =>
    match w.landNext t 0 16 with
    | none => w
    | some w => w.landWaiting t n

/-- CONF_LANDING (R149, R165, R166). With the wait queue full the local ports take nothing: the flit stays in its router. -/
def execConfLanding (idx : Nat) (s : State) : Host.Outcome State Fault Refusal :=
  s.upd fun w =>
    match w.flitAt idx with
    | none => w
    | some f =>
      if f.kind ≠ 2 ∨ atCore f = false then w
      else
        let t := (siteOfXY f.x f.y).getD 0
        if !w.takesFlits t || !landingOk w t f.dspace f.daddr 256 then w.discardAt idx f 1
        else if 16 ≤ (w.core t).waiting.length ∨ w.sumShut t f = true then w
        else match (w.dropFlit idx).landConf t f with
          | .done w => w.landWaiting t 16
          | .full => (w.dropFlit idx).updCore t fun c => { c with waiting := c.waiting ++ [f] }

/-- CANAL_LANDING (R166): a flit that has waited 65,536 cycles for an entry is discarded. -/
def execCanalLanding (site idx : Nat) (s : State) : Host.Outcome State Fault Refusal :=
  s.updIf (decide (site < 2240)) fun w =>
    match (w.core site).waiting[idx]? with
    | none => w
    | some f => (w.updCore site fun c => { c with waiting := dropAt c.waiting idx }).canalFault site 4 f

/-! ## The signal canal -/

/-- The units that a FENCE message names (Table 7-5). -/
def fenceTold (u : FenceUnit) : Bool :=
  match u.kind with
  | .port | .stackChannel => false
  | .site | .cluster | .field | .routerPlane | .arbiter => true

/-- FENCE_MESSAGE (R23, R167): a unit is fenced, for the cause its message names. -/
def execFenceMessage (msg : ScnId) (news : FenceNews) (s : State) : Host.Outcome State Fault Refusal :=
  s.updIf (unitOk news.unit && fenceTold news.unit) fun w => w.scnOnce msg.source msg.seq fun w =>
    w.raiseFence news.unit news.cause true none true

/-- RECT (R167, R168): a rectangle joins a plane's list at every router. -/
def execRect (msg : ScnId) (news : RectNews) (s : State) : Host.Outcome State Fault Refusal :=
  s.updIf (decide (news.plane < 2)) fun w => w.scnOnce msg.source msg.seq fun w =>
    if news.plane = 0 then w.setRects (addRect w.canal.rectsA news.rect) w.canal.rectsB
    else w.setRects w.canal.rectsA (addRect w.canal.rectsB news.rect)

/-- JOB_FAULT (R167, R369). The message of a job that is no longer the module's stops nothing. (Log 7 DEDUCED.) -/
def execJobFault (msg : ScnId) (news : FaultNews) (s : State) : Host.Outcome State Fault Refusal :=
  s.upd fun w => w.scnOnce msg.source msg.seq fun w =>
    if w.armedOrRunning && news.tag != w.job.tag then w else w.jobFault news.cls news.detail none true

/-! ## Arbiters -/

/-- The arbiter at a BAR0 base, as the unit a fence names. (Log 26 DESIGN CHOICE.) -/
def arbUnit (base : Nat) : Option FenceUnit :=
  match blockOf base with
  | some (.arb, b) =>
    if b ≠ base then none
    else if base < 0x2000000 then some ⟨.arbiter, 0, 32 + (base - 0x1000000) / 0x10000⟩
    else if base < 0x3000000 then some ⟨.arbiter, 0, 208 + 2 * ((base - 0x2000000) / 0x10000) + (base % 0x10000 - 0x1000) / 0x200⟩
    else if base < 0x4000000 then some ⟨.arbiter, 0, (base - 0x3000000) / 0x40000⟩
    else
      let x := (base - 0x4000000) % 0x100000
      some ⟨.arbiter, (base - 0x4000000) / 0x100000, 1024 + 8 * ((x - 0x10000) / 0x10000) + (x % 0x10000 - 0xC000) / 0x200⟩
  | _ => none

/-- ARB_SHEEPDOG_BITE (R175): the resource is fenced, which is a job fault, and the oldest requester is recorded. -/
def execArbSheepdogBite (base oldest : Nat) (s : State) : Host.Outcome State Fault Refusal :=
  s.updIf (arbUnit base).isSome fun w =>
    match arbUnit base with
    | none => w
    | some u =>
      let w := w.recordFirst base Reg.arbFaultValid [(Reg.arbFaultOldest, oldest)]
      (w.raiseFence u 0x0520 false).jobFault 0x0520 (fenceDetail u 0)

end Sys2Proof.Machine
end

