-- ==== Sys2Proof/Machine/Clears.lean ====
section
/-!
DEFINITION. Sys2Proof/Machine/Clears.lean: the CLEAR bits of the CTL registers (R377) and ARB_CTL.SWAP (R176): a write of 1 is
tallied when it arrives and acts at the next tick boundary. Register writes are ignored while the tally buffer is full (R317).
-/

namespace Sys2Proof.Machine

/-! ## What a CLEAR bit clears -/

/-- The counters and records that the CLEAR bit of a block clears. -/
def clearSet : Blk → List Fld
  | .mat => [Reg.matPasses, Reg.matRows, Reg.matLoads, Reg.matPause, Reg.matHold]
  | .gme => [Reg.gmeTiles, Reg.gmeRows, Reg.gmeSlots, Reg.gmeEmpty, Reg.gmeWait]
  | .rtr => [Reg.rtrFlits, Reg.rtrVc1, Reg.rtrMerge, Reg.rtrPartial, Reg.rtrDiscards]
  | .stk => [Reg.stkReads, Reg.stkWrites, Reg.stkAccs, Reg.stkAcks]
  | .tir => [Reg.tirGets, Reg.tirT1bytes, Reg.tirT2bytes, Reg.tirMisses, Reg.tirPfdrop, Reg.tirEvict]
  | .tpx => [Reg.tpTxframes, Reg.tpRxframes, Reg.tpReplays, Reg.tpDroptag, Reg.tpDropvl, Reg.tpDropfence, Reg.tpHbmiss,
      Reg.tpSetups, Reg.tpLanesym0, Reg.tpLanesym1, Reg.tpLanesym2, Reg.tpLanesym3, Reg.tpLanesym4, Reg.tpLanesym5,
      Reg.tpLanesym6, Reg.tpLanesym7, Reg.tpLanesym8, Reg.tpLanesym9, Reg.tpLanesym10, Reg.tpLanesym11, Reg.tpLanesym12,
      Reg.tpLanesym13, Reg.tpLanesym14, Reg.tpLanesym15]
  | .wst => [Reg.wstBarges, Reg.wstRelayed, Reg.wstRefetch, Reg.wstServed, Reg.wstDup, Reg.wstDrophdr, Reg.wstBadhash, Reg.wstBadtag]
  | .jnc => [Reg.jncFramesin, Reg.jncFramesout, Reg.jncSampled, Reg.jncVerdicts, Reg.jncDropchain, Reg.jncWait]
  | .coll => [Reg.collDone, Reg.collRd, Reg.collRing, Reg.collDropped]
  | .cmdp => [Reg.cmdTaken, Reg.cmdRefused, Reg.cmdBadstate, Reg.cmdEvlost]
  | .pwr => [Reg.pwrBrakes, Reg.pwrPressticks, Reg.pwrGearsteps]
  | .fpw => [Reg.fpwDroop]
  | .hlt => [Reg.hltCe, Reg.hltPerms, Reg.hltRetires, Reg.hltJobfaults, Reg.hltNotices]
  | .seq => [Reg.seqIssued, Reg.seqHeld, Reg.seqMarks, Reg.seqCarry]
  | _ => []

/-- Fields beside the 48-bit counters that the CLEAR bit returns to their reset values. -/
def clearExtra : Blk → List Fld
  | .rtr => [Reg.rtrErrCe, Reg.rtrErrUe, Reg.rtrErrPort, Reg.rtrErrCeovf, Reg.rtrErrUeovf]
  | .stk => [Reg.stkErrCe, Reg.stkErrUe, Reg.stkErrChan, Reg.stkErrCeovf, Reg.stkErrUeovf]
  | .tpx => [Reg.tpErrUncorr, Reg.tpErrCrc, Reg.tpErrAuth, Reg.tpErrUncorrovf, Reg.tpErrCrcovf, Reg.tpErrAuthovf]
  | .fpw => [Reg.fpwVoltVmin]
  | .seq => [Reg.seqMarginMin, Reg.seqMarginStage]
  | _ => []

/-- Return fields of the block at a base to their reset values. -/
def Wafer.resetFields (w : Wafer) (base : Nat) (l : List Fld) : Wafer :=
  l.foldl (fun w f => w.wr base f (fieldReset (f.at base).key)) w

/-- A CLEAR bit acts. The vector counters of a site go with those of its sequencer (Table 5-18). -/
def Wafer.clearBlock (w : Wafer) (ctl : Nat) : Wafer :=
  match blockOf ctl with
  | none => w
  | some (b, base) =>
    let w := ((clearSet b).foldl (fun w f => w.clearCount base f) w).resetFields base (clearExtra b)
    if b = .seq then
      [Reg.vecOps, Reg.vecSfu, Reg.vecSround, Reg.movBytes].foldl (fun w f => w.clearCount (base + 0x1000) f) w
    else w

/-- Step 7 of a boundary: the CLEAR bits written since the last one act. -/
def Wafer.applyClears (w : Wafer) : Wafer :=
  let l := w.cmd.clears
  l.foldl (fun w c => w.clearBlock c) { w with cmd := { w.cmd with clears := [] } }

/-! ## Asking for it -/

/-- A write of 1 to a bit that acts at the next boundary. -/
def Wafer.ctlWrite (w : Wafer) (path off : Nat) (f : Wafer → Wafer) : Wafer :=
  if w.tallyFull then w
  else
    let v := w.reg64 off
    f (w.tallyReg path 2 off v v)

def Wafer.askClear (w : Wafer) (path ctl : Nat) : Wafer :=
  w.ctlWrite path ctl fun w => { w with cmd := { w.cmd with clears := w.cmd.clears ++ [ctl] } }

def Wafer.askSwap (w : Wafer) (path base : Nat) : Wafer :=
  w.ctlWrite path base fun w => { w with cmd := { w.cmd with swaps := setInsert w.cmd.swaps base } }

/-- MAT_CTL.CLEAR (Table 3-14). -/
def execMatClear (path site e : Nat) (s : State) : Host.Outcome State Fault Refusal :=
  s.updIf (decide (site < 2240 ∧ e < 2)) fun w => w.askClear path (matBase site e + Reg.matCtlClear.off)
/-- SEQ_CTL.CLEAR (Table 5-18). -/
def execSeqClear (path site : Nat) (s : State) : Host.Outcome State Fault Refusal :=
  s.updIf (decide (site < 2240)) fun w => w.askClear path (siteBase site + Reg.seqCtlClear.off)
/-- GME_CTL.CLEAR (Table 6-8). -/
def execGmeClear (path cluster : Nat) (s : State) : Host.Outcome State Fault Refusal :=
  s.updIf (decide (cluster < 448)) fun w => w.askClear path (gmeBase cluster + Reg.gmeCtlClear.off)
/-- RTR_CTL.CLEAR (Table 7-10). -/
def execRtrClear (path router : Nat) (s : State) : Host.Outcome State Fault Refusal :=
  s.updIf (decide (router < 4480)) fun w => w.askClear path (rtrBase router + Reg.rtrCtlClear.off)
/-- STK_CTL.CLEAR (Table 8-8). -/
def execStkClear (path stack : Nat) (s : State) : Host.Outcome State Fault Refusal :=
  s.updIf (decide (stack < 32)) fun w => w.askClear path (stkBase stack + Reg.stkCtlClear.off)
/-- TIR_CTL.CLEAR (Table 8-9). -/
def execTirClear (path cluster : Nat) (s : State) : Host.Outcome State Fault Refusal :=
  s.updIf (decide (cluster < 448)) fun w => w.askClear path (tirBase cluster + Reg.tirCtlClear.off)
/-- TPx_CTL.CLEAR (Table 9-17). -/
def execTpxClear (path port : Nat) (s : State) : Host.Outcome State Fault Refusal :=
  s.updIf (decide (port < 176)) fun w => w.askClear path (portBase port + Reg.tpCtlClear.off)
/-- WST_CTL.CLEAR (Table 10-17). -/
def execWstClear (path : Nat) (s : State) : Host.Outcome State Fault Refusal :=
  s.upd fun w => w.askClear path (wstBase + Reg.wstCtlClear.off)
/-- JNC_CTL.CLEAR (Table 11-10). -/
def execJncClear (path port : Nat) (s : State) : Host.Outcome State Fault Refusal :=
  s.updIf (decide (port < 176)) fun w => w.askClear path (jncBase port + Reg.jncCtlClear.off)
/-- COLL_CTL.CLEAR (Table 11-11). -/
def execCollClear (path : Nat) (s : State) : Host.Outcome State Fault Refusal :=
  s.upd fun w => w.askClear path (collBase + Reg.collCtlClear.off)
/-- CMD_CTL.CLEAR (Table 12-13). -/
def execCmdClear (path port : Nat) (s : State) : Host.Outcome State Fault Refusal :=
  s.updIf (decide (port < 2)) fun w => w.askClear path (cmdBase port + Reg.cmdCtlClear.off)
/-- PWR_CTL.CLEAR (Table 14-9). -/
def execPwrClear (path : Nat) (s : State) : Host.Outcome State Fault Refusal :=
  s.upd fun w => w.askClear path (pwrBase + Reg.pwrCtlClear.off)
/-- FPW_CTL.CLEAR (Table 14-10). -/
def execFpwClear (path field : Nat) (s : State) : Host.Outcome State Fault Refusal :=
  s.updIf (decide (field < 112)) fun w => w.askClear path (fieldBase field + Reg.fpwCtlClear.off)
/-- HLT_FCTL.CLEAR (Table 16-11). -/
def execHltFclear (path : Nat) (s : State) : Host.Outcome State Fault Refusal :=
  s.upd fun w => w.askClear path (hltBase + Reg.hltFctlClear.off)

/-! ## Slot tables (R176) -/

/-- The shadow table, as the registers hold it. -/
def Wafer.arbShadow (w : Wafer) (base : Nat) : ArbTable :=
  let n := w.rd base Reg.arbCtlLen
  let owned := fun k => w.rd base (Reg.arbSlotValid k) == 1
  { len := if n = 0 then 256 else n
    owners := ((List.range 256).filter owned).map fun k => (k, w.rd base (Reg.arbSlotOwner k))
    idle := ((List.range 256).filter fun k => !owned k && w.rd base (Reg.arbSlotOwner k) != 0).map fun k => (k, w.rd base (Reg.arbSlotOwner k)) }

/-- Write a table into the shadow registers. -/
def Wafer.setArbShadow (w : Wafer) (base : Nat) (t : ArbTable) : Wafer :=
  let w := w.wr base Reg.arbCtlLen t.len
  (List.range 256).foldl (fun w k =>
    match t.owners.find? fun o => o.1 == k with
    | some o => (w.wr base (Reg.arbSlotOwner k) o.2).wr base (Reg.arbSlotValid k) 1
    | none => (w.wr base (Reg.arbSlotOwner k) ((t.idle.lookup k).getD 0)).wr base (Reg.arbSlotValid k) 0) w

/-- Exchange the shadow and the active table. -/
def Wafer.arbExchange (w : Wafer) (base : Nat) : Wafer :=
  let a := w.arbTable base
  let sh := w.arbShadow base
  let w := { w with canal := { w.canal with arbs := mapSet arbReset w.canal.arbs base sh } }
  w.setArbShadow base a

/-- Step 6 of a boundary: tables whose SWAP bit was written are exchanged. -/
def Wafer.applySwaps (w : Wafer) : Wafer :=
  let l := w.cmd.swaps
  l.foldl (fun w b => w.arbExchange b) { w with cmd := { w.cmd with swaps := [] } }

/-- ARB_SWAP (R176): a write of 1 to SWAP of the arbiter at a BAR0 base. -/
def execArbSwap (path base : Nat) (s : State) : Host.Outcome State Fault Refusal :=
  s.updIf (arbUnit base).isSome fun w => w.askSwap path base

end Sys2Proof.Machine
end

