-- ==== Sys2Proof/Machine/PowerOps.lean ====
section
/-!
DEFINITION. Sys2Proof/Machine/PowerOps.lean: what the meanings share about power: events (Table 14-8), gears and rails
(R337, R338), the brake (R341 to R343), field power states (R333 to R336), hardware causes (R334) and standby (R347, R348).
-/

namespace Sys2Proof.Machine

/-! ## Events -/

/-- PWR_EVENT holds the first event since its VALID bit was cleared. -/
def Wafer.powerEvent (w : Wafer) (code field region : Nat) : Wafer :=
  w.recordFirst pwrBase Reg.pwrEventValid [(Reg.pwrEventCode, code), (Reg.pwrEventField, field), (Reg.pwrEventRegion, region)]

/-- An event of Table 14-8 that is no job fault. -/
def Wafer.powerMgmt (w : Wafer) (code field detail : Nat) : Wafer :=
  (w.powerEvent code field 0).mgmt ⟨0x0A00 + code, detail⟩

/-- An event that is a job fault if `used`, and a management event and status otherwise. (Log 7 DEDUCED.) -/
def Wafer.powerFault (w : Wafer) (code field region detail : Nat) (used : Bool) : Wafer :=
  let w := w.powerEvent code field region
  if used then w.jobFault (0x0A00 + code) detail else w.notify (0x0A00 + code) detail

/-! ## Input power (R327) -/

/-- The sliding averages of the input power over 10 µs and 100 µs, in µW. A sample that has not been taken counts nothing.
(Log 51 DEDUCED.) -/
def PowerSt.avg10 (p : PowerSt) : Nat := 10 * (p.samples.take 10).foldl (· + ·) 0
def PowerSt.avg100 (p : PowerSt) : Nat := (p.samples.take 100).foldl (· + ·) 0

/-- A power in W as the averages count it. -/
def microwatts (watts : Nat) : Nat := 1000000 * watts

/-! ## Gears and rails -/

/-- The rail of a field at a gear (R337), mV. -/
def Wafer.railFor (w : Wafer) (f mhz : Nat) : Nat :=
  let g := gearIdx mhz
  min 750 (gearRail.getD g 480 + 5 * (w.marginRec f).offsets.getD g 0)

/-- Set a field's rail target. What the sensor then measures is left open. -/
def Wafer.setRail (w : Wafer) (f mv : Nat) : Wafer :=
  if w.rd (fieldBase f) Reg.fpwVoltVset = mv then w
  else
    let (x, w) := w.fresh
    w.wrs (fieldBase f) [(Reg.fpwVoltVset, mv), (Reg.fpwVoltVmeas, if mv = 0 then 0 else x)]

/-- The regulator reports ready: the rail lies within 10 mV of its target (Table 14-4). -/
def Wafer.railGood (w : Wafer) (f : Nat) : Wafer :=
  let (x, w) := w.fresh
  w.wr (fieldBase f) Reg.fpwVoltVmeas (w.rd (fieldBase f) Reg.fpwVoltVset - 10 + x % 21)

/-- The top gear of the margin plan and the derate, and the thermal gear. -/
def Wafer.gearLimit (w : Wafer) (f : Nat) : Nat :=
  min (w.rd (fieldBase f) Reg.fpwGearThermal) (w.rd (fieldBase f) Reg.fpwGearTop)

/-- The gear due on a field (R22 step 4, R340). -/
def Wafer.gearTarget (w : Wafer) (f : Nat) : Nat :=
  min (min (w.rd pwrBase Reg.pwrGearCmd) (w.rd pwrBase Reg.pwrGearCapgear)) (w.gearLimit f)

def Wafer.applied (w : Wafer) (f : Nat) : Nat := w.rd (fieldBase f) Reg.fpwGearApplied

/-- The frequency switches; a rail that lies above the gear's slews down after it. -/
def Wafer.switchGear (w : Wafer) (f mhz : Nat) : Wafer := (w.wr (fieldBase f) Reg.fpwGearApplied mhz).setRail f (w.railFor f mhz)

def Wafer.dropRaise (w : Wafer) (f : Nat) : Wafer :=
  w.setFieldPower f { w.fieldPower f with raising := none, railReady := false }

/-- Fields in RUN. -/
def Wafer.runFields (w : Wafer) : List Nat := (List.range 112).filter fun f => w.fieldState f == 0

/-! ## The brake -/

def Wafer.braking (w : Wafer) : Bool := w.power.levels.any Option.isSome

/-- The lowest level among the active sources, W. -/
def Wafer.brakeLevel (w : Wafer) : Option Nat :=
  w.power.levels.foldl (fun (a : Option Nat) l => match a, l with
    | none, l => l
    | a, none => a
    | some a, some l => some (min a l)) none

def Wafer.syncBrake (w : Wafer) : Wafer :=
  w.wrs pwrBase [(Reg.pwrStatBrake, b2n w.braking), (Reg.pwrStatBrksrc, maskOf 5 fun i => (w.power.levels.getD i none).isSome)]

/-- Every RUN field switches to 300 MHz, and a raise whose rail slews is abandoned (R342, R349). (Log 52 DESIGN CHOICE.) -/
def Wafer.brakeFields (w : Wafer) : Wafer := w.runFields.foldl (fun w f => (w.dropRaise f).switchGear f 300) w

/-- The levels of the six sources with one of them set. (Log 52 DESIGN CHOICE.) -/
def levelsWith (l : List (Option Nat)) (i : Nat) (lvl : Option Nat) : List (Option Nat) :=
  (List.range 6).map fun k => if k = i then lvl else l.getD k none

/-- REF of an internal entry for a brake action: the source. (Log 61 DESIGN CHOICE.) -/
def brakeRef (i : Nat) : Nat := 0x4000 + i

/-- The coolant as it is measured (R327), in 0.01 °C. -/
def Wafer.showCoolant (w : Wafer) (tin tout : Nat) : Wafer :=
  w.wrs pwrBase [(Reg.pwrCoolTin, min tin 0xFFFF), (Reg.pwrCoolTout, min tout 0xFFFF)]

/-- Set or release a source: 0 pin, 1 command, 2 undervoltage, 3 cap loop, 4 overpower, 5 ordered shutdown. A source that is not the
command's is recorded in the tally as a change of the module's own (R316, R317). -/
def Wafer.setSource (w : Wafer) (i : Nat) (lvl : Option Nat) : Wafer :=
  let was := w.braking
  let old := w.brakeLevel
  let w := if i = 1 ∨ w.power.levels.getD i none = lvl then w else w.tallySelf (brakeRef i)
  let w := ({ w with power := { w.power with levels := levelsWith w.power.levels i lvl } } : Wafer).syncBrake
  if w.braking then
    if was then { w with power := { w.power with fresh := w.power.fresh || w.brakeLevel != old } }
    else
      let w := { w with power := { w.power with fresh := true, releasing := false, short := false, slowed := true } }
      (w.count pwrBase Reg.pwrBrakes).brakeFields
  else if was then { w with power := { w.power with releasing := true, fresh := false } }
  else w

def Wafer.cap (w : Wafer) : Nat := w.rd pwrBase Reg.pwrCapCap
/-- The cap loop's cap: the last one while pair 2's duties are not served (R306). -/
def Wafer.loopCap (w : Wafer) : Nat := w.power.capKept.getD w.cap
/-- BRKPCT, or another percentage, of a power. (Log 52 DESIGN CHOICE.) -/
def pctOf (pct watts : Nat) : Nat := watts * pct / 100
def Wafer.brkpct (w : Wafer) : Nat := w.rd pwrBase Reg.pwrCapBrkpct

/-- A measurement of the input in mV and 0.1 A (R327, R341): a 100 µs average above 44 kW is the overpower source. -/
def Wafer.takeSample (w : Wafer) (volt curr : Nat) : Wafer :=
  let w := { w with power := { w.power with samples := ((volt * curr) :: w.power.samples).take 100 } }
  let avg100 := w.power.avg100
  let w := w.wrs pwrBase [(Reg.pwrInputVolt, volt), (Reg.pwrInputCurr, curr), (Reg.pwrInputPower, avg100 / microwatts 10)]
  if microwatts 44000 < avg100 ∧ (w.power.levels.getD 4 none).isNone = true then w.setSource 4 (some (pctOf w.brkpct 44000)) else w

/-- The command source: applied at a level in percent of the cap, 0 for BRKPCT, or released. -/
def Wafer.commandBrake (w : Wafer) (apply : Bool) (level : Nat) : Wafer :=
  let w := w.wrs pwrBase [(Reg.pwrBrakeApply, b2n apply), (Reg.pwrBrakeLevel, level)]
  w.setSource 1 (if apply then some (pctOf (if level = 0 then w.brkpct else level) w.cap) else none)

/-- A new cap takes effect (R339, R349): the cap loop's brake level follows it. -/
def Wafer.setCap (w : Wafer) (watts : Nat) : Wafer :=
  let w := w.wr pwrBase Reg.pwrCapCap (min watts 44000)
  if (w.power.levels.getD 3 none).isSome then w.setSource 3 (some w.loopCap) else w

/-- Pair 2's duties are served again: the cap loop takes the cap that stands. -/
def Wafer.freeCap (w : Wafer) : Wafer :=
  if w.power.capKept.isSome then ({ w with power := { w.power with capKept := none } } : Wafer).setCap (w.rd pwrBase Reg.pwrCapCap) else w

/-! ## What FALLOW loses (Table 14-5) -/

/-- A register field of a field window that FALLOW and a FIELD reset keep. -/
def keptInFallow (key : Nat) : Bool :=
  let off := key / 64
  let lo := key % 64
  match blockOf off with
  | some (.fpw, b) => off - b == 0x00 || off - b == 0x20 || off - b == 0x28 || (off - b == 0x08 && decide (20 ≤ lo))
  | some (.agm, b) => off - b == 0x10 && decide (10 ≤ lo) && decide (lo < 48)
  | some (.coremap, _) => true
  | some (.rect, _) => true
  | some (.tir, b) => off - b == 0x00 || off - b == 0x08
  | some (.arb, b) => (off - b == 0x00 && lo == 8) || off - b == 0x10
  | _ => false

/-- The key lies in a field's window. -/
def inWindow (f key : Nat) : Bool := decide (fieldBase f * 64 ≤ key ∧ key < fieldBase (f + 1) * 64)

/-- Every register of the field but those of Table 14-5 returns to its reset value, and its units are emptied. -/
def Wafer.clearField (w : Wafer) (f : Nat) : Wafer :=
  let w := { w with
    regs := mapClear (fun k => inWindow f k && !keptInFallow k) w.regs
    engines := w.engines.filter fun e => e.1 / 40 != f
    gmes := w.gmes.filter fun e => e.1 / 4 != f
    tiers := w.tiers.filter fun e => e.1 / 4 != f
    canal := { w.canal with conf := w.canal.conf.filter fun e => e.1 / 40 != f } }
  let w := w.loseCores (rangeFrom (20 * f) 20)
  let w := w.syncFenced (fField f)
  (w.fences.filter fun (r : FenceRec) => r.unit.kind == .arbiter && r.unit.field == f && decide (1024 ≤ r.unit.index)).foldl
    (fun w (r : FenceRec) => w.syncFenced r.unit) w

/-- Core memory, cluster memory and the accumulator stores of a field hold code word zero. (Log 6 DESIGN CHOICE.) -/
def Wafer.zeroField (w : Wafer) (f : Nat) : Wafer :=
  { w with
    coreMem := w.coreMem.zero (coreAddr (20 * f) 0) (coreAddr (20 * f + 20) 0)
    cluMem := w.cluMem.zero (cluAddr (4 * f) 0) (cluAddr (4 * f + 4) 0)
    accMem := w.accMem.zero (accAddr (40 * f) 0 0) (accAddr (40 * f + 40) 0 0) }

/-! ## Field power states -/

def Wafer.fieldTarget (w : Wafer) (f : Nat) : Nat := w.rd (fieldBase f) Reg.fpwStateTarget
def Wafer.fieldMoving (w : Wafer) (f : Nat) : Bool := w.rd (fieldBase f) Reg.fpwStateTrans == 1

/-- A FIELD_STATE that is at work on a field, and the state it asks for. -/
def fieldStateOf (f : Nat) (x : InFlight) : Option Nat :=
  if x.opcode = 0x0504 ∧ x.working = true ∧ fieldAt x.p.params 0 1 = f then some (fieldAt x.p.params 1 1) else none

/-- The field has reached a state: FIELD_STATE commands that asked for it are done. -/
def Wafer.stateReached (w : Wafer) (f st : Nat) : Wafer := w.finishAll (fun x => fieldStateOf f x == some st) 0 0

/-- The field begins to enter a state from RUN. -/
def Wafer.enterState (w : Wafer) (f st : Nat) : Wafer :=
  let p := w.fieldPower f
  let w := w.setFieldPower f { p with goal := none, repeating := false, step := 0, raising := none, railReady := false }
  w.wrs (fieldBase f) [(Reg.fpwStateTarget, st), (Reg.fpwStateTrans, 1)]

/-- The region of a field is lost (R329). -/
def Wafer.regionLost (w : Wafer) (f : Nat) : Bool := bit (w.rd pwrBase Reg.pwrStatRegionlost) (f / 7)

/-- The hardware causes that hold a field in FALLOW (R334), first cause first. -/
def Wafer.holdCauses (w : Wafer) (f : Nat) : List Nat :=
  (w.fieldPower f).holds ++ (if w.regionLost f && !(w.fieldPower f).holds.contains 5 then [5] else [])

/-- A field may take a wake. -/
def Wafer.canWake (w : Wafer) (f : Nat) : Bool := w.powered && (w.holdCauses f).isEmpty

/-- A wake begins from REST, DOZE or FALLOW; with the regulator's step the rail goes to the gear in effect (R349).
(Log 50 DESIGN CHOICE.) -/
def Wafer.beginWake (w : Wafer) (f source : Nat) : Wafer :=
  let st := w.fieldState f
  let w := if st = 3 then w.clearField f else w
  let w := w.wrs (fieldBase f) [(Reg.fpwStateTarget, 0), (Reg.fpwStateTrans, 1), (Reg.fpwStateLastwake, source),
    (Reg.fpwStateWaketick, w.tick)]
  let w := if st = 3 then w.setFieldPower f { w.fieldPower f with thermal := 600, cool := 0 } else w
  if st = 1 then w
  else (w.setFieldPower f { w.fieldPower f with step := 1 }).setRail f (w.railFor f (if w.braking then 300 else w.gearTarget f))

/-- FIELD_STATE or PLACE sets the state target to RUN: a level source, with Shepherd's wake message (R336). -/
def Wafer.wakeField (w : Wafer) (f : Nat) : Wafer :=
  if !w.canWake f then w
  else
    let p := w.fieldPower f
    if w.fieldMoving f then
      if w.fieldTarget f = 0 then w else w.setFieldPower f { p with goal := some (p.goal.getD 0) }
    else if w.fieldState f = 0 then w
    else
      let w := (w.beginWake f 1).emit (.signal (.wake f))
      w.setFieldPower f { w.fieldPower f with repeating := true }

/-- The field is in RUN: it takes the gear in effect (R349) and its tick (R335), and its area port may light. -/
def Wafer.enterRun (w : Wafer) (f : Nat) : Wafer :=
  let goal := (w.fieldPower f).goal
  let w := w.setFieldPower f { w.fieldPower f with step := 0, goal := none, repeating := false }
  let w := w.wrs (fieldBase f) [(Reg.fpwStateState, 0), (Reg.fpwStateTarget, 0), (Reg.fpwStateTrans, 0)]
  let w := w.switchGear f (if w.braking then 300 else w.gearTarget f)
  let w := w.loadReplica f
  let w := (w.relight (64 + f)).stateReached f 0
  match goal with
  | some st => if st = 0 then w else w.enterState f st
  | none => w

/-- A FIELD_STATE takes effect (R333). (Log 49 DESIGN CHOICE.) -/
def Wafer.moveField (w : Wafer) (f st : Nat) : Wafer :=
  let old := fun (x : InFlight) => match fieldStateOf f x with
    | some s => s != st && s != w.fieldTarget f
    | none => false
  let w := w.finishAll old 0x0401 0
  if w.fieldMoving f then
    if w.fieldTarget f = st then w.setFieldPower f { w.fieldPower f with goal := none }
    else w.setFieldPower f { w.fieldPower f with goal := some st }
  else if w.fieldState f = st then w.stateReached f st
  else if w.fieldState f = 0 then w.enterState f st
  else
    let w := w.wakeField f
    if st = 0 then w else w.setFieldPower f { w.fieldPower f with goal := some st }

/-- Fence a unit that no fence holds yet, for a cause that is itself the fault (R368). -/
def Wafer.fenceOnce (w : Wafer) (u : FenceUnit) (cls : Nat) : Wafer := if w.fenced u then w else w.raiseFence u cls false

/-- The fences of a field that a cause takes away: the field and its area port, before their power goes (R26). -/
def Wafer.fenceAway (w : Wafer) (f cls : Nat) : Wafer := (w.fenceOnce (fField f) cls).fenceOnce (fPort (64 + f)) cls

/-- A hardware cause makes a field fallow (R334): the fences come first; a field of a running job is FIELD_FALLOWED. A
FIELD_STATE at work on the field ends with 0x0406. Fallowing is recorded in the tally (R316). (Log 52 DESIGN CHOICE.) -/
def Wafer.fallowField (w : Wafer) (f code : Nat) (used : Bool) : Wafer :=
  let p := w.fieldPower f
  let w := w.setFieldPower f { p with
    holds := if p.holds.contains code then p.holds else p.holds ++ [code]
    goal := none, repeating := false, step := 0, raising := none, railReady := false }
  if w.fieldTarget f = 3 then w
  else
    let w := (w.tallySelf (0x0A00 + code)).fenceAway f (0x0A00 + code)
    let w := if used then w.powerFault 0x11 f 0 (detailField f) true else w
    let w := w.finishAll (fun x => (fieldStateOf f x).isSome) 0x0406 0
    w.wrs (fieldBase f) [(Reg.fpwStateTarget, 3), (Reg.fpwStateTrans, 1)]

/-! ## Standby -/

/-- The stacks are switched off: what they held is lost (R179). (Log 6 DESIGN CHOICE.) -/
def Wafer.stacksOff (w : Wafer) : Wafer :=
  { w with stkMem := {}, reservoir := { w.reservoir with ready0 := [], ready1 := [] }, health := { w.health with quayLost := true } }

/-- The module drops to standby once every field is FALLOW (PWR_STAT.STATE 3 to 0). (Log 52 DESIGN CHOICE.) -/
def Wafer.settleStandby (w : Wafer) : Wafer :=
  if w.rd pwrBase Reg.pwrStatState = 3 ∧ (List.range 112).all (fun f => w.fieldState f == 3 && !w.fieldMoving f) = true
  then w.stacksOff.wr pwrBase Reg.pwrStatState 0 else w

/-- A flood or a survey is abandoned (R358, R363). (Log 49 DESIGN CHOICE.) -/
def Wafer.abandonFlood (w : Wafer) : Wafer :=
  let w := if w.health.flood.isSome then
      (w.wrs hltBase [(Reg.hltFloodState, 3), (Reg.hltCtlService, 0)]).finishAll (fun x => x.opcode == 0x0603 && x.working) 0x0503 0
    else w
  let w := w.finishAll (fun x => x.opcode == 0x0604 && x.working) 0x0503 0
  ({ w with health := { w.health with flood := none, retests := [], surveyTodo := [], surveying := [], surveyPlan := none } } : Wafer).wr
    hltBase Reg.hltSurveyRunning 0

/-- Power goes from every field and port: shutting down, ports dark (R207), a flood abandoned. -/
def Wafer.cutPower (w : Wafer) : Wafer :=
  let w := (w.wr pwrBase Reg.pwrStatState 3).abandonFlood
  (w.portsWhere (fun s => s != 0 && s != 7)).foldl (fun w i => w.darken i 10) w

/-- Every field and port is fenced, before the power that they lose goes (R26). -/
def Wafer.fenceAll (w : Wafer) (cls : Nat) : Wafer :=
  (List.range 176).foldl (fun w i => w.fenceOnce (fPort i) cls) ((List.range 112).foldl (fun w f => w.fenceOnce (fField f) cls) w)

/-- The ordered shutdown (R347). -/
def Wafer.orderedShutdown (w : Wafer) (code field detail : Nat) : Wafer :=
  if w.power.shutdown then w
  else
    let used := (List.range 112).filter fun f => w.fieldInRun f
    let w := w.tallySelf (0x0A00 + code)
    let w := { w with power := { w.power with shutdown := true } }
    let w := w.setSource 5 (some 0)
    let w := w.powerFault code field 0 detail w.armedOrRunning
    let w := (w.fenceAll (0x0A00 + code)).cutPower
    let w := (List.range 112).foldl (fun w f => w.fallowField f code (used.contains f)) w
    w.settleStandby

/-- The module asserts ALERT_N (R390): a valid fault record waits to be cleared, or it is in standby after an ordered shutdown. Without
standby power it drives no output (R388). (Log 72 DEDUCED.) -/
def Wafer.alertAsserted (w : Wafer) : Bool :=
  w.power.standby && (w.rd pwrBase Reg.pwrEventValid == 1 || w.rd hltBase Reg.hltJobfaultValid == 1 ||
    w.rd hltBase Reg.hltMeventValid == 1 || (w.power.shutdown && w.rd pwrBase Reg.pwrStatState == 0))

/-- PWR_OK (Table 17-3, R388): high while the standby rails are in regulation; RESET_N is high between commands.
(Log 72 DEDUCED.) -/
def Wafer.pwrOk (w : Wafer) : Bool := w.power.standby

end Sys2Proof.Machine
end

