-- ==== Sys2Proof/Machine/CmdOps.lean ====
section
/-!
DEFINITION. Sys2Proof/Machine/CmdOps.lean: what every command packet shares (R285 to R292, R297): its bytes, its source's sequence
numbers, the header checks of Table 12-5, acceptance, and the effect at its boundary with the checks made again there.
-/

namespace Sys2Proof.Machine

/-- What the work of a command comes to: the module after it, the final status with its DETAIL and data, or `working` when the
final reply comes later. -/
structure CmdRes where
  w : Wafer
  status : Nat := 0
  detail : Nat := 0
  data : List Byte := []
  working : Bool := false

/-- A row of Tables 12-9 and 12-12. -/
structure CmdSpec where
  opcode : Nat
  /-- Marked "now": it acts during its acceptance tick. -/
  now : Bool := false
  /-- Marked "job": checked by job tag. -/
  job : Bool := false
  /-- It changes no state: it leaves no tally entry and runs with a full tally. -/
  reads : Bool := false
  /-- The step of Table 1-5 at which it takes effect. -/
  step : Nat := 7
  /-- The pair of Shepherd whose duty its effect is (Table 13-1): the effect waits until that duty is served. -/
  duty : Nat := 0
  /-- The parameter lengths it takes. -/
  len : Nat → Bool
  /-- Reserved parameter bytes: offset and length. -/
  resv : List (Nat × Nat) := []
  /-- Its own parameter and state checks (R290, order 6): status and DETAIL, status 0 when they hold. -/
  check : Wafer → Packet → Nat × Nat := fun _ _ => (0, 0)
  /-- Checks made at acceptance only, ahead of those. -/
  accept : Wafer → Packet → Nat × Nat := fun _ _ => (0, 0)
  /-- Its target unit is fenced (R291). -/
  fenced : Wafer → Packet → Bool := fun _ _ => false
  /-- It completes with DONE and changes nothing (R291: a FENCE of a unit that is fenced). -/
  idle : Wafer → Packet → Bool := fun _ _ => false
  /-- The digest of what it changes, as that stands in a state (OLD and NEW of Table 13-5), where the spec fixes the order of what
  is digested. -/
  sum : Option (Wafer → Packet → Nat) := none
  act : Wafer → InFlight → CmdRes

/-- The length is exactly n. -/
def lenIs (n : Nat) (k : Nat) : Bool := k == n

/-! ## The bytes of a packet (Table 12-4) -/

/-- The reserved fields of every header: offset and bytes. (Log 11 DEDUCED.) -/
def headerFields : List (Nat × Nat) := [(1, 7), (20, 4), (30, 2), (36, 4), (56, 8)]

/-- The first reserved header field that is not zero. (Log 11 DEDUCED.) -/
def headerReserved (h : List Byte) : Option Nat := (headerFields.find? fun r => fieldAt h r.1 r.2 != 0).map (·.1)

/-- A packet read from 64 header bytes and what follows them: its opcode, and the packet. A LEN above 4,032 shows as parameters
longer than any command takes. -/
def packetOf (path origin : Nat) (l : List Byte) : Nat × Packet :=
  (fieldAt l 8 2,
   { path := path, origin := origin, flags := fieldAt l 10 2, seq := fieldAt l 12 4, target := fieldAt l 24 6
     jobTag := fieldAt l 32 4, rdaddr := fieldAt l 40 8, rdlen := fieldAt l 48 4, cookie := fieldAt l 52 4
     reserved := headerReserved l, params := bytesAt l 64 (min (fieldAt l 16 4) 4033) })

/-- A command message (R297): the header with bytes 0 to 7 zero, then its parameters; a body whose length LEN does not give is
read as too long. (Log 64 DESIGN CHOICE.) -/
def messageOf (path origin : Nat) (l : List Byte) : Nat × Packet :=
  let (op, p) := packetOf path origin l
  (op, { p with reserved := if fieldAt l 0 1 != 0 then some 0 else p.reserved
                params := if l.length = 64 + fieldAt l 16 4 then p.params else List.replicate 4033 0#8 })

/-! ## Sources and sequence numbers (R288) -/

/-- The key of a management-lane or MCTP source. -/
def sourceKey (p : Packet) : Nat := p.path * 2 ^ 40 + p.origin % 2 ^ 40

/-- NEXT of the packet's source. -/
def Wafer.nextSeq (w : Wafer) (p : Packet) : Nat :=
  if p.path < 2 then w.rd (cmdBase p.path) Reg.cmdSeqNext else mapGet (fun _ => 0) w.cmd.next (sourceKey p)

def Wafer.setNext (w : Wafer) (p : Packet) (n : Nat) : Wafer :=
  if p.path < 2 then w.wr (cmdBase p.path) Reg.cmdSeqNext n
  else { w with cmd := { w.cmd with next := mapSet (fun _ => 0) w.cmd.next (sourceKey p) (n % 2 ^ 32) } }

/-- What R288 makes of a sequence number. -/
inductive SeqClass where
  | take | hold | duplicate | outside
  deriving DecidableEq, Repr

def seqClass (next seq : Nat) : SeqClass :=
  let d := (seq + 2 ^ 32 - next % 2 ^ 32) % 2 ^ 32
  if d = 0 then .take else if d ≤ 4095 then .hold else if 2 ^ 32 - 4096 ≤ d then .duplicate else .outside

/-- Count at the packet's port; the management lane and MCTP have no counters. -/
def Wafer.countPort (w : Wafer) (p : Packet) (f : Fld) : Wafer := if p.path < 2 then w.count (cmdBase p.path) f else w

/-- A refusal: one reply, no effect. (Log 58 DESIGN CHOICE.) -/
def Wafer.refusePacket (w : Wafer) (opcode : Nat) (p : Packet) (status detail : Nat) : Wafer :=
  (w.countPort p Reg.cmdRefused).reply opcode p status 0 detail []

/-! ## Checks (R290) -/

/-- In the ROM recovery service only these opcodes are taken (R311). -/
def recoveryTakes (op : Nat) : Bool := op ∈ [0x0000, 0x0001, 0x0606, 0x0701, 0x0702, 0x0703, 0x0706]

def Wafer.inRecovery (w : Wafer) : Bool := w.rd 0 Reg.shpStatRecovery == 1

/-- The command interpreter takes packets from a path: pair 0's duty is served (R306); the recovery service answers on port A and
on MCTP only. -/
def Wafer.interprets (w : Wafer) (path : Nat) : Bool := w.dutyUp 0 && (!w.inRecovery || path == 0 || path == 3)

/-- Order 4 of Table 12-5. -/
def targetStatus (now : Bool) (target tick : Nat) : Nat :=
  if target = 0 then 0
  else if !tickFuture target tick then 0x0404
  else if now || decide (2 ^ 24 < tickDiff target tick) then 0x0104
  else 0

/-- Order 5: the tag of the module's job; an ARM brings the tag of the job it arms, whose ID is not 0 (R223). -/
def Wafer.tagStatus (w : Wafer) (sp : CmdSpec) (p : Packet) : Nat :=
  let ok := if sp.opcode = 0x0103 then decide (p.jobTag / 2 ^ 16 ≠ 0) else if sp.job then p.jobTag == w.job.tag else p.jobTag == 0
  if ok then 0 else 0x0405

/-- Checks that are made again at the boundary: the tag of a job command, room in the tally (R317), and the command's own. -/
def Wafer.stateStatus (w : Wafer) (sp : CmdSpec) (p : Packet) : Nat × Nat :=
  if w.tagStatus sp p ≠ 0 then (0x0405, 0)
  else if !sp.reads && w.tallyFull then (0x0503, 0)
  else sp.check w p

/-- A reserved parameter byte that is not zero: DETAIL gives its offset in the packet. (Log 11 DEDUCED, 58 DESIGN CHOICE.) -/
def reservedParam (sp : CmdSpec) (p : Packet) : Option Nat :=
  (sp.resv.find? fun r => fieldAt p.params r.1 r.2 != 0).map fun r => 64 + r.1

/-- The checks of Table 12-5 in order. DETAIL of 0x0103 is the offset of the field in the packet.
(Log 11 DEDUCED, 58 DESIGN CHOICE.) -/
def Wafer.headerStatus (w : Wafer) (sp : CmdSpec) (p : Packet) : Nat × Nat :=
  if w.inRecovery && !recoveryTakes sp.opcode then (0x0401, 0)
  else if 4032 < p.params.length || !sp.len p.params.length then (0x0102, 0)
  else if p.reserved.isSome then (0x0103, p.reserved.getD 0)
  else if p.flags / 2 ≠ 0 then (0x0103, 10)
  else if p.path < 2 ∧ p.flags % 2 = 1 ∧ p.rdaddr % 64 ≠ 0 then (0x0103, 40)
  else match reservedParam sp p with
    | some o => (0x0103, o)
    | none =>
      let t := targetStatus sp.now p.target w.tick
      if t ≠ 0 then (t, 0)
      else if w.tagStatus sp p ≠ 0 then (0x0405, 0)
      else if (sp.accept w p).1 ≠ 0 then sp.accept w p
      else w.stateStatus sp p

/-! ## The effect -/

/-- The digest of registers as they stand, in order of offset (Table 13-5). -/
def regSum (w : Wafer) (offs : List Nat) : Nat := digest12 (offs.flatMap fun o => natLE 8 (w.reg64 o))

/-- OLD or NEW of a command's entry: the digest of what the command changes, as it stands in a state. (Log 61 DESIGN CHOICE.) -/
def changeSum (sp : CmdSpec) (p : Packet) (w : Wafer) (index side : Nat) : Nat :=
  match sp.sum with
  | some f => f w p
  | none => Config.changeDigest index side (packetMessage sp.opcode p)

/-- A command's entry in the tally (Table 13-5): KIND 0 applied, KIND 1 refused at its boundary; `after` is the module as the
command leaves it. (Log 58 DESIGN CHOICE.) -/
def Wafer.tallyCmd (w after : Wafer) (sp : CmdSpec) (p : Packet) (kind status : Nat) : Wafer :=
  if sp.reads then w
  else
    let i := w.rd secBase Reg.secTallyNext
    w.tally p.path kind sp.opcode status p.seq (if p.path < 2 then p.origin % 2 ^ 12 else p.origin) (changeSum sp p w i 0)
      (changeSum sp p after i 1)

/-- The final reply of a packet in flight, which leaves. (Log 58 DESIGN CHOICE, 71 DESIGN CHOICE.) -/
def Wafer.answer (w : Wafer) (fl : InFlight) (status detail : Nat) (data : List Byte) : Wafer :=
  match indexOf? (fun x => x == fl) w.cmd.inflight.reverse with
  | none => w.inflightCount
  | some i =>
    let w := { w with cmd := { w.cmd with inflight := (dropAt w.cmd.inflight.reverse i).reverse } }
    (w.reply fl.opcode fl.p status 0 detail data true).inflightCount

/-- The command acts. While it does, it stands among the packets in flight. -/
def Wafer.perform (w : Wafer) (sp : CmdSpec) (fl : InFlight) : Wafer :=
  let fl := { fl with working := true }
  let put := fun (w : Wafer) => ({ w with cmd := { w.cmd with inflight := w.cmd.inflight ++ [fl] } } : Wafer)
  let pre := sp.act (put w) fl
  let r := sp.act (put (w.tallyCmd pre.w sp fl.p (if pre.status = 0 then 0 else 1) pre.status)) fl
  if r.working then r.w.inflightCount else r.w.answer fl r.status r.detail r.data

/-- A command's effect at its boundary (R291): a fenced target, or a state check that now fails, ends it with no effect. -/
def Wafer.takeEffect (w : Wafer) (sp : CmdSpec) (fl : InFlight) : Wafer :=
  let st := if sp.fenced w fl.p then (0x0406, 0) else w.stateStatus sp fl.p
  if st.1 = 0 then if sp.idle w fl.p then (w.reply fl.opcode fl.p 0 0 0 [] true).inflightCount else w.perform sp fl
  else ((w.tallyCmd w sp fl.p 1 st.1).reply fl.opcode fl.p st.1 0 st.2 [] true).inflightCount

/-! ## Acceptance -/

/-- Acceptance of a taken packet (R290, R291): a command marked "now" acts; any other is answered ACCEPTED and is in flight
until the boundary of its TARGET, or of the acceptance tick + 1. (Log 57 DESIGN CHOICE.) -/
def Wafer.acceptPacket (w : Wafer) (sp : CmdSpec) (p : Packet) : Wafer :=
  let st := w.headerStatus sp p
  if st.1 ≠ 0 then w.refusePacket sp.opcode p st.1 st.2
  else
    let due := if p.target = 0 then (w.tick + 1) % 2 ^ 48 else p.target
    let fl : InFlight := ⟨sp.opcode, p, w.tick, due, false, w.fenceSerial⟩
    if sp.now then w.perform sp fl
    else
      let w := w.reply sp.opcode p 0x0001 1 0 []
      ({ w with cmd := { w.cmd with inflight := w.cmd.inflight ++ [fl] } } : Wafer).inflightCount

/-- A taken packet advances NEXT and is counted. -/
def Wafer.takePacket (w : Wafer) (sp : CmdSpec) (p : Packet) : Wafer :=
  ((w.setNext p (p.seq + 1)).countPort p Reg.cmdTaken).acceptPacket sp p

/-- A packet at the interpreter (R288, R289, R293): taken, held back, or freed with 0x0402 or 0x0403. SEQ_RESET is taken at any
sequence number. (Log 57 DESIGN CHOICE.) -/
def Wafer.command (w : Wafer) (sp : CmdSpec) (p : Packet) : Wafer :=
  if !w.interprets p.path then w
  else if 4096 ≤ w.inflightTotal then w.count cmdmBase Reg.cmdFullscans
  else if p.path < 2 && !(w.cmdPort p.path).held.isEmpty then w
  else match if sp.opcode = 0x0002 then SeqClass.take else seqClass (w.nextSeq p) p.seq with
    | .take => w.takePacket sp p
    | .hold => w
    | .duplicate => w.refusePacket sp.opcode p 0x0402 0
    | .outside => w.refusePacket sp.opcode p 0x0403 0

/-- The meaning of a command row: its packet arrives at the interpreter. -/
def commandStep (sp : CmdSpec) (p : Packet) (s : State) : Host.Outcome State Fault Refusal :=
  s.updIf (decide (p.path < 4)) fun w => w.command sp p

end Sys2Proof.Machine
end

