-- ==== Sys2Proof/Machine/FloodOps.lean ====
section
/-!
DEFINITION. Sys2Proof/Machine/FloodOps.lean: how a flood begins (R350, R357), and a field that goes dark at once.
-/

namespace Sys2Proof.Machine

/-- The field's rail is off: FALLOW, at once. -/
def Wafer.railOff (w : Wafer) (f : Nat) : Wafer :=
  let p := w.fieldPower f
  let w := w.setFieldPower f { p with goal := none, repeating := false, step := 0, raising := none, railReady := false }
  (w.wrs (fieldBase f) [(Reg.fpwStateState, 3), (Reg.fpwStateTarget, 3), (Reg.fpwStateTrans, 0), (Reg.fpwVoltVset, 0),
    (Reg.fpwVoltVmeas, 0)]).relight (64 + f)

/-- Every field starts the flood in FALLOW. -/
def Wafer.allFallow (w : Wafer) : Wafer :=
  (List.range 112).foldl (fun w f => (w.clearField f).railOff f)
    { w with coreMem := {}, cluMem := {}, accMem := {} }

/-- A flood begins at step 1 or step 2. -/
def Wafer.beginFlood (w : Wafer) (full commanded step1 : Bool) : Wafer :=
  let service := w.rd hltBase Reg.hltCtlService == 1
  let w := w.finishAll (fun x => x.opcode == 0x0604 && x.working) 0x0503 0
  let w := w.finishAll (fun x => x.opcode == 0x0504 && x.working) 0x0401 0
  let w := { w with health := { w.health with
    floodDue := none, retests := [], surveyTodo := [], surveying := [], surveyPlan := none
    flood := some ⟨full, service, commanded, if step1 then 1 else 2, 0, [], [], [], [], []⟩ } }
  let w := w.wrs hltBase [(Reg.hltFloodState, 1), (Reg.hltFloodKind, b2n full), (Reg.hltFloodSvc, b2n service), (Reg.hltFloodLevel, 0),
    (Reg.hltFloodPassed, 0), (Reg.hltFloodFailed, 0), (Reg.hltSurveyRunning, 0)]
  let w := if commanded then w else w.wr pwrBase Reg.pwrStatState 1
  w.allFallow

end Sys2Proof.Machine
end

