-- ==== Sys2Proof/Machine/JobOps.lean ====
section
/-!
DEFINITION. Sys2Proof/Machine/JobOps.lean: lock program images (R127), what PLACE checks (R44, R170, R334) and does (R128, R191),
and the gear floor (R44, R45).
-/

namespace Sys2Proof.Machine

/-! ## Images (R127) -/

/-- Bytes [off, off + n) lie within `size` bytes. -/
def within (off n size : Nat) : Bool := decide (off + n ≤ size)

/-- Core table entry i: the core, or nothing when a check fails. -/
def imageCore (img : List Byte) (size tab fields stages i : Nat) : Option ImageCore :=
  let e := tab + 32 * i
  let at_ := fun o n => fieldAt img (e + o) n
  let codeOff := at_ 4 4
  let codeSize := at_ 8 4
  let codeBase := at_ 12 4
  let dataOff := at_ 16 4
  let dataSize := at_ 20 4
  let dataBase := at_ 24 4
  let entryOff := at_ 28 4
  let entries := (List.range stages).map fun k => fieldAt img (entryOff + 4 * k) 4
  if at_ 0 2 < fields ∧ at_ 2 1 < 4 ∧ at_ 3 1 < 4 ∧ codeSize % 8 = 0 ∧ codeSize ≤ 2 ^ 21 ∧ codeBase % 4096 = 0 ∧
      within codeBase codeSize (2 ^ 24) = true ∧ within codeOff codeSize size = true ∧ dataBase % 32 = 0 ∧
      within dataOff dataSize size = true ∧ within dataBase dataSize (2 ^ 24) = true ∧
      within entryOff (4 * stages) size = true ∧ entries.all (fun x => decide (x < codeSize)) = true then
    some ⟨at_ 0 2, at_ 2 1, at_ 3 1, codeBase, bytesAt img codeOff codeSize, dataBase, bytesAt img dataOff dataSize, entries⟩
  else none

/-- The logical core of an entry. -/
def ImageCore.logical (c : ImageCore) : Nat := c.lfield * 16 + c.cluster * 4 + c.core

/-- No number stands twice. -/
def noRepeat : List Nat → Bool
  | [] => true
  | x :: l => !l.contains x && noRepeat l

/-- Check an image (R127): the image, or the index of the core table entry that fails (0 for the header). -/
def parseImage (img : List Byte) : Except Nat Image :=
  let size := img.length
  let a := fieldAt img 8 4
  let l := fieldAt img 12 4
  let bmax := fieldAt img 16 4
  let cores := fieldAt img 32 2
  let fields := fieldAt img 34 2
  let budgetOff := fieldAt img 40 8
  let tab := fieldAt img 48 8
  if ¬ (128 ≤ size ∧ fieldAt img 0 4 = 0x4B434F4C ∧ fieldAt img 4 2 = 1 ∧ fieldAt img 6 2 = 128 ∧ 1 ≤ l ∧ a + l ≤ 2 ^ 24 ∧
      1 ≤ cores ∧ cores ≤ 1792 ∧ 1 ≤ fields ∧ fields ≤ 112 ∧ fieldAt img 56 8 = size ∧
      within budgetOff (4 * (a + l)) size = true ∧ within tab (32 * cores) size = true) then .error 0
  else
    let digest := sha3 (img.drop 128)
    let budgets := (List.range (a + l)).map fun k => fieldAt img (budgetOff + 4 * k) 4 % 2 ^ 18
    if ¬ (fieldAt img 64 32 = digest ∧ budgets.all (fun b => decide (b ≤ bmax)) = true ∧ budgets.contains bmax = true) then .error 0
    else
      let cs := (List.range cores).map fun i => imageCore img size tab fields (a + l) i
      match indexOf? Option.isNone cs with
      | some i => .error i
      | none =>
        let l' := cs.filterMap id
        let names := l'.map ImageCore.logical
        if !noRepeat names then .error (((List.range cores).find? fun i => (names.take i).contains (names.getD i 0)).getD 0)
        else .ok ⟨a, l, bmax, budgets, fieldAt img 24 8, fields, l', digest⟩

/-! ## The gear floor (R44, R45) -/

/-- The job gear floor changes. A field of the job whose thermal or top gear now lies below it is GEAR_BELOW_FLOOR. -/
def Wafer.setFloor (w : Wafer) (floor : Nat) : Wafer :=
  let old := w.rd pwrBase Reg.pwrGearFloor
  let w := w.wr pwrBase Reg.pwrGearFloor floor
  let w := if floor ≠ 0 ∧ w.rd pwrBase Reg.pwrGearCapgear < floor then w.wr pwrBase Reg.pwrGearCapgear floor else w
  w.job.placement.foldl (fun w f =>
    if w.gearLimit f < floor ∧ old ≤ w.gearLimit f then w.post ⟨0x0106, detailField f⟩ else w) w

/-! ## What PLACE checks -/

/-- A field that a placement may name (R15, R360). -/
def Wafer.fieldUsable (w : Wafer) (f : Nat) : Bool :=
  decide (f < 112) && w.health.map.current.isSome && (w.fieldRec f).status % 8 == 0 && !bit w.map.regions (f / 7)

/-- The wafer with the rectangles that the route check counts as fenced (R170). (Log 49 DESIGN CHOICE.) -/
def Wafer.routeView (w : Wafer) : Wafer :=
  let dark := (List.range 112).filter fun f => decide (2 ≤ w.fieldState f) || decide (2 ≤ (w.fieldRec f).status % 8)
  let failed := (List.range 112).flatMap fun f =>
    let m := (w.fieldRec f).rtrFail
    if m = 0 then [] else (rangeFrom (20 * f) 20).filter fun s => bit m (s % 20)
  let rects := dark.map fieldRect ++ failed.map fun s => ⟨siteX s, siteY s, siteX s, siteY s⟩
  { w with canal := { w.canal with rectsA := rects.foldl addRect w.canal.rectsA, rectsB := rects.foldl addRect w.canal.rectsB } }

/-- A flit sent on a plane comes to its destination. -/
def routed (w : Wafer) (f : Flit) : Nat → Bool
  | 0 => false
  | n + 1 => match hopOf w f with
    | .arrived => true
    | .move f => routed w f n
    | .drop _ => false

/-- Two sites have a route under R169, on one plane or the other. -/
def Wafer.hasRoute (w : Wafer) (a b : Nat) : Bool :=
  [0, 1].any fun plane =>
    planeCarries plane (siteX a) (siteY a) (siteX b) (siteY b) && !w.routerShut plane (siteX a) (siteY a) &&
    routed w { blankFlit plane (siteX a) (siteY a) a false with dx := siteX b, dy := siteY b } 1000

/-- The sites of a placement's cores. -/
def Wafer.placeSites (w : Wafer) (pl : List Nat) : List Nat :=
  pl.flatMap fun f => (List.range 16).map fun k => w.siteOf f (k / 4) (k % 4)

/-- Every pair of cores has a route. (Log 25 DEDUCED.) -/
def Wafer.routesOk (w : Wafer) (pl : List Nat) : Bool :=
  let v := w.routeView
  let l := w.placeSites pl
  l.all fun a => l.all fun b => a == b || v.hasRoute a b

/-- The table of a PLACE, as the quay holds it. -/
def Wafer.placeTable (w : Wafer) (p : Packet) : List Nat :=
  (w.quayRead (fieldAt p.params 0 8) ((w.job.image.map (·.fields)).getD 0)).map (·.toNat)

/-- A logical field whose entry PLACE refuses with 0x0103: unusable, repeated, or held in FALLOW by a hardware cause. -/
def Wafer.badEntry (w : Wafer) (pl : List Nat) : Option Nat :=
  (List.range pl.length).find? fun i =>
    let f := pl.getD i 0
    !w.fieldUsable f || (pl.take i).contains f || !(w.holdCauses f).isEmpty

/-- The gear floor of the loaded image at a period. -/
def Wafer.imageFloor (w : Wafer) (period : Nat) : Option Nat := (w.job.image.map (·.bmax)).bind fun b => gearFloor b period

/-- Every field's top gear reaches the floor. -/
def Wafer.topsReach (w : Wafer) (pl : List Nat) (floor : Nat) : Bool :=
  pl.all fun f => decide (floor ≤ w.rd (fieldBase f) Reg.fpwGearTop)

/-! ## What PLACE does (R128, R191) -/

/-- The cores of the last placement hold no program. -/
def Wafer.unplace (w : Wafer) : Wafer :=
  w.jobSites.foldl (fun w s =>
    let c := w.core s
    (w.setCore s { c with logical := none, codeBase := 0, codeSize := 0, entries := [], landing := [], waiting := [] }).wrs (siteBase s)
      [(Reg.seqStatState, 0), (Reg.seqStatHeld, 0), (Reg.seqStatCause, 0)]) w

/-- Write one core: its memory holds its code and initial data, and zero elsewhere. -/
def Wafer.placeCore (w : Wafer) (img : Image) (lfield f k : Nat) : Wafer :=
  let s := w.siteOf f (k / 4) (k % 4)
  let name := lfield * 16 + k
  let w := { w with coreMem := w.coreMem.zero (coreAddr s 0) (coreAddr (s + 1) 0) }
  let old := w.core s
  let base : Core := { old with
    copies := [], sends := [], landing := [], waiting := [], marked := false, logical := some name
    codeBase := 0, codeSize := 0, entries := [] }
  let w := w.wrs (siteBase s) [(Reg.seqStatState, 0), (Reg.seqStatHeld, 0), (Reg.seqStatCause, 0), (Reg.seqStatStage, 0)]
  let w := w.wrs (cnlBase s) [(Reg.cnlStatSends, 0), (Reg.cnlStatLanding, 0)]
  match img.cores.find? fun c => c.logical == name with
  | none => w.setCore s base
  | some c =>
    let m := (w.coreMem.write (coreAddr s c.codeBase) c.code).write (coreAddr s c.dataBase) c.data
    ({ w with coreMem := m } : Wafer).setCore s { base with codeBase := c.codeBase, codeSize := c.code.length, entries := c.entries }

/-- Cluster memory of a placed field: SCRATCH is set, here and in no cluster that the placement leaves out (Log 71 DESIGN CHOICE), the scratch part zeroed, and the weight cache frames start empty.
(Log 71 DESIGN CHOICE.) -/
def Wafer.placeCluster (w : Wafer) (cl scratch : Nat) : Wafer :=
  let w := w.wr (tirBase cl) Reg.tirSplitScratch scratch
  let w := { w with cluMem := w.cluMem.zero (cluAddr cl 0) (cluAddr cl (scratch * 2 ^ 21)) }
  let t := w.tier cl
  (w.setTier cl { t with frames := [], gets := [], prefetches := [] }).wrs (tirBase cl)
    [(Reg.tirStatFrames, 16 - scratch), (Reg.tirStatResident, 0), (Reg.tirStatPinned, 0), (Reg.tirStatFills, 0), (Reg.tirStatGets, 0)]

/-- PLACE commits: every placed field is in RUN. (Log 71 DESIGN CHOICE.) -/
def Wafer.commitPlace (w : Wafer) (img : Image) (pl : List Nat) (scratch : Nat) : Wafer :=
  let w := w.unplace
  let w := { w with health := { w.health with rowsDue := [] } }
  let w := (List.range pl.length).foldl (fun w lf =>
    let f := pl.getD lf 0
    let w := (List.range 16).foldl (fun w k => w.placeCore img lf f k) w
    (List.range 4).foldl (fun w c => w.placeCluster (4 * f + c) scratch) w) w
  let w := { w with job := { w.job with placement := pl, scratch := scratch, placing := none, faulted := false } }
  let w := w.setFloor ((w.imageFloor w.period).getD 0)
  (w.setPhase .placed).finish (fun x => x.opcode == 0x0102 && x.working) 0 0

/-- A PLACE at work goes on: it waits for the fields a survey works on (R363) and for every field to reach RUN (R334). A field
that a hardware cause takes meanwhile ends it with 0x0103. (Log 71 DESIGN CHOICE.) -/
def Wafer.placeProgress (w : Wafer) : Wafer :=
  match w.job.placing, w.job.image with
  | some (pl, scratch), some img =>
    match (List.range pl.length).find? fun i => !w.canWake (pl.getD i 0) || !w.fieldUsable (pl.getD i 0) with
    | some i =>
      ({ w with job := { w.job with placing := none } } : Wafer).finish (fun x => x.opcode == 0x0102 && x.working) 0x0103 i
    | none =>
      if pl.any fun f => w.health.surveying.contains f then w
      else
        let w := pl.foldl (fun w f => if w.fieldState f = 0 ∧ w.fieldMoving f = false then w else w.wakeField f) w
        if pl.all fun f => w.fieldState f == 0 && !w.fieldMoving f then w.commitPlace img pl scratch else w
  | _, _ => w

end Sys2Proof.Machine
end

