-- ==== Sys2Proof/Machine/ResetOps.lean ====
section
/-!
DEFINITION. Sys2Proof/Machine/ResetOps.lean: the reset classes (R374, R375, Table 16-5), and which units the wafer map marks
retired, lost or failed (R368).
-/

namespace Sys2Proof.Machine

/-- The unit's record in the wafer map marks it retired, lost or failed (R368). (Log 56 DESIGN CHOICE.) -/
def Wafer.mapRetired (w : Wafer) (u : FenceUnit) : Bool :=
  match u.kind with
  | .site => w.health.map.current.isSome && bit (w.fieldRec u.field).siteFail u.index
  | .cluster => bit ((w.fieldRec u.field).coremap.getD u.index 0) 16
  | .field => w.health.map.current.isSome && decide (2 ≤ (w.fieldRec u.field).status % 8)
  | .routerPlane => bit (w.fieldRec u.field).rtrFail (u.index / 2)
  | .port => w.health.map.current.isSome && decide ((portRec w u.index).status = 3)
  | .stackChannel =>
    w.health.map.current.isSome && !bit (mapGet (fun _ => ({} : StackRec)) w.map.stackRecs (u.index / 32)).active (u.index % 32)
  | .arbiter => false

/-- A field whose table gives no reset value: it holds its value over resets. -/
def noReset (key : Nat) : Bool :=
  let off := key / 64
  let lo := key % 64
  match blockOf off with
  | some (.shp, b) => off - b == 0x00 || off - b == 0x10
  | some (.sec, _) => true
  | some (.hlt, b) => off - b == 0x08 || (off - b == 0x10 && decide (lo < 55)) || off - b == 0x130
  | some (.fpw, b) => off - b == 0x20 || off - b == 0x28 || (off - b == 0x08 && decide (20 ≤ lo))
  | some (.agm, b) => off - b == 0x10 && decide (10 ≤ lo) && decide (lo < 48)
  | some (.coremap, _) => true
  | _ => false

/-- The registers of BAR0 offsets [lo, hi) return to their reset values, and writes to them that wait are lost. -/
def Wafer.clearRegs (w : Wafer) (lo hi : Nat) : Wafer :=
  let gone := fun off => decide (lo ≤ off ∧ off < hi)
  { w with
    regs := mapClear (fun k => gone (k / 64) && !noReset k) w.regs
    time := { w.time with late := w.time.late.filter fun (l : LateWrite) => !gone l.off }
    cmd := { w.cmd with clears := w.cmd.clears.filter fun o => !gone o, swaps := w.cmd.swaps.filter fun o => !gone o } }

/-- Bring the FENCED bits in line with the fences that stand. -/
def Wafer.syncFences (w : Wafer) : Wafer := w.fences.foldl (fun w (r : FenceRec) => w.syncFenced r.unit) w

/-- The fences of the units named, but for those the wafer map marks retired, lost or failed, are lifted at the next boundary
(R24). -/
def Wafer.liftReset (w : Wafer) (p : FenceUnit → Bool) : Wafer :=
  let l := (w.fences.filter fun (r : FenceRec) => p r.unit && !w.mapRetired r.unit).map fun r => (r.unit, r.serial)
  if l.isEmpty then w else { w with cmd := { w.cmd with lifts := w.cmd.lifts ++ l } }

/-- Fences that a reset lifts (R24): those that stood when it was taken, and that no fault has raised since. -/
def Wafer.liftsDue (w : Wafer) : Wafer :=
  let l := w.cmd.lifts
  if l.isEmpty then w
  else ({ w with cmd := { w.cmd with lifts := [] } } : Wafer).liftFences fun u =>
    w.fences.any fun r => r.unit == u && l.contains (u, r.serial)

/-! ## FIELD -/

/-- The fence names a unit or router of a field. -/
def unitInField (f : Nat) (u : FenceUnit) : Bool :=
  match u.kind with
  | .site | .cluster | .field | .routerPlane => u.field == f
  | .arbiter => u.field == f && decide (1024 ≤ u.index)
  | .port | .stackChannel => false

/-- A FIELD reset: its window is cleared, its fences lifted; its test begins, which leaves it in REST (Table 16-5). A field that a
hardware cause holds, or without power, stays FALLOW; in a flood, the flood's own test counts. (Log 56 DESIGN CHOICE.) -/
def Wafer.resetField (w : Wafer) (f : Nat) : Wafer :=
  let w := w.finishAll (fun x => (fieldStateOf f x).isSome) 0x0503 0
  let w := ((w.clearField f).zeroField f).liftReset (unitInField f)
  let p := w.fieldPower f
  let w := w.setFieldPower f { p with goal := none, repeating := false, step := 0, raising := none, railReady := false }
  if w.canWake f then
    let again := w.health.flood.isNone
    let w := w.wrs (fieldBase f) [(Reg.fpwStateState, 1), (Reg.fpwStateTarget, 1), (Reg.fpwStateTrans, b2n again)]
    let w := if again then { w with health := { w.health with retests := setInsert w.health.retests f } } else w
    let g := if w.braking then 300 else w.gearTarget f
    ((w.wr (fieldBase f) Reg.fpwGearApplied g).setRail f (w.railFor f g)).relight (64 + f)
  else w.railOff f

/-! ## PORTS -/

/-- Retired lanes stand in the wafer map. -/
def Wafer.showRetiredLanes (w : Wafer) : Wafer :=
  w.map.ports.foldl (fun w (e : Nat × PortRec) => w.wr (portBase e.1) Reg.tpLinkstatRetired e.2.retired) w

/-- A junction or egress arbiter, or a port. -/
def unitOfPorts (u : FenceUnit) : Bool :=
  match u.kind with
  | .port => true
  | .arbiter => decide (32 ≤ u.index ∧ u.index < 560)
  | _ => false

/-- TPE and TPA blocks and their junctions, ahead of their new bring-up. -/
def Wafer.clearPorts (w : Wafer) : Wafer :=
  let w := w.liftReset unitOfPorts
  let w := (w.clearRegs 0x1000000 0x1B00000).clearRegs 0x2000000 0x2F00000
  let w := { w with
    ports := []
    canal := { w.canal with arbs := w.canal.arbs.filter fun e => decide (0x2F00000 ≤ e.1) }
    reduce := { w.reduce with chains := [], runs := [], shadow := [] } }
  w.showRetiredLanes.syncFences

def Wafer.resetPorts (w : Wafer) : Wafer := w.clearPorts.relightAll

/-! ## DATA -/

/-- A unit of the data plane that is no port: its fence goes with a DATA reset. -/
def unitOfData (u : FenceUnit) : Bool :=
  match u.kind with
  | .port => false
  | .arbiter => decide (u.index < 32 ∨ 208 ≤ u.index)
  | _ => true

/-- Ordered shutdown causes (R347) end when the module leaves standby by a reset; other holds stand. -/
def shutdownCause (c : Nat) : Bool := c == 0x03 || c == 0x0D || c == 0x0E

/-- What stays of a field's power control. -/
def FieldPower.afterReset (p : FieldPower) (shutdown : Bool) : FieldPower :=
  { holds := if shutdown then p.holds else p.holds.filter fun c => !shutdownCause c, suspects := p.suspects }

/-- A flood, a survey and the work of accepted packets end; the job is gone. (Log 6 DESIGN CHOICE, 56 DESIGN CHOICE.) -/
def Wafer.clearData (w : Wafer) : Wafer :=
  let w := w.abandonFlood
  let w := (w.finishAll (fun x => x.working && jobMarked x.opcode) 0x0502 0).finishAll (fun x => x.working && x.opcode != 0x0706) 0x0503 0
  let w := w.liftReset unitOfData
  let w := w.clearRegs 0x2000000 0xB000000
  let w := { w with
    coreMem := {}, cluMem := {}, accMem := {}, stkMem := {}
    engines := [], gmes := [], tiers := [], stackRecs := []
    canal := { rectsA := w.canal.rectsA, rectsB := w.canal.rectsB
               arbs := w.canal.arbs.filter fun e => decide (e.1 < 0x2000000) }
    reservoir := {}, ingest := {}, reduce := {}, job := {}
    shp := { w.shp with members := [] }
    health := { w.health with retireSites := [], retireClusters := [], markSites := [], rowsDue := [], proposal := [], quayLost := true }
    power := { w.power with fields := w.power.fields.map fun (e : Nat × FieldPower) => (e.1, e.2.afterReset w.power.shutdown) } }
  let w := { w.loseAllCores with power := { w.power with fields := w.power.fields.filter fun (e : Nat × FieldPower) => e.2 != ({} : FieldPower) } }
  let w := (w.clearTags true true).wr pwrBase Reg.pwrGearFloor 0
  let w := (w.wr cmdmBase Reg.cmdInflightJob 0).wrs cmdmBase [(Reg.cmdArmArmid, 0), (Reg.cmdArmTag, 0)]
  let w := (List.range 112).foldl (fun w f => (w.showRects f 0 w.canal.rectsA).showRects f 16 w.canal.rectsB) w
  w.syncFences

/-- A cold flood is due. -/
def Wafer.floodDueNow (w : Wafer) (step1 : Bool) : Wafer :=
  { w with health := { w.health with floodDue := some (false, false, step1) } }

def Wafer.resetData (w : Wafer) : Wafer := (w.clearData.floodDueNow false).relightAll

/-! ## MODULE -/

/-- The timebase starts again; REFCLK is a pin, and snapshots and servers belong to Shepherd. -/
def Wafer.clearTime (w : Wafer) : Wafer :=
  let w := w.clearRegs 0x200000 0x300000
  { w with time := { refclk := w.time.refclk, servers := w.time.servers, snaps := w.time.snaps } }

/-- The command plane: every packet in flight is abandoned without a reply, and every slot reads FREE (R286, R296).
(Log 56 DESIGN CHOICE.) -/
def Wafer.clearCmd (w : Wafer) : Wafer := { w.clearRegs 0x100000 0x200000 with cmd := {}, chamber := {} }

/-- An ordered shutdown ends (R347). -/
def Wafer.leaveStandby (w : Wafer) : Wafer :=
  if w.power.shutdown then
    ({ w with power := { w.power with shutdown := false } } : Wafer).setSource 5 none
  else w

/-- A MODULE reset, which ends an ordered shutdown's standby (R347). Its LCK block begins tick 0 with it (R32), so the fences it lifts are lifted at once.
(Log 56 DESIGN CHOICE.) -/
def Wafer.resetModule (w : Wafer) : Wafer :=
  let standby := w.power.shutdown && w.rd pwrBase Reg.pwrStatState == 0
  let w := ((w.leaveStandby.clearCmd.clearData).clearPorts.liftsDue.clearTime.clearCmd).floodDueNow false
  (if standby then w.wr pwrBase Reg.pwrStatState 1 else w).relightAll

/-! ## COLD -/

/-- Shepherd and the root of trust keep the persistent records, the fuses and the tally. (Log 56 DESIGN CHOICE.) -/
def ShpSt.afterCold (s : ShpSt) (strap : Nat) : ShpSt :=
  { tallyHash := s.tallyHash, tallyBuf := s.tallyBuf, tallyFlash := s.tallyFlash, tallyLost := s.tallyLost
    tallyLostTick := s.tallyLostTick, gapDue := s.gapDue, boot := s.boot, slotA := s.slotA, slotB := s.slotB, place := s.place, roots := s.roots
    tallyHead := s.tallyHead, strap := strap % 4, otp := s.otp }

/-- A COLD reset with the strap pins as sampled (R389). BRAKE_N and the undervoltage comparator are sampled afresh (R392).
(Log 56 DESIGN CHOICE.) -/
def Wafer.cold (w : Wafer) (strap source : Nat) : Wafer :=
  let pin := (w.power.levels.getD 0 none).isSome
  let low := (w.power.levels.getD 2 none).isSome
  let kept := w.fences.filter fun (r : FenceRec) => w.mapRetired r.unit
  let w' : Wafer :=
    { regs := w.regs.filter fun e => noReset e.1
      fwMem := w.fwMem
      time := { refclk := w.time.refclk }
      fences := kept
      fenceSerial := w.fenceSerial
      shp := w.shp.afterCold strap
      power := {
        shutdown := w.power.shutdown
        fields := (w.power.fields.map fun (e : Nat × FieldPower) => (e.1, e.2.afterReset w.power.shutdown)).filter
          fun (e : Nat × FieldPower) => e.2 != ({} : FieldPower) }
      health := { map := w.health.map, plan := w.health.plan, mapDue := w.health.mapDue, planDue := w.health.planDue, floodDue := some (false, false, true) }
      out := w.out
      free := w.free }
  let w' := w'.loseAllCores.wrs hltBase [(Reg.hltResetCls, 5), (Reg.hltResetSource, source)]
  let w' := w'.wr 0 Reg.shpStatTallyfull (b2n w'.tallyFull)
  let w' := w'.syncFences.showRetiredLanes
  let w' := if pin then w'.setSource 0 (some (pctOf w'.brkpct w'.cap)) else w'
  let w' := if low then w'.setSource 2 (some (pctOf w'.brkpct w'.cap)) else w'
  let w' := if w.power.shutdown then w'.setSource 5 (some 0) else w'
  w'.boot

/-! ## LINK -/

/-- One CXL port's link retrains; the replies held for it are discarded (R303). -/
def Wafer.cxlDown (w : Wafer) (x : Nat) : Wafer :=
  ((w.setCmdPort x { w.cmdPort x with outgoing := [], held := [] }).wr (cmdBase x) Reg.cmdSeqRheld 0).inflightCount

/-- HLT_RESET records the class and the source: 0 standby power, 1 RESET, 2 connector signal, 3 CXL hot reset, 4 JTAG. -/
def Wafer.resetSeen (w : Wafer) (cls source : Nat) : Wafer :=
  w.wrs hltBase [(Reg.hltResetCls, cls), (Reg.hltResetSource, source)]

end Sys2Proof.Machine
end

