-- ==== Sys2Proof/Machine/CmdFirmware.lean ====
section
/-!
DEFINITION. Sys2Proof/Machine/CmdFirmware.lean: the commands of family 0x07xx (Table 12-12): firmware slots (R309, R310), partner roots
(R308) and RESET (R374).
-/

namespace Sys2Proof.Machine

/-! ## Firmware slots -/

/-- FW_WRITE (R310): slot, offset, QA, length. The slot is WRITTEN at once. (Log 73 PRESUMED.) -/
def fwWriteSpec : CmdSpec :=
  { opcode := 0x0701, now := true, len := lenIs 17
    check := fun w p =>
      let slot := fieldAt p.params 0 1
      let n := fieldAt p.params 13 4
      if 1 < slot then (0x0103, 64)
      else if 2 ^ 28 < fieldAt p.params 1 4 + n then (0x0103, 65)
      else if !quayOk (fieldAt p.params 5 8) n then (0x0106, 0)
      else if w.runSlot = some slot then (0x0401, 0) else (0, 0)
    act := fun w fl =>
      let slot := fieldAt fl.p.params 0 1
      let data := w.quayRead (fieldAt fl.p.params 5 8) (fieldAt fl.p.params 13 4)
      let w := w.setSlot slot ⟨.written, 0, 0⟩
      { w := { w with fwMem := w.fwMem.write (fwAddr slot (fieldAt fl.p.params 1 4)) data } } }

def execFwWrite (p : Packet) (s : State) : Host.Outcome State Fault Refusal := commandStep fwWriteSpec p s

/-- The slot a command names exists. -/
def slotCheck (p : Packet) : Nat × Nat := if 1 < fieldAt p.params 0 1 then (0x0103, 64) else (0, 0)

/-- FW_COMMIT (R310): the image's checks in order, then its record. -/
def fwCommitSpec : CmdSpec :=
  { opcode := 0x0702, duty := 3, len := lenIs 1, check := fun _ p => slotCheck p
    act := fun w fl =>
      let slot := fieldAt fl.p.params 0 1
      match w.fwCheck slot with
      | 0 => { w := w.setSlot slot ⟨.committed, w.fwDigest slot, w.fwSvn slot⟩ }
      | n => { w := w, status := n } }

def execFwCommit (p : Packet) (s : State) : Host.Outcome State Fault Refusal := commandStep fwCommitSpec p s

/-- FW_ACTIVATE (R310): the boot record, for the next reset. -/
def fwActivateSpec : CmdSpec :=
  { opcode := 0x0703, duty := 3, len := lenIs 1
    check := fun w p =>
      if 1 < fieldAt p.params 0 1 then (0x0103, 64)
      else if w.slotState (fieldAt p.params 0 1) = .committed then (0, 0) else (0x0401, 0)
    act := fun w fl =>
      let slot := fieldAt fl.p.params 0 1
      let w := w.tallySelf 1
      { w := ({ w with shp := { w.shp with boot := w.shp.boot.commit slot } } : Wafer).wr secBase Reg.secFwstatBootslot slot } }

def execFwActivate (p : Packet) (s : State) : Host.Outcome State Fault Refusal := commandStep fwActivateSpec p s

/-! ## Partner roots (R308, Table 13-2) -/

/-- An authorisation structure, as the quay holds it. -/
structure RootAuth where
  magic : Nat
  serial : Nat
  flags : Nat
  lenEd : Nat
  lenMl : Nat
  nonce : Nat
  /-- Bytes 0 to the end of the chains, which both signatures cover. -/
  signed : List Byte
  ed : List Byte
  ml : List Byte
  chain1 : List Byte
  chain2 : List Byte
  sigEd : List Byte
  sigMl : List Byte

/-- Lengths of an Ed25519 and an ML-DSA-65 signature. -/
def sigEdLen : Nat := 64
def sigMlLen : Nat := 3309

/-- The bytes an authorisation takes. -/
def Wafer.authLen (w : Wafer) (qa : Nat) : Nat :=
  let h := w.quayRead qa 56
  56 + fieldAt h 16 2 + fieldAt h 18 2 + fieldAt h 20 2 + fieldAt h 22 2 + sigEdLen + sigMlLen

def Wafer.rootAuth (w : Wafer) (qa : Nat) : RootAuth :=
  let l := w.quayRead qa (w.authLen qa)
  let a := 56
  let b := a + fieldAt l 16 2
  let c := b + fieldAt l 18 2
  let d := c + fieldAt l 20 2
  let e := d + fieldAt l 22 2
  { magic := fieldAt l 0 4, serial := fieldAt l 4 8, flags := fieldAt l 12 1, lenEd := fieldAt l 16 2, lenMl := fieldAt l 18 2
    nonce := fieldAt l 24 32, signed := l.take e, ed := bytesAt l a (b - a), ml := bytesAt l b (c - b), chain1 := bytesAt l c (d - c)
    chain2 := bytesAt l d (e - d), sigEd := bytesAt l e sigEdLen, sigMl := bytesAt l (e + sigEdLen) sigMlLen }

/-- SEC_NONCE as it stands, drawn within the last 60 s. -/
def Wafer.nonceOk (w : Wafer) (n : Nat) : Bool :=
  let now := w.rd secBase Reg.secNonce0Nonce + w.rd secBase Reg.secNonce1Nonce * 2 ^ 64 + w.rd secBase Reg.secNonce2Nonce * 2 ^ 128 +
    w.rd secBase Reg.secNonce3Nonce * 2 ^ 192
  match w.shp.nonceAt with
  | none => false
  | some t => n == now && decide ((w.countNow + 2 ^ 64 - t) % 2 ^ 64 ≤ 75000000000)

/-- The checks of Table 13-2 up to the nonce: DETAIL holds the byte offset in the structure. -/
def Wafer.authFields (w : Wafer) (qa : Nat) : Nat × Nat :=
  if !quayOk qa 56 || !quayOk qa (w.authLen qa) then (0x0106, 0)
  else
    let r := w.rootAuth qa
    if r.magic ≠ 0x54524F52 then (0x0103, 0)
    else if r.serial ≠ 0 ∧ r.serial ≠ Config.serial then (0x0103, 4)
    else if 4 ≤ r.flags then (0x0103, 12)
    else if !w.nonceOk r.nonce then (0x0103, 24)
    else (0, 0)

/-- The roots an authorisation's chains end at: the Umastad roots, with the operator enrolment extension, or an installed ADMIN pair. -/
def Wafer.authRoots (w : Wafer) (r : RootAuth) : Option (Nat × Nat) :=
  let t := w.chainTime
  if chainsOk r.chain1 r.chain2 Config.edRootHash Config.mlRootHash 2 t then some (Config.edRootHash, Config.mlRootHash)
  else (w.roots.find? fun x => x.admin && chainsOk r.chain1 r.chain2 (sha3 x.ed) (sha3 x.ml) 0 t).map fun x => (sha3 x.ed, sha3 x.ml)

/-- The rest of Table 13-2: the authorising chains, then the signatures. -/
def Wafer.authSigned (w : Wafer) (r : RootAuth) : Nat :=
  match w.authRoots r with
  | none => 0x0304
  | some (a, b) =>
    sigStatus (Config.ed25519Ok (Config.chainLeaf r.chain1 a) r.signed r.sigEd) (Config.mlDsaOk (Config.chainLeaf r.chain2 b) r.signed r.sigMl)

/-- Commit the partner root record. -/
def Wafer.setRoots (w : Wafer) (l : List RootPair) : Wafer :=
  let w := w.tallySelf 7
  ({ w with shp := { w.shp with roots := w.shp.roots.commit l } } : Wafer).syncRoots

/-- ROOT_ADD (R308): QA of the authorisation. -/
def rootAddSpec : CmdSpec :=
  { opcode := 0x0704, duty := 3, len := lenIs 8
    check := fun w p =>
      match w.authFields (fieldAt p.params 0 8) with
      | (0, _) => if 16 ≤ w.roots.length then (0x0202, 0) else (0, 0)
      | st => st
    act := fun w fl =>
      let r := w.rootAuth (fieldAt fl.p.params 0 8)
      match w.authSigned r with
      | 0 => { w := w.setRoots (w.roots ++ [⟨r.ed, r.ml, bit r.flags 0, bit r.flags 1⟩]) }
      | n => { w := w, status := n } }

def execRootAdd (p : Packet) (s : State) : Host.Outcome State Fault Refusal := commandStep rootAddSpec p s

/-- A session that is up, or that is being set up, uses the root pair (R325). -/
def Wafer.rootInUse (w : Wafer) (h : Nat) : Bool :=
  (List.range 176).any fun i =>
    (linkState w i == 4 || linkState w i == 5 || linkState w i == 6) &&
    (w.roots.any fun r => r.hash == h && (w.port i).anchor == some (sha3 r.ed, sha3 r.ml))

/-- ROOT_REMOVE (R308): the root's hash, then QA of an authorisation with no new roots. -/
def rootRemoveSpec : CmdSpec :=
  { opcode := 0x0705, duty := 3, len := lenIs 40
    check := fun w p =>
      let h := fieldAt p.params 0 32
      let qa := fieldAt p.params 32 8
      if !w.roots.any (fun r => r.hash == h) then (0x0103, 64)
      else match w.authFields qa with
        | (0, _) =>
          if (w.rootAuth qa).lenEd ≠ 0 ∨ (w.rootAuth qa).lenMl ≠ 0 then (0x0103, 16)
          else if w.rootInUse h then (0x0401, 0) else (0, 0)
        | st => st
    act := fun w fl =>
      match w.authSigned (w.rootAuth (fieldAt fl.p.params 32 8)) with
      | 0 => { w := w.setRoots (w.roots.filter fun r => r.hash != fieldAt fl.p.params 0 32) }
      | n => { w := w, status := n } }

def execRootRemove (p : Packet) (s : State) : Host.Outcome State Fault Refusal := commandStep rootRemoveSpec p s

/-! ## RESET (R374) -/

/-- The module may leave standby (R347, R374): Tj below 60 °C in every cluster and an inlet of 20 to 35 °C. -/
def Wafer.coolEnough (w : Wafer) : Bool :=
  ((List.range 112).all fun f => [Reg.fpwTjTj0, Reg.fpwTjTj1, Reg.fpwTjTj2, Reg.fpwTjTj3].all fun t =>
    decide (w.rd (fieldBase f) t < 60)) &&
  decide (2000 ≤ w.rd pwrBase Reg.pwrCoolTin ∧ w.rd pwrBase Reg.pwrCoolTin ≤ 3500)

def resetCheck (w : Wafer) (p : Packet) : Nat × Nat :=
  let cls := fieldAt p.params 0 1
  let unit := fieldAt p.params 1 1
  if 5 < cls then (0x0103, 64)
  else if (if cls = 0 then decide (1 < unit) else if cls = 1 then decide (112 ≤ unit) else decide (unit ≠ 0)) then (0x0103, 65)
  else if w.rd pwrBase Reg.pwrStatState = 0 then (if 4 ≤ cls ∧ w.coolEnough = true then (0, 0) else (0x0401, 0))
  else if w.rd pwrBase Reg.pwrStatState = 3 then (0x0401, 0)
  else if cls = 1 ∧ w.fieldInRun unit = true then (0x0401, 0)
  else (0, 0)

/-- A RESET taken during a job faults it; the spec names no class. (Log 56 DESIGN CHOICE.) -/
def Wafer.faultForReset (w : Wafer) : Wafer :=
  if w.armedOrRunning then
    let (c, w) := w.fresh
    w.jobFault (c % 2 ^ 16) detailNone
  else w

/-- Leaving standby ends the ordered shutdown's hold. -/
def Wafer.endShutdown (w : Wafer) : Wafer := { w with power := { w.power with shutdown := false } }

/-- RESET: class, unit. A reset that clears the CMD block answers nothing (R296). -/
def resetSpec : CmdSpec :=
  { opcode := 0x0706, now := true, len := lenIs 8, resv := [(2, 6)], check := resetCheck
    act := fun w fl =>
      let cls := fieldAt fl.p.params 0 1
      let unit := fieldAt fl.p.params 1 1
      let w := w.faultForReset
      let w := match cls with
        | 0 => w.cxlDown unit
        | 1 => w.resetField unit
        | 2 => w.resetPorts
        | 3 => w.resetData
        | 4 => w.resetModule
        | _ => w.endShutdown.cold w.shp.strap 1
      { w := if cls = 5 then w else w.resetSeen cls 1 } }

def execReset (p : Packet) (s : State) : Host.Outcome State Fault Refusal := commandStep resetSpec p s

end Sys2Proof.Machine
end

