-- ==== Sys2Proof/Machine/SurveyOps.lean ====
section
/-!
DEFINITION. Sys2Proof/Machine/SurveyOps.lean: the margin plan in service (R361 to R365): the survey of one field, its events, and
what a committed plan changes.
-/

namespace Sys2Proof.Machine

/-- Gear index of the top gear after the margin plan (6 when gear 5 is excluded) and a derate of two steps (R332). -/
def topIndex (plan : Nat) (derated : Bool) : Nat := if derated then max plan (min (plan + 2) 5) else plan

/-- The top gear in MHz; a field whose gear 5 is excluded keeps 300. (Log 54 DESIGN CHOICE.) -/
def topMHz (i : Nat) : Nat := gearMHz.getD i 300

/-! ## The survey of a field (R362) -/

/-- The margin guard at a gear and rail (R361). (Log 54 DESIGN CHOICE.) -/
def guardHolds (m : SurveyMeas) (g v : Nat) : Bool :=
  decide (m.vmin + 30 ≤ v) && match m.slacks.find? fun x => x.1 == g && x.2.1 == v with
    | some x => decide (40 ≤ x.2.2)
    | none => false

/-- The offset at which the guard holds, from `off` on; none where the ceiling comes first. -/
def gearOffset (m : SurveyMeas) (g : Nat) : Nat → Nat → Option Nat
  | 0, _ => none
  | n + 1, off =>
    let v := gearRail.getD g 480 + 5 * off
    if guardHolds m g v then some off else if 750 < v + 5 then none else gearOffset m g n (off + 1)

/-- Gears from 5 down to the index `top`: the offsets found, and the first excluded gear. -/
def surveyGears (m : SurveyMeas) (top : Nat) : Nat → List Nat → List Nat × Option Nat
  | 0, offs => (offs, none)
  | n + 1, offs =>
    -- n gears remain above this one: this is gear n
    if n < top then (offs, none)
    else match gearOffset m n 64 (offs.getD n 0) with
      | some o => surveyGears m top n (listSet offs n o)
      | none => (offs, some n)

/-- Smallest slack read at a gear and rail. -/
def slackAt (m : SurveyMeas) (g v : Nat) : Nat := ((m.slacks.find? fun x => x.1 == g && x.2.1 == v).map (·.2.2)).getD 0

/-- The first gear, from 5 upward, whose offset rose. -/
def raisedGear (old new : List Nat) : Option Nat := [5, 4, 3, 2, 1, 0].find? fun g => decide (old.getD g 0 < new.getD g 0)

/-- A margin event (Table 15-10 HLT_MEVENT): 1 MARGIN_OFFSET, 2 MARGIN_DEMOTE, 3 MARGIN_EXHAUSTED. (Log 54 DESIGN CHOICE.) -/
def Wafer.marginEvent (w : Wafer) (code f gear : Nat) : Wafer :=
  (w.recordFirst hltBase Reg.hltMeventValid [(Reg.hltMeventCode, code), (Reg.hltMeventField, f), (Reg.hltMeventGear, gear)]).notify
    (0x0B00 + code) (detailField f)

/-! ## What a committed plan changes -/

/-- Show a field's plan in its registers, and its top gear in the wafer map's record. -/
def Wafer.showPlan (w : Wafer) (f : Nat) : Wafer :=
  let m := w.marginRec f
  let o := m.offsets
  let w := w.wrs (agmBase f) [(Reg.agmVminOffset0, o.getD 0 0), (Reg.agmVminOffset1, o.getD 1 0), (Reg.agmVminOffset2, o.getD 2 0),
    (Reg.agmVminOffset3, o.getD 3 0), (Reg.agmVminOffset4, o.getD 4 0), (Reg.agmVminOffset5, o.getD 5 0)]
  w.wr (fieldBase f) Reg.fpwGearTop (topMHz (topIndex m.top (w.fieldRec f).derated))

/-- HLT_SURVEY: the oldest field survey among the usable fields, and whether any field is overdue. -/
def Wafer.syncSurvey (w : Wafer) : Wafer :=
  let fs := (List.range 112).filter fun f => (w.fieldRec f).status % 8 == 0
  let age := fun f => tickDiff w.tick (w.marginRec f).tick
  let oldest := match fs with
    | [] => 0
    | x :: l => l.foldl (fun a b => if age a < age b then b else a) x
  w.wrs hltBase [(Reg.hltSurveyOldest, (w.marginRec oldest).tick), (Reg.hltSurveyField, oldest),
    (Reg.hltSurveyOverdue, b2n ((List.range 112).any fun f => w.rd (agmBase f) Reg.agmVminOverdue == 1))]

/-- Commit what the survey has found so far. (Log 54 DESIGN CHOICE.) -/
def Wafer.commitSurvey (w : Wafer) : Wafer :=
  match w.health.surveyPlan with
  | none => w
  | some p =>
    let changed := (List.range 112).filter fun f => mapGet (fun _ => ({} : MarginRec)) p.fields f != w.marginRec f
    let w := w.commitPlan p
    let w := changed.foldl (fun w f => w.showPlan f) w
    let w := changed.foldl (fun w f =>
      let i := min (topIndex (w.marginRec f).top (w.fieldRec f).derated) 5
      if (w.fieldRec f).topGear = i then w else w.updField f fun r => { r with topGear := i }) w
    w.syncSurvey

/-- The survey goes on: to its next fields, or to its end and commit; a PLACE that waits for it follows (R363). -/
def Wafer.surveyNext (w : Wafer) : Wafer :=
  let w := w.surveyAssign
  if w.health.surveying.isEmpty then
    let w := w.commitSurvey
    let w := ({ w with health := { w.health with surveyPlan := none } } : Wafer).wr hltBase Reg.hltSurveyRunning 0
    (w.finishAll (fun x => x.opcode == 0x0604 && x.working) 0 0).placeProgress
  else match w.job.placing with
    | some (pl, _) => if pl.any fun f => w.health.surveying.contains f then w else w.commitSurvey.placeProgress
    | none => w

end Sys2Proof.Machine
end

