-- ==== Sys2Proof/Machine/HealthOps.lean ====
section
/-!
DEFINITION. Sys2Proof/Machine/HealthOps.lean: the bytes of the wafer map (R359), the margin plan (R365), the re-placement proposal
(R372) and tally entries (R318), and the snapshots of the counters (R25).
-/

namespace Sys2Proof.Machine

/-! ## Wafer map (Tables 15-3 to 15-7) -/

def FieldRec.bytes (r : FieldRec) : List Byte :=
  natLE 1 r.status ++ natLE 1 r.cause ++ natLE 1 r.depth ++ natLE 1 r.links ++ natLE 1 (r.ref % 8 + 8 * (r.refAlt % 8)) ++
  natLE 1 (r.wave % 8 + 8 * (r.waveAlt % 8)) ++ natLE 2 r.wlat ++ natLE 2 r.wlatAlt ++ natLE 1 r.topGear ++ natLE 1 0 ++
  ((List.range 4).flatMap fun c => natLE 4 (r.coremap.getD c 0 % 2 ^ 17)) ++ natLE 3 (r.rtrFail % 2 ^ 20) ++ natLE 1 0

def StackRec.bytes (r : StackRec) : List Byte :=
  natLE 4 r.active ++ natLE 4 r.marked ++ natLE 1 r.status ++ natLE 1 0 ++ natLE 2 r.rows ++ natLE 4 0

def PortRec.bytes (r : PortRec) : List Byte := natLE 1 r.status ++ natLE 1 0 ++ natLE 2 r.retired ++ natLE 4 0

def WaferMap.header (m : WaferMap) : List Byte :=
  natLE 4 0x50414D57 ++ natLE 2 1 ++ natLE 1 m.kind ++ natLE 1 0 ++ natLE 4 m.seq ++ natLE 6 m.tick ++ natLE 6 0 ++ natLE 8 m.wall ++
  natLE 1 m.usable ++ natLE 1 m.depth ++ natLE 2 (16 * m.usable) ++ natLE 4 m.regions ++ natLE 24 0

/-- The 5,568 bytes of the wafer map. -/
def WaferMap.bytes (m : WaferMap) : List Byte :=
  m.header ++ ((List.range 112).flatMap fun f => (mapGet (fun _ => ({} : FieldRec)) m.fields f).bytes) ++
  ((List.range 32).flatMap fun s => (mapGet (fun _ => ({} : StackRec)) m.stackRecs s).bytes) ++
  (List.range 176).flatMap fun i => (mapGet (fun _ => ({} : PortRec)) m.ports i).bytes

/-! ## Re-placement proposal (Table 16-12) -/

def Wafer.proposalBytes (w : Wafer) : List Byte :=
  natLE 4 0x4C504552 ++ natLE 4 (w.rd hltBase Reg.hltReplaceSeq) ++ natLE 1 w.health.proposal.length ++
  natLE 1 (w.rd hltBase Reg.hltReplaceState) ++ natLE 6 w.health.proposalTick ++ w.health.proposal.flatMap fun f => natLE 1 f

/-! ## Margin plan (Table 15-9) -/

def Wafer.marginBytes (w : Wafer) (f : Nat) : List Byte :=
  let m := w.marginRec f
  ((List.range 6).flatMap fun g => natLE 1 (m.offsets.getD g 0)) ++ natLE 1 (if m.top = 6 then 0xFF else m.top) ++
  natLE 1 (w.rd (agmBase f) Reg.agmVminOverdue + 2 * b2n (w.fieldRec f).derated + 4 * b2n (m.top == 6)) ++ natLE 2 m.slack ++
  natLE 2 m.vmin ++ natLE 2 m.wear ++ natLE 6 m.tick ++ natLE 8 m.wall ++ natLE 4 0

def Wafer.planBytes (w : Wafer) : List Byte :=
  natLE 4 0x4E47524D ++ natLE 4 w.health.plan.seq ++ natLE 8 w.plan.wall ++ (List.range 112).flatMap fun f => w.marginBytes f

/-! ## Tally entries (R318) -/

/-- Every entry still held, oldest first. -/
def Wafer.tallyHeld (w : Wafer) : List TallyEntry := w.shp.tallyFlash.reverse ++ w.shp.tallyBuf

/-- The oldest INDEX held; with none, the next one. -/
def Wafer.tallyOldest (w : Wafer) : Nat := ((w.tallyHeld.head?).map (·.index)).getD (w.rd secBase Reg.secTallyNext)

/-! ## Snapshots (R25) -/

/-- Error counters of 16 bits, by block and offset: the register holds counters beside 48-bit ones (R377). -/
def errorCounter (b : Blk) (x : Nat) : Bool :=
  match b with
  | .shp => x == 0x08 || x == 0x18
  | .tpx => x == 0x70
  | .rtr => [Reg.rtrErrCe.off].contains x
  | .stk => [Reg.stkErrCe.off].contains x
  | _ => false

/-- The register at a BAR0 offset holds counters. -/
def counterReg (off : Nat) : Bool :=
  match blockOf off with
  | none => false
  | some (b, base) => errorCounter b (off - base) ||
    b.fields.any fun d => d.fld.off == off - base && d.fld.lo == 0 && d.fld.len == 48 &&
      b.fields.any fun o => o.fld == d.fld.ovf

/-- The counters as they are now, by key, those that differ from zero. -/
def Wafer.counters (w : Wafer) : List (Nat × Nat) := w.regs.filter fun e => counterReg (e.1 / 64)

/-- Step 2 of a boundary: the newer snapshot is filled; the two latest are kept. -/
def Wafer.snapshot (w : Wafer) : Wafer :=
  let w := { w with time := { w.time with snaps := ((w.tick, w.counters) :: w.time.snaps).take 2 } }
  (w.wr 0 Reg.shpSnaptickTick w.tick).wr 0 Reg.shpSnaptickValid 1

/-- A counter register's 64 bits in a snapshot. -/
def snapReg (l : List (Nat × Nat)) (off : Nat) : Nat :=
  (regFields off).foldl (fun a d => a + mapGet fieldReset l d.fld.key * 2 ^ d.fld.lo) 0

/-- Whole counter registers lie in [off, off + len). (Log 73 PRESUMED.) -/
def snapRange (off len : Nat) : Bool :=
  off % 8 == 0 && len % 8 == 0 && len != 0 && (List.range (len / 8)).all fun k => counterReg (off + 8 * k)

end Sys2Proof.Machine
end

