-- ==== Sys2Proof/Machine/CmdHealth.lean ====
section
/-!
DEFINITION. Sys2Proof/Machine/CmdHealth.lean: the commands of family 0x06xx (Table 12-12).
-/

namespace Sys2Proof.Machine

/-- SNAP_READ (R25): counters as a snapshot holds them: which (0 newer, 1 older), BAR0 offset, length. (Log 73 PRESUMED.) -/
def snapReadSpec : CmdSpec :=
  { opcode := 0x0601, now := true, reads := true, len := lenIs 12, resv := [(1, 3)]
    check := fun w p =>
      if w.time.snaps.length ≤ fieldAt p.params 0 1 then (0x0103, 64)
      else if snapRange (fieldAt p.params 4 4) (fieldAt p.params 8 4) then (0, 0) else (0x0103, 68)
    act := fun w fl =>
      let l := ((w.time.snaps.getD (fieldAt fl.p.params 0 1) (0, [])).2)
      let off := fieldAt fl.p.params 4 4
      { w := w, data := (List.range (fieldAt fl.p.params 8 4 / 8)).flatMap fun k => natLE 8 (snapReg l (off + 8 * k)) } }

def execSnapRead (p : Packet) (s : State) : Host.Outcome State Fault Refusal := commandStep snapReadSpec p s

/-- What MAP_READ reads at an offset: the wafer map, and from 0x1_0000 the re-placement proposal. -/
def Wafer.mapSource (w : Wafer) (off : Nat) : List Byte × Nat :=
  if off < 0x10000 then (w.map.bytes, off) else (w.proposalBytes, off - 0x10000)

/-- MAP_READ (R359, R372). (Log 73 PRESUMED.) -/
def mapReadSpec : CmdSpec :=
  { opcode := 0x0602, now := true, reads := true, len := lenIs 8
    check := fun w p =>
      let (l, o) := w.mapSource (fieldAt p.params 0 4)
      if l.length < o then (0x0103, 64) else if l.length < o + fieldAt p.params 4 4 then (0x0103, 68) else (0, 0)
    act := fun w fl =>
      let (l, o) := w.mapSource (fieldAt fl.p.params 0 4)
      { w := w, data := bytesAt l o (fieldAt fl.p.params 4 4) } }

def execMapRead (p : Packet) (s : State) : Host.Outcome State Fault Refusal := commandStep mapReadSpec p s

/-- States in which a flood or a survey is refused (R350, Table 12-12). A PLACE at work is a conflicting change. -/
def floodRefused (w : Wafer) : Nat × Nat :=
  if w.health.flood.isSome || w.armedOrRunning || !w.powered then (0x0401, 0)
  else if w.job.placing.isSome then (0x0407, 0) else (0, 0)

/-- FLOOD_TEST (R350, R355): 0 a cold flood, 1 a full memory test; done at the end. -/
def floodTestSpec : CmdSpec :=
  { opcode := 0x0603, duty := 2, len := lenIs 1
    check := fun w p => if 1 < fieldAt p.params 0 1 then (0x0103, 64) else floodRefused w
    act := fun w fl => { w := w.beginFlood (fieldAt fl.p.params 0 1 == 1) true false, working := true } }

def execFloodTest (p : Packet) (s : State) : Host.Outcome State Fault Refusal := commandStep floodTestSpec p s

/-- MARGIN_SURVEY (R363): done when the survey ends; at once when no field is left to survey. -/
def marginSurveySpec : CmdSpec :=
  { opcode := 0x0604, duty := 2, len := lenIs 0, check := fun w _ => floodRefused w
    act := fun w _ =>
      let w := w.surveyDue
      { w := w, working := !w.health.surveying.isEmpty } }

def execMarginSurvey (p : Packet) (s : State) : Host.Outcome State Fault Refusal := commandStep marginSurveySpec p s

/-- MARGIN_READ (R365). -/
def marginReadSpec : CmdSpec :=
  { opcode := 0x0605, now := true, reads := true, len := lenIs 0, act := fun w _ => { w := w, data := w.planBytes } }

def execMarginRead (p : Packet) (s : State) : Host.Outcome State Fault Refusal := commandStep marginReadSpec p s

/-- Entries one TALLY_READ may name. -/
def tallyMost (path : Nat) : Nat := if path < 2 then 65536 else 63

/-- TALLY_READ (R318). DETAIL holds the oldest INDEX held. (Log 73 PRESUMED.) -/
def tallyReadSpec : CmdSpec :=
  { opcode := 0x0606, now := true, reads := true, len := lenIs 12
    check := fun _ p =>
      let n := fieldAt p.params 8 4
      if n = 0 ∨ tallyMost p.path < n then (0x0103, 72) else (0, 0)
    act := fun w fl =>
      let first := max (fieldAt fl.p.params 0 8) w.tallyOldest
      let l := (w.tallyHeld.filter fun (e : TallyEntry) => decide (first ≤ e.index)).take (fieldAt fl.p.params 8 4)
      { w := w, detail := w.tallyOldest % 2 ^ 32, data := l.flatMap TallyEntry.bytes } }

def execTallyRead (p : Packet) (s : State) : Host.Outcome State Fault Refusal := commandStep tallyReadSpec p s

end Sys2Proof.Machine
end

