-- ==== Sys2Proof/Machine/Ptp.lean ====
section
/-!
DEFINITION. Sys2Proof/Machine/Ptp.lean: the messages of IEEE 1588-2019 that TIMING frames carry (R49, R50, R231): Sync, Delay_Req, Follow_Up
and Delay_Resp, in that standard's layout and byte order (notes/assumptions/3.md, PRESUMED). Times are in 0.1 ns.
-/

namespace Sys2Proof.Machine

/-! ## Layout -/

def natBE (n x : Nat) : List Byte := (natLE n x).reverse
def beAt (l : List Byte) (off n : Nat) : Nat := leNat (bytesAt l off n).reverse

/-- A timestamp: 6 bytes of seconds and 4 of nanoseconds. -/
def ptpStamp (t : Nat) : List Byte := natBE 6 (t / 10 ^ 10) ++ natBE 4 (t % 10 ^ 10 / 10)

/-- What a timestamp leaves of a time, less than 1 ns, in the correctionField's units of 2^-16 ns. -/
def ptpRest (t : Nat) : Nat := t % 10 * 2 ^ 16 / 10

/-- A message: type, sequence, time, correctionField, and what follows the timestamp. (Log 66 PRESUMED.) -/
def ptpMsg (mtype seq time : Nat) (corr : Int) (rest : List Byte) : List Byte :=
  [BitVec.ofNat 8 mtype, 0x12#8] ++ natBE 2 (44 + rest.length) ++ [0#8, 0#8] ++ natBE 2 (if mtype = 0 then 0x0200 else 0) ++
  natBE 8 (ofInt 64 corr) ++ natBE 4 0 ++ natBE 8 Config.serial ++ natBE 2 1 ++ natBE 2 seq ++ [0#8, 0x7F#8] ++ ptpStamp time ++ rest

def ptpType (l : List Byte) : Nat := fieldAt l 0 1 % 16
def ptpSeq (l : List Byte) : Nat := beAt l 30 2
def ptpTwoStep (l : List Byte) : Bool := bit (fieldAt l 6 1) 1

/-- The correctionField, and its value in 0.1 ns. -/
def ptpField (l : List Byte) : Int := toInt 64 (beAt l 8 8)
def ptpCorrection (l : List Byte) : Int := ptpField l * 10 / 2 ^ 16

/-- The timestamp in 0.1 ns. -/
def ptpTime (l : List Byte) : Int := ((beAt l 34 6 * 10 ^ 10 + beAt l 40 4 * 10 : Nat) : Int)

/-! ## Sending -/

/-- A stamp of the port's PCS for what leaves now: its eighth of a count is a free value (R50). (Log 66 PRESUMED.) -/
def Wafer.stampNow (w : Wafer) : Nat × Wafer :=
  let (e, w) := w.fresh
  (8 * w.countNow + e % 8, w)

def Wafer.sendTiming (w : Wafer) (i : Nat) (l : List Byte) : Wafer := w.queueFrame i 0 3 6 l

/-- The port's servo sends a Delay_Req and notes when it left. (Log 66 PRESUMED.) -/
def Wafer.askDelay (w : Wafer) (i : Nat) : Wafer :=
  let (c, w) := w.stampNow
  let t := w.portTime i
  let seq := (t.reqSeq + 1) % 2 ^ 16
  (w.setPortTime i { t with reqSeq := seq, t3 := some (c : Int), t4 := none }).sendTiming i (ptpMsg 1 seq 0 0 [])

/-- The module serves time on a port (R49): it answers a Delay_Req that came at `stamp`, and gives its own time in a Sync and its Follow_Up.
(Log 66 PRESUMED.) -/
def Wafer.serveTime (w : Wafer) (i : Nat) (req : List Byte) (stamp : Nat) : Wafer :=
  let w := w.sendTiming i (ptpMsg 9 (ptpSeq req) stamp (ptpField req - ptpRest stamp) (bytesAt req 20 10))
  let t := w.portTime i
  let (c, w) := (w.setPortTime i { t with outSeq := (t.outSeq + 1) % 2 ^ 16 }).stampNow
  (w.sendTiming i (ptpMsg 0 t.outSeq 0 0 [])).sendTiming i (ptpMsg 8 t.outSeq c (ptpRest c) [])

end Sys2Proof.Machine
end

