-- ==== Sys2Proof/Machine/Link.lean ====
section
/-!
DEFINITION. Sys2Proof/Machine/Link.lean: Towpath hops and links (R207, R210, R212 to R224, R232): bring-up, frames at the
hop receiver, credits and replay, lanes, keys and the loss of a link.
-/

namespace Sys2Proof.Machine

/-- A meaning that concerns one port. (Log 10 DESIGN CHOICE.) -/
def portStep (port : Nat) (s : State) (f : Wafer → Wafer) : Host.Outcome State Fault Refusal :=
  s.updIf (decide (port < 176)) f

/-! ## Bring-up (Table 9-8) -/

/-- Show the active lanes of a width. -/
def Wafer.showWidth (w : Wafer) (i n half mask : Nat) : Wafer :=
  w.wrs (portBase i) [(Reg.tpLinkstatLanes, n), (Reg.tpLinkstatHalf, half), (Reg.tpLinkstatLaneok, mask),
    (Reg.tpLinkstatDegraded, b2n (decide (n < fullLanes i)))]

/-- LINK_TRAINING_DONE (R216): lanes lock; the peer record is sent. -/
def execLinkTrainingDone (port : Nat) (s : State) : Host.Outcome State Fault Refusal :=
  portStep port s fun w =>
    if linkState w port ≠ 1 then w
    else match widthFor port (w.rd (portBase port) Reg.tpLinkstatRetired) with
      | none => w
      | some (n, h, m) => ((w.updPort port fun p => p.restartHop port).showWidth port n h m).enterIdent port

/-- Store a received peer record and the partner's chains (R221). -/
def Wafer.storePeer (w : Wafer) (i : Nat) (r : PeerRec) (ed ml : List Byte) : Wafer :=
  let w := w.updPort i fun p => { p with peerEd := ed, peerMl := ml, exch := { p.exch with identIn := identPayload r ed ml } }
  (w.wrs (portBase i) [(Reg.tpPeerhash0Hash, r.hash), (Reg.tpPeerhash1Hash, r.hash / 2 ^ 64),
    (Reg.tpPeerhash2Hash, r.hash / 2 ^ 128), (Reg.tpPeerhash3Hash, r.hash / 2 ^ 192), (Reg.tpPeeridPlace, r.place),
    (Reg.tpPeeridPort, r.port), (Reg.tpPeeridKind, r.kind), (Reg.tpPeeridValid, 1)]).syncVlen i

/-- A session that is up is torn down because the partner has restarted (R232): the link goes down and returns to
step 2. The spec's DOWNCAUSE codes name no such cause, so the latest cause stands. (Log 33 DEDUCED.) -/
def Wafer.partnerRestarted (w : Wafer) (i : Nat) : Wafer :=
  w.linkDown i (w.rd (portBase i) Reg.tpLinkstatDowncause) 0x0701 2

/-- IDENT (R221, R232). A quarantined port stores the record and goes on waiting for its retry. (Log 33 DEDUCED.) -/
def execIdent (port : Nat) (rec : PeerRec) (chains : ChainPair) (s : State) : Host.Outcome State Fault Refusal :=
  portStep port s fun w =>
    let w := (payloadFrames (identPayload rec chains.ed chains.ml)).foldl (fun w l => w.rxTook port 3 7 l) w
    match linkState w port with
    | 2 => (w.storePeer port rec chains.ed chains.ml).identCheck port
    | 3 => w.storePeer port rec chains.ed chains.ml
    | 4 => ((w.enterIdent port).storePeer port rec chains.ed chains.ml).identCheck port
    | 5 => ((w.partnerRestarted port).storePeer port rec chains.ed chains.ml).identCheck port
    | 6 => ((w.partnerRestarted port).storePeer port rec chains.ed chains.ml).identCheck port
    | _ => w

/-- The key exchange has succeeded (R217): the session comes up, and its servo asks for the delay (R50). -/
def Wafer.sessionUp (w : Wafer) (i secret : Nat) : Wafer :=
  if expectHeld w i && !peerMatches w i then w.quarantine i 9
  else
    let w := w.updPort i fun p =>
      { p.endSession with secret := some secret, upAt := w.time.passed, exch := { p.exch with early := [] } }
    let w := w.wrs (portBase i) [(Reg.tpLinkstatState, if expectHeld w i then 6 else 5), (Reg.tpKeystatRekeys, 0), (Reg.tpKeystatKph, 0)]
    (w.admitSetup.sendAll i).askDelay i

/-- Both of the partner's signatures over the transcript verify (R217). -/
def Wafer.keyxVerified (w : Wafer) (i : Nat) (ed ml : List Byte) : Bool :=
  let p := w.port i
  let root := p.anchor.getD (0, 0)
  Config.ed25519Ok (Config.chainLeaf p.peerEd root.1) (natLE 32 p.exch.hash) ed &&
  Config.mlDsaOk (Config.chainLeaf p.peerMl root.2) (natLE 32 p.exch.hash) ml

/-- A KEYX message of an exchange in progress (R217). One that this end does not await changes nothing; signatures that do not verify, or come
before the secrets are shared, quarantine the port. (Log 33 DEDUCED.) -/
def Wafer.keyxTake (w : Wafer) (i : Nat) (m : KeyxMsg) : Wafer :=
  let e := (w.port i).exch
  match m with
  | .offer x kem => if e.initiator || e.shared.isSome then w else w.keyxAnswer i x kem
  | .answer x kem =>
    if !e.initiator || e.shared.isSome then w
    else (w.updExchange i fun e =>
      { e with keyx := e.keyx ++ x ++ kem, shared := some (Config.x25519 e.id x ++ Config.kemDecaps e.id kem) }).keyxSign i
  | .signed ed ml =>
    match e.shared with
    | none => w.quarantine i 8
    | some secret =>
      if w.keyxVerified i ed ml then w.sessionUp i (leNat (hkdfExtract (natLE 32 e.hash) secret)) else w.quarantine i 8

/-- The payload of a KEYX message. (Log 33 DEDUCED.) -/
def keyxPayload (m : KeyxMsg) : List Byte :=
  match m with
  | .offer x kem => x ++ kem
  | .answer x kem => x ++ kem
  | .signed ed ml => ed ++ ml

/-- KEYX (R217): a message that comes before the setup is admitted waits for it (R216). -/
def execKeyx (port : Nat) (msg : KeyxMsg) (s : State) : Host.Outcome State Fault Refusal :=
  portStep port s fun w =>
    let w := (payloadFrames (keyxPayload msg)).foldl (fun w l => w.rxTook port 3 8 l) w
    if linkState w port ≠ 4 then w
    else if (w.port port).setup then w.keyxTake port msg
    else w.updExchange port fun e => { e with early := e.early ++ [msg] }

/-- QUARANTINE_RETRY (R221): every 10 s a quarantined port tries again. -/
def execQuarantineRetry (port : Nat) (s : State) : Host.Outcome State Fault Refusal :=
  portStep port s fun w => if linkState w port = 3 then w.retryIdent port else w

/-! ## Frames at the hop receiver -/

/-- Ask for the first SEQ that is lacking, and discard frames until it arrives (R214). (Log 33 DEDUCED.) -/
def Wafer.sendNak (w : Wafer) (i : Nat) : Wafer :=
  (w.updPort i fun p => { p with nakked := true }).emit (.linkCtl i 3 [(w.port i).expectSeq])

/-- A cumulative ACK (R214). -/
def Wafer.sendAck (w : Wafer) (i : Nat) : Wafer :=
  (w.updPort i fun p => { p with unacked := 0 }).emit (.linkCtl i 2 [((w.port i).expectSeq + 2 ^ 16 - 1) % 2 ^ 16])

/-- The frame is in order: the next SEQ is expected; an ACK goes every 128 frames. (Log 33 DEDUCED.) -/
def Wafer.acceptSeq (w : Wafer) (i : Nat) : Wafer :=
  let w := w.updPort i fun p =>
    { p with expectSeq := (p.expectSeq + 1) % 2 ^ 16, nakked := false, unacked := p.unacked + 1 }
  if 128 ≤ (w.port i).unacked then w.sendAck i else w

/-- A frame fails authentication (R220): it is counted, the session is torn down and the port returns to step 2; while a
job uses the link it is the job fault LINK_AUTH. (Log 33 DEDUCED.) -/
def Wafer.authFail (w : Wafer) (i : Nat) : Wafer :=
  let w := w.countIn (portBase i) Reg.tpErrAuth Reg.tpErrAuthovf 1
  if linkState w i = 5 ∨ linkState w i = 6 then
    let armed := w.portInJob i && !w.portInRun i
    let w := w.linkDown i 5 0x0703 2
    if armed then w.jobFault 0x0703 (detailRunit (portRunit i)) else w
  else w

/-- The key that a protected frame of a lane is under, and its number under that key (R218, R219): the lane's key, or the next one from
its first frame on; `none` where that key is gone. -/
def Port.rxKey (p : Port) (vl : Nat) (kph : Bool) : Option (Nat × Nat) :=
  let k := p.rxLane.getD vl 0
  if k ≠ p.rxIdx ∧ p.oldKey = false then none
  else if (k % 2 == 1) = kph then some (k, p.rxF.getD vl 0) else some (k + 1, 0)

/-- The previous key goes (R219). -/
def Port.dropOldKey (p : Port) : Port :=
  { p with oldKey := false, rxF := (List.range 4).map fun v => if p.rxLane.getD v 0 = p.rxIdx then p.rxF.getD v 0 else 0
           rxLane := List.replicate 4 p.rxIdx }

/-- A frame of a lane has authenticated under key index k as number f. The previous key goes when every lane that has carried protected
frames has shown the new phase. -/
def Port.keySeen (p : Port) (vl k f : Nat) : Port :=
  let p := { p with
    rxF := listSet p.rxF vl (f + 1), rxLane := listSet p.rxLane vl k, rxIdx := max k p.rxIdx, oldKey := p.oldKey || decide (p.rxIdx < k) }
  if p.oldKey && (List.range 4).all fun v => p.rxF.getD v 0 == 0 || p.rxLane.getD v 0 == p.rxIdx then p.dropOldKey else p

/-- The payload of a frame that authenticates, and the port after it (R218). -/
def Port.openFrame (p : Port) (fr : Frame) (mac : List Byte) : Option (List Byte × Port) :=
  match p.secret, p.rxKey fr.vl fr.kph with
  | some secret, some (k, f) =>
    (unsealFrame (sessionKey secret k p.exch.recvDir) fr mac f).map fun l => (l, p.keySeen fr.vl k f)
  | _, _ => none

/-- A frame must be protected (R220). -/
def mustProtect (fr : Frame) : Bool := fr.vl == 1 || fr.vl == 2 || fr.ftype == 5 || fr.ftype == 6

/-- The tag check of VL0 and VL1 (R223). (Log 34 DEDUCED.) -/
def tagOk (w : Wafer) (i tag : Nat) : Bool :=
  tag / 2 ^ 16 != 0 && (tag == w.rd (portBase i) Reg.tpTagCur ||
    (w.rd (portBase i) Reg.tpLinkstatStagedv == 1 && tag == w.rd (portBase i) Reg.tpTagStaged))

/-- The frame is an XFER frame (Table 9-18). -/
def isXfer (fr : Frame) : Bool := fr.vl == 1 && fr.ftype == 0 && fieldAt fr.payload 2 1 == 4

/-- A frame that must reach the array, on an edge port whose attach field sleeps (R207): a barge or VL1 data. (Log 34 DEDUCED.) -/
def arrayShut (w : Wafer) (i : Nat) (fr : Frame) : Bool :=
  !isArea i && decide (2 ≤ w.fieldState (portField i)) && fr.ftype == 0 && (fr.vl == 1 || (fr.vl == 0 && fieldAt fr.payload 2 1 == 0))

/-- The counter that a frame is dropped into, in the order of the link layer's checks after authentication: type, lane, fence, tag, and the
MSG of the lane's prefix (R207, R209, R223, R224, R229, R242, R259); `none` for one that is delivered. (Log 34 DEDUCED.) -/
def dropCounter (w : Wafer) (i : Nat) (fr : Frame) : Option (Nat × Fld) :=
  let b := portBase i
  if 9 ≤ fr.ftype ∨ (5 ≤ fr.ftype ∧ fr.vl ≠ 3) then some (b, Reg.tpDropvl)
  else if !portCarries w i fr.vl then some (b, Reg.tpDropvl)
  else if decide (fr.vl < 2) && w.portFenced i then some (b, Reg.tpDropfence)
  else if arrayShut w i fr then some (b, Reg.tpDropfence)
  else if decide (fr.vl < 2) && !(tagOk w i fr.tag && (!isXfer fr || w.running)) then some (b, Reg.tpDroptag)
  else if fr.vl == 0 && fr.ftype == 0 && decide (6 < fieldAt fr.payload 2 1) then some (wstBase, Reg.wstDrophdr)
  else if fr.vl == 1 && fr.ftype == 0 && decide (4 < fieldAt fr.payload 2 1) then some (jncBase i, Reg.jncDropchain)
  else none

/-- The link layer's checks of a frame whose payload is in the clear: it is dropped, and its credit returned, or delivered into the
buffer. -/
def Wafer.linkDeliver (w : Wafer) (i : Nat) (fr : Frame) : Wafer :=
  match dropCounter w i fr with
  | some c => (w.count c.1 c.2).returnCredit i fr.vl
  | none => (w.updPort i fun p => { p with rx := p.rx ++ [⟨fr.vl, fr.ftype, fr.seq, fr.payload, false⟩] }).count (portBase i) Reg.tpRxframes

/-- A frame that the hop has accepted: authentication comes first (R218, R220). -/
def Wafer.linkReceive (w : Wafer) (i : Nat) (fr : Frame) (mac : List Byte) : Wafer :=
  if fr.prot then
    match (w.port i).openFrame fr mac with
    | some (l, p) => (w.setPort i p).linkDeliver i { fr with payload := l }
    | none => (w.returnCredit i fr.vl).authFail i
  else if mustProtect fr then (w.returnCredit i fr.vl).authFail i
  else w.linkDeliver i fr

/-- HOP_FRAME_RECEIVE (R210, R214, R218 to R224, R229): 256 bytes, or a frame in an FEC codeword that the decoder could not correct, charged
to a lane (R215). Link-control frames have commands of their own; here they pass only the CRC. (Log 33 DEDUCED.) -/
def execHopFrameReceive (port : Nat) (rx : Received) (s : State) : Host.Outcome State Fault Refusal :=
  portStep port s fun w =>
    let b := portBase port
    let fr := frameOf rx.bytes
    if linkState w port = 0 ∨ linkState w port = 7 then w
    else match rx.fecLane with
      | some k =>
        let w := w.countIn b Reg.tpErrUncorr Reg.tpErrUncorrovf 1
        ((if k < fullLanes port then w.classify ⟨6, 0xFF, 0xFF, portRunit port, k⟩ true else w)).sendNak port
      | none =>
        if !crcOk rx.bytes then (w.countIn b Reg.tpErrCrc Reg.tpErrCrcovf 1).sendNak port
        else if 1 ≤ fr.ftype ∧ fr.ftype ≤ 4 then w
        else
          let e := (w.port port).expectSeq
          if fr.seq = e then (w.acceptSeq port).linkReceive port fr (frameMac rx.bytes)
          else if (fr.seq + 2 ^ 16 - e) % 2 ^ 16 < 2 ^ 15 then (if (w.port port).nakked then w else w.sendNak port)
          else w

/-! ## Credits and replay -/

/-- Entries of the replay buffer that a cumulative ACK of `seq` releases. -/
def Port.ackedCount (p : Port) (seq : Nat) : Nat :=
  match indexOf? (fun (f : TxFrame) => f.seq == seq) p.replay with
  | none => 0
  | some k => k + 1

/-- NAK (R214): the sender sends again from the named frame; what stands before it has arrived. -/
def execNak (port : Nat) (seq : Nat) (s : State) : Host.Outcome State Fault Refusal :=
  portStep port s fun w =>
    match indexOf? (fun (f : TxFrame) => f.seq == seq) (w.port port).replay with
    | none => w
    | some k => w.resendFrom port k

/-- REPLAY_TIMEOUT (R214): after 20 µs with no ACK progress the oldest frame and all that follow go again. -/
def execReplayTimeout (port : Nat) (s : State) : Host.Outcome State Fault Refusal :=
  portStep port s fun w => if (w.port port).replay.isEmpty then w else w.resendFrom port 0

/-- CREDIT_FRAME_SEND (R212): after 256 ns with credits waiting. -/
def execCreditFrameSend (port : Nat) (s : State) : Host.Outcome State Fault Refusal :=
  portStep port s fun w =>
    let o := (w.port port).owed
    if o.all (· == 0) then w
    else (w.updPort port fun p => { p with owed := [0, 0, 0, 0] }).emit (.linkCtl port 1 o)

/-- ACK_SEND (R214): after 256 ns since the last ACK. -/
def execAckSend (port : Nat) (s : State) : Host.Outcome State Fault Refusal :=
  portStep port s fun w => if (w.port port).unacked = 0 then w else w.sendAck port

/-! ## Lanes (R215) -/

/-- One error at a lane's location. -/
def Wafer.laneError (w : Wafer) (port lane : Nat) : Wafer :=
  if bit (w.rd (portBase port) Reg.tpLinkstatLaneok) lane then w.classify ⟨6, 0xFF, 0xFF, portRunit port, lane⟩ false else w

/-- LANE_SER_EXCEEDED (R215). -/
def execLaneSerExceeded (port lane : Nat) (s : State) : Host.Outcome State Fault Refusal :=
  s.updIf (decide (port < 176 ∧ lane < fullLanes port)) fun w => w.laneError port lane

/-- LANE_LOSS_OF_LOCK (R215). -/
def execLaneLossOfLock (port lane : Nat) (s : State) : Host.Outcome State Fault Refusal :=
  s.updIf (decide (port < 176 ∧ lane < fullLanes port)) fun w => w.laneError port lane

/-! ## Keys (R219) -/

/-- REKEY (R219): after 2^32 protected frames the next key is sent under: KPH is inverted and the frame counts start again. -/
def execRekey (port : Nat) (s : State) : Host.Outcome State Fault Refusal :=
  portStep port s fun w =>
    if (w.port port).secret.isSome ∧ 2 ^ 32 ≤ (w.port port).txTotal then
      let b := portBase port
      (w.updPort port fun p => { p with txF := [0, 0, 0, 0], txTotal := 0, txIdx := p.txIdx + 1 }).wrs b
        [(Reg.tpKeystatRekeys, w.rd b Reg.tpKeystatRekeys + 1), (Reg.tpKeystatKph, 1 - w.rd b Reg.tpKeystatKph)]
    else w

/-- OLD_KEY_EXPIRY (R219): after 10 ms the previous key goes. -/
def execOldKeyExpiry (port : Nat) (s : State) : Host.Outcome State Fault Refusal :=
  portStep port s fun w => w.updPort port fun p => if p.oldKey then p.dropOldKey else p

/-! ## Loss (R232) -/

/-- LOSS_OF_LIGHT (R232): no signal on all active lanes for 1 µs; a width change under way is abandoned (R234). -/
def execLossOfLight (port : Nat) (s : State) : Host.Outcome State Fault Refusal :=
  portStep port s fun w =>
    if linkState w port = 0 ∨ linkState w port = 7 ∨ linkState w port = 1 then w else w.linkDown port 1 0x0701 1

/-- The condition of PARTNER_LOST: three ticks without a heartbeat once one has arrived; before the first, 2 ms plus
3 ticks since the session came up. -/
def partnerSilent (w : Wafer) (i : Nat) : Bool :=
  let p := w.port i
  if p.hbSeen then decide (3 ≤ p.hbMissed)
  else decide (p.upAt + 2500000 + 3 * w.period ≤ w.time.passed)

/-- PARTNER_LOST (R232). The link returns to step 2. -/
def execPartnerLost (port : Nat) (s : State) : Host.Outcome State Fault Refusal :=
  portStep port s fun w =>
    if (linkState w port = 5 ∨ linkState w port = 6) ∧ partnerSilent w port = true then w.linkDown port 4 0x0702 2 else w

end Sys2Proof.Machine
end

