-- ==== Sys2Proof/Machine/HostMem.lean ====
section
/-!
DEFINITION. Sys2Proof/Machine/HostMem.lean: CXL.mem accesses to the quay windows and the command chambers (R187, R283, R285)
and the patrol scrubbers (R200, R201, R203).
-/

namespace Sys2Proof.Machine

/-! ## Host accesses -/

/-- Write the enabled bytes of a range whose address map is `at'`; a 64-bit word loses its poison only when every one of its
bytes is written (R187). -/
def Mem.writeEnabled (m : Mem) (at' : Nat → Nat) (a : Nat) (data : List Byte) (enable : List Bool) : Mem :=
  let n := data.length
  let m := (List.range n).foldl (fun m i => if enable.getD i false then m.set (at' (a + i)) (data.getD i 0#8) else m) m
  (List.range (n / 8 + 2)).foldl (fun m k =>
    let word := a / 8 * 8 + 8 * k
    let whole := (List.range 8).all fun j => decide (a ≤ word + j) && enable.getD (word + j - a) false && decide (word + j < a + n)
    if whole then m.mark (at' word) false else m) m

/-- A line of a quay range is out of reach (R23): the access waits at the stack. (Log 27 DESIGN CHOICE.) -/
def Wafer.quayShut (w : Wafer) (qa n : Nat) : Bool :=
  (List.range (n / 256 + 2)).any fun i =>
    let q := if i = 0 then qa else (qa / 256 + i) * 256
    decide (q < qa + n) && w.lineFenced (quayAddr w q / 2 ^ 37) (quayAddr w q % 2 ^ 37)

/-- CXL_MEM_WRITE (R187, R283): one host access to a port's 64 GiB quay window. -/
def execCxlMemWrite (port addr : Nat) (data : List Byte) (enable : List Bool) (s : State) : Host.Outcome State Fault Refusal :=
  s.updIf (decide (port < 2)) fun w =>
    if addr + data.length ≤ 2 ^ 36 ∧ w.quayShut (port * 2 ^ 36 + addr) data.length = false then
      { w with stkMem := w.stkMem.writeEnabled (quayAddr w) (port * 2 ^ 36 + addr) data enable }
    else w

/-- CXL_MEM_READ (R187, R283): the 64 bytes that hold an address, with data poison when one of their words is poisoned.
(Log 27 DESIGN CHOICE.) -/
def execCxlMemRead (port addr : Nat) (s : State) : Host.Outcome State Fault Refusal :=
  s.updIf (decide (port < 2)) fun w =>
    let a := addr / 64 * 64
    if a < 2 ^ 36 then
      let qa := port * 2 ^ 36 + a
      if w.quayShut qa 64 then w
      else w.emit (.readData (w.quayRead qa 64) (w.quayBad qa 64))
    else if a < 2 ^ 36 + 2 ^ 22 then
      let c := chamberAddr port (a - 2 ^ 36)
      w.emit (.readData (w.chamber.read c 64) (w.chamber.badIn c 64))
    else w

/-- CHAMBER_WRITE (R283, R285): bytes stored in a port's chamber of 1,024 slots of 4 KiB. -/
def execChamberWrite (port off : Nat) (data : List Byte) (s : State) : Host.Outcome State Fault Refusal :=
  s.updIf (decide (port < 2)) fun w =>
    if off + data.length ≤ 2 ^ 22 then { w with chamber := w.chamber.write (chamberAddr port off) data } else w

/-! ## Scrubbing -/

/-- A word as it is read when the listed bits of its code word have flipped. -/
def flipped (word : Nat) (bad : Bool) (flips : List Nat) : Nat := flips.foldl (fun v b => v ^^^ 2 ^ b) (codeWord word bad)

/-- What the decoder makes of a stored word when the listed code bits have flipped (R200, R201): the data and the poison bit
it delivers and writes back, and whether the word was corrected or found uncorrectable. With four flips or more nothing is
promised: the word is a free value. -/
def scrubWord (word : Nat) (bad : Bool) (flips : List Nat) (free : Nat) : Nat × Bool × Bool :=
  let n := flips.length
  if n ≤ 2 then (codeData (codeWord word bad), codePoison (codeWord word bad), false)
  else if n = 3 then (codeData (flipped word bad flips), true, true)
  else (free % 2 ^ 64, bit free 64, bit free 64)

/-- The memories a scrubber reads: 0 core memory, 1 cluster memory, 2 accumulator stores, 3 stacks, 4 command chambers; by the
keys of Ops.lean. -/
def Wafer.scrubMem (w : Wafer) (k : Nat) : Mem :=
  match k with
  | 0 => w.coreMem | 1 => w.cluMem | 2 => w.accMem | 3 => w.stkMem | _ => w.chamber

def Wafer.setScrubMem (w : Wafer) (k : Nat) (m : Mem) : Wafer :=
  match k with
  | 0 => { w with coreMem := m } | 1 => { w with cluMem := m } | 2 => { w with accMem := m } | 3 => { w with stkMem := m }
  | _ => { w with chamber := m }

/-- Size of each memory's key space. -/
def scrubLimit (k : Nat) : Nat :=
  match k with
  | 0 => 2240 * 2 ^ 24 | 1 => 448 * 2 ^ 25 | 2 => 4480 * 2 ^ 20 | 3 => 32 * 2 ^ 37 | _ => 2 * 2 ^ 22

/-- The error location of a word (Table 16-1). (Log 28 PRESUMED.) -/
def Wafer.scrubLoc (w : Wafer) (k a : Nat) : ErrLoc :=
  match k with
  | 0 => coreMemLoc (a / 2 ^ 24) (a % 2 ^ 24)
  | 1 =>
    let cl := a / 2 ^ 25
    ⟨2, cl / 4, 32 + cl % 4, 255, a / 64 % 8 * 2 ^ 17 + a % 2 ^ 25 / 512⟩
  | 2 =>
    let e := a / 2 ^ 20
    ⟨3, e / 2 / 20, e / 2 % 20, 255, e % 2 * 2048 + a / 2 ^ 19 % 2 * 1024 + a / 512 % 1024⟩
  | 3 => w.stackLoc (a / 2 ^ 37) (a % 2 ^ 37)
  | _ => ⟨9, 0xFF, 0, 255, a / 2 ^ 22 * 2 ^ 12 + a / 1024 % 4096⟩

/-- The memory and the address of word number `k` of the row that a location names; the inverse of `scrubLoc`.
(Log 28 PRESUMED.) -/
def Wafer.locWord (w : Wafer) (l : ErrLoc) (k : Nat) : Option (Nat × Nat) :=
  match l.kind with
  | 1 => some (0, (l.field * 20 + l.unit) * 2 ^ 24 + l.index % 8192 * 2048 + l.index / 8192 % 64 * 32 + 8 * (k % 4))
  | 2 =>
    if 65536 ≤ l.index % 2 ^ 17 then none
    else some (1, (l.field * 4 + l.unit % 32) * 2 ^ 25 + l.index % 2 ^ 17 * 512 + l.index / 2 ^ 17 % 8 * 64 + 8 * (k % 8))
  | 4 =>
    let chans := w.channels l.runit
    let a := ((l.index % 2 ^ 17 * 32 + k % 1024 / 32) * chans.length + (indexOf? (· == l.index / 2 ^ 17) chans).getD 0) * 256 + 8 * (k % 32)
    if chans.contains (l.index / 2 ^ 17) && decide (a < 2 ^ 37) then some (3, l.runit * 2 ^ 37 + a) else none
  | 9 => if l.unit = 0 ∧ l.index < 8192 then some (4, l.index / 4096 * 2 ^ 22 + l.index % 4096 * 1024 + 8 * (k % 128)) else none
  | _ => none

/-- A word that the decoder could not correct is rewritten with its poison bit set (R201). -/
def Wafer.poisonAt (w : Wafer) (l : ErrLoc) (k : Nat) : Wafer :=
  match w.locWord l k with
  | none => w
  | some (mem, a) => w.setScrubMem mem ((w.scrubMem mem).mark a true)

/-- Errors that a stack controller meets are counted in its STK_ERR too (Table 8-8). -/
def Wafer.stackErr (w : Wafer) (stk ch : Nat) (uncorrectable : Bool) : Wafer :=
  if uncorrectable then (w.countIn (stkBase stk) Reg.stkErrUe Reg.stkErrUeovf 1).wr (stkBase stk) Reg.stkErrChan ch
  else w.countIn (stkBase stk) Reg.stkErrCe Reg.stkErrCeovf 1

/-- PATROL_SCRUB (R201, R203): one word is read, corrected and written back, and what was found is reported. `flips` lists
the code bits that have flipped since the word was written. -/
def execPatrolScrub (mem addr : Nat) (flips : List Nat) (s : State) : Host.Outcome State Fault Refusal :=
  s.updIf (decide (mem < 5 ∧ addr < scrubLimit mem)) fun w =>
    let a := addr / 8 * 8
    let fl := flips.eraseDups.filter (· < 80)
    let shut := (mem == 3 && w.lineFenced (a / 2 ^ 37) (a % 2 ^ 37)) || (mem == 1 && w.groupsShut (a / 2 ^ 25) (a % 2 ^ 25) 8)
    if fl.isEmpty || shut then w
    else
      let m := w.scrubMem mem
      let (free, w) := if 3 < fl.length then w.fresh else (0, w)
      let (x, bad, ue) := scrubWord (m.num a 8) (m.badAt a) fl free
      let w := w.setScrubMem mem ((m.setBytes a (natLE 8 x)).mark a bad)
      let told := decide (fl.length ≤ 3) || ue
      if !told then w
      else
        let loc := w.scrubLoc mem a
        let w := if mem = 3 then w.stackErr loc.runit (loc.index / 2 ^ 17) ue else w
        w.classify loc ue

end Sys2Proof.Machine
end

