-- ==== Sys2Proof/Machine/CmdMisc.lean ====
section
/-!
DEFINITION. Sys2Proof/Machine/CmdMisc.lean: the commands of family 0x00xx (Table 12-12).
-/

namespace Sys2Proof.Machine

/-- NOP. -/
def nopSpec : CmdSpec := { opcode := 0x0000, now := true, reads := true, len := lenIs 0, act := fun w _ => { w := w } }

def execNop (p : Packet) (s : State) : Host.Outcome State Fault Refusal := commandStep nopSpec p s

/-- What IDENTIFY reports: part number, serial, slot versions, place address, certificate hashes, wafer map digest.
(Log 58 DESIGN CHOICE.) -/
def Wafer.identity (w : Wafer) : List Nat :=
  [Config.partNumber, Config.serial, w.fwVersion 0, w.fwVersion 1, w.rd 0 Reg.shpPlacePlace, sha3 Config.edChain, sha3 Config.mlChain,
   sha3 w.map.bytes]

/-- IDENTIFY. -/
def identifySpec : CmdSpec :=
  { opcode := 0x0001, now := true, reads := true, len := lenIs 0, act := fun w _ => { w := w, data := Config.identifyBody w.identity } }

def execIdentify (p : Packet) (s : State) : Host.Outcome State Fault Refusal := commandStep identifySpec p s

/-- SEQ_RESET (R288): taken at any sequence number s; NEXT is s + 1. -/
def seqResetSpec : CmdSpec := { opcode := 0x0002, now := true, len := lenIs 0, act := fun w _ => { w := w } }

def execSeqReset (p : Packet) (s : State) : Host.Outcome State Fault Refusal := commandStep seqResetSpec p s

/-- PLACE_SET (R319): the record is committed; the address takes effect at the next boundary. (Log 73 PRESUMED.) -/
def placeSetSpec : CmdSpec :=
  { opcode := 0x0003, duty := 3, len := lenIs 4
    check := fun w p =>
      if 2 ^ 25 ≤ fieldAt p.params 0 4 then (0x0103, 67) else if w.armedOrRunning then (0x0401, 0) else (0, 0)
    act := fun w fl =>
      let a := fieldAt fl.p.params 0 4
      let w := { w with shp := { w.shp with place := w.shp.place.commit a, placeNew := some a } }
      { w := w.wr 0 Reg.shpPlaceSet 1 } }

def execPlaceSet (p : Packet) (s : State) : Host.Outcome State Fault Refusal := commandStep placeSetSpec p s

/-- QUAY_WRITE (R297, R302). -/
def quayWriteSpec : CmdSpec :=
  { opcode := 0x0004, now := true, len := fun n => decide (8 ≤ n ∧ n ≤ 4032)
    sum := some fun w p => digest12 (w.quayRead (fieldAt p.params 0 8) (p.params.length - 8))
    check := fun _ p => if quayOk (fieldAt p.params 0 8) (p.params.length - 8) then (0, 0) else (0x0106, 0)
    act := fun w fl =>
      let data := fl.p.params.drop 8
      { w := { w with stkMem := w.stkMem.writeEnabled (quayAddr w) (fieldAt fl.p.params 0 8) data (data.map fun _ => true) } } }

def execQuayWrite (p : Packet) (s : State) : Host.Outcome State Fault Refusal := commandStep quayWriteSpec p s

/-- QUAY_READ. -/
def quayReadSpec : CmdSpec :=
  { opcode := 0x0005, now := true, reads := true, len := lenIs 12
    check := fun _ p =>
      let n := fieldAt p.params 8 4
      if n = 0 ∨ 4032 < n then (0x0103, 72) else if quayOk (fieldAt p.params 0 8) n then (0, 0) else (0x0106, 0)
    act := fun w fl => { w := w, data := w.quayRead (fieldAt fl.p.params 0 8) (fieldAt fl.p.params 8 4) } }

def execQuayRead (p : Packet) (s : State) : Host.Outcome State Fault Refusal := commandStep quayReadSpec p s

end Sys2Proof.Machine
end

