-- ==== Sys2Proof/Machine/Matrix.lean ====
section
/-!
DEFINITION. Sys2Proof/Machine/Matrix.lean: the matrix engines (chapter 3): modes, loads, streams, the checks of Table 3-10,
the shadow load, and the passes with their arithmetic (R87 to R93), tails (R78) and output paths (R73, R75).
-/

namespace Sys2Proof.Machine

/-! ## Descriptors (Tables 3-2, 3-4, 3-5, 6-3) -/

def modeOf (l : List Byte) : Mode :=
  ⟨fieldAt l 0 1, fieldAt l 1 1, fieldAt l 2 1, fieldAt l 3 1, fieldAt l 4 1, fieldAt l 5 1, fieldAt l 6 1, fieldAt l 8 4, fieldAt l 12 4⟩

def loadDescOf (l : List Byte) : LoadDesc :=
  ⟨fieldAt l 0 4, fieldAt l 4 2, fieldAt l 6 2, fieldAt l 8 4, fieldAt l 12 4, fieldAt l 16 1, fieldAt l 17 1,
    fieldAt l 18 2, fieldAt l 20 2, false⟩

def streamDescOf (l : List Byte) : StreamDesc :=
  ⟨fieldAt l 0 4, fieldAt l 4 2, fieldAt l 6 1, fieldAt l 7 1, fieldAt l 8 4, fieldAt l 12 4, fieldAt l 16 4, fieldAt l 20 4,
    fieldAt l 24 4, false⟩

def LoadDesc.trans (d : LoadDesc) : Bool := bit d.flags 0
def LoadDesc.sparse (d : LoadDesc) : Bool := bit d.flags 1
def LoadDesc.cluster (d : LoadDesc) : Bool := bit d.flags 2
def StreamDesc.newTile (d : StreamDesc) : Bool := bit d.flags 0

/-- The first byte at or above the scratch limit of a cluster (R191). -/
def Wafer.scratchLimit (w : Wafer) (cl : Nat) : Nat := w.rd (tirBase cl) Reg.tirSplitScratch * 2 ^ 21

/-- The first address past the memory that a load descriptor names: core memory, or cluster memory up to the scratch limit. -/
def loadLimit (w : Wafer) (site : Nat) (d : LoadDesc) : Nat :=
  if d.cluster then w.scratchLimit (siteCluster site) else 2 ^ 24

/-! ## Checks (Table 3-10) -/

/-- K_max of a format class (Table 3-1). -/
def kMax (fmt : Nat) : Nat := 256 * fmtPack fmt

/-- The formats the distance modes accept. -/
def distFmt (c : Nat) : Bool := c == 0 || c == 2 || c == 3 || c == 11

/-- Format pairs (R60). -/
def pairOk (a b : Nat) : Bool :=
  let fp8 := fun c => c == 2 || c == 3
  let mx86 := fun c => decide (4 ≤ c ∧ c ≤ 7)
  (fp8 a && fp8 b) || (mx86 a && mx86 b) || a == b

/-- A reserved value in an OP, format, TAIL, OUT, OFMT or RND field. -/
def Mode.reserved (m : Mode) : Bool :=
  decide (5 < m.op ∨ 12 < m.dfmt ∨ 12 < m.wfmt ∨ 3 < m.tail ∨ 2 < m.out ∨ 4 < m.ofmt ∨ 1 < m.rnd)

/-- The lowest code whose check fails; 0 when none does. Where several fail the spec does not say which is recorded.
(Log 20 DEDUCED.) -/
def firstCode : List (Nat × Bool) → Nat
  | [] => 0
  | (c, true) :: _ => c
  | (_, false) :: l => firstCode l

/-- The checks of a dense MAT.LOAD (R59, R60, R72, R76). With a reserved value in the mode the checks that read the mode mean nothing:
only 0x03, 0x0B and 0x0C are considered then. (Log 20 DEDUCED.) -/
def loadCode (w : Wafer) (site addr : Nat) (m : Mode) (d : LoadDesc) : Nat :=
  if m.reserved then (if d.n = 0 ∨ 128 < d.n then 3 else if addr % 16 ≠ 0 then 0x0B else 0x0C)
  else
    let dist := m.op != 0
    let mx := fmtIsMx m.wfmt
    let (rows, per) := if d.trans then (d.n, d.k) else (d.k, d.n)
    let last := d.src + (rows - 1) * d.stride + ceilDiv (per * fmtBits m.wfmt) 8
    firstCode
      [(0x02, decide (d.k < (if mx then 32 else 1) ∨ (if dist then 256 else kMax m.wfmt) < d.k)),
       (0x03, decide (d.n = 0 ∨ 128 < d.n)),
       (0x04, !pairOk m.dfmt m.wfmt),
       (0x05, dist && (!distFmt m.wfmt || m.dfmt != m.wfmt)),
       (0x06, mx && d.k % 32 != 0),
       (0x07, d.trans && mx),
       (0x0B, decide (addr % 16 ≠ 0 ∨ d.stride % 32 ≠ 0 ∨ loadLimit w site d < last) ||
         (mx && decide (2 ^ 24 < d.wsc + d.n * (d.k / 32))))]

/-- The checks of a sparse MAT.LOAD (R137): the tensor's header lies in the memory that SPACE names, and what lies in the tensor is
checked later. (Log 20 DEDUCED.) -/
def sparseCode (w : Wafer) (site addr : Nat) (m : Mode) (d : LoadDesc) : Nat :=
  if m.reserved then (if d.n = 0 ∨ 128 < d.n then 3 else if addr % 16 ≠ 0 then 0x0B else 0x0C)
  else
    let kx := kMax m.wfmt
    let db := if d.dbound = 0 then 256 else d.dbound
    firstCode
      [(0x02, decide (d.k = 0 ∨ d.k % kx ≠ 0 ∨ 8 * kx < d.k ∨ 256 * kx < db * d.k)),
       (0x03, decide (d.n = 0 ∨ 128 < d.n)),
       (0x04, !pairOk m.dfmt m.wfmt),
       (0x05, fmtIsMx m.wfmt || m.op != 0),
       (0x07, d.trans),
       (0x0B, decide (addr % 16 ≠ 0 ∨ d.stride ≠ 0 ∨ d.wsc ≠ 0 ∨ d.src % 32 ≠ 0 ∨ loadLimit w site d < d.src + 64))]

/-- What a pass needs to know of a tile before it is loaded: the mode it was loaded under, K, N and S. -/
structure TileShape where
  mode : Mode
  k : Nat
  n : Nat
  s : Nat
  sparse : Bool
  deriving DecidableEq, Repr, Inhabited

/-- S, the depth regions of a tile (1 when dense). -/
def LoadDesc.regions (d : LoadDesc) (m : Mode) : Nat := if d.sparse then d.k / kMax m.wfmt else 1

def pendShape (p : Pend) : TileShape := ⟨p.mode, p.desc.k, p.desc.n, p.desc.regions p.mode, p.desc.sparse⟩
def tileShape (t : Tile) : TileShape := ⟨t.mode, t.k, t.n, t.s, t.sparse⟩

/-- A queued pass has yet to swap the pending tile in. -/
def Engine.pendTaken (x : Engine) : Bool := x.passes.any fun p => !p.issued && p.desc.newTile

/-- The tile that will be active when a stream accepted now reaches the array. -/
def Engine.comingTile (x : Engine) : Option TileShape :=
  if x.pendTaken then x.pend.map pendShape else x.active.map tileShape

/-- The checks of MAT.STREAM (R65, R73, R75, R78, R142). (Log 20 DEDUCED.) -/
def streamCode (w : Wafer) (site addr : Nat) (x : Engine) (m : Mode) (d : StreamDesc) : Nat :=
  let new := d.newTile
  let noPend := new && (x.pend.isNone || x.pendTaken)
  let tile := if new then x.pend.map pendShape else x.comingTile
  let rows := match m.tail with
    | 0 => d.m | 1 => 1 | _ => 2
  let acc := decide (m.out < 2)
  let bad0A := match tile with
    | none => !new
    | some t => t.mode.op != m.op || t.mode.dfmt != m.dfmt || t.mode.wfmt != m.wfmt
  let first := firstCode
    [(0x01, d.m == 0), (0x08, !m.reserved && acc && decide (1 < d.bank ∨ 1024 < d.dst + rows)), (0x09, noPend), (0x0A, bad0A)]
  if first ≠ 0 then first
  else match tile with
    | none => 0x09
    | some t =>
      let width := 512 * t.s
      let outRows := streamRows m d t.n
      let c := w.core site
      let bad0B := decide (addr % 16 ≠ 0 ∨ d.sstride % 32 ≠ 0 ∨ 2 ^ 24 < d.src + (d.m - 1) * d.sstride + width) ||
        (t.sparse && decide (d.sstride < width)) ||
        (fmtIsMx m.dfmt && decide (2 ^ 24 < d.dsc + d.m * (t.k / 32))) ||
        (!acc && (d.dstride % 32 != 0 || (outRows.any fun r => decide (2 ^ 24 < r.1 + r.2) || c.inCode r.1 r.2) ||
          (decide (2 ≤ m.tail) && decide (d.dstride < ceilDiv (4 * t.n) 32 * 32))))
      if bad0B then 0x0B else if m.reserved then 0x0C else 0

/-- An engine refuses an instruction: the core stops at it (R79). -/
def engineRefuse (w : Wafer) (i : Issue) (e code addr : Nat) : Went :=
  .stopped ((w.coreStop i.site).engineFault e code (addr % 2 ^ 24) 0 0)

/-! ## The instructions (R62 to R66, R108) -/

/-- A MAT instruction: the engine in D[0]; D[4:1], B and C zero. (Log 20 DEDUCED.) -/
def matInstr (i : Issue) (s : State) (go : Wafer → Nat → Nat → Went) : Host.Outcome State Fault Refusal :=
  coreInstr i s (decide (2 ≤ i.d ∨ i.b ≠ 0 ∨ i.c ≠ 0)) fun w => go w (2 * i.site + i.d) (w.descAddr i)

/-- A descriptor that lies past core memory is CORE_ADDR; one with a poisoned word is CORE_POISON (R130). -/
def withDesc (w : Wafer) (i : Issue) (a n : Nat) (go : List Byte → Went) : Went :=
  if 2 ^ 24 < a + n then .fault 2
  else if w.coreMem.badIn (coreAddr i.site a) n then .stopped ((w.classify (coreMemLoc i.site a) true).coreFault i.site 0x10 (w.pcOf i.site))
  else go (w.coreBytes i.site a n)

/-- MAT.MODE (R63). A misaligned descriptor address is CORE_ADDR. -/
def execMatMode (i : Issue) (s : State) : Host.Outcome State Fault Refusal :=
  matInstr i s fun w e a =>
    if a % 16 ≠ 0 then .fault 2
    else withDesc w i a 16 fun l => .ok (w.setEngine e { w.engine e with mode := modeOf l })

/-! ## The feeders (R101, R119) -/

/-- The tile of a dense load as the weight feeder reads it, without its scales (R64, R72). The feeder reads from the acceptance of the
load; the model reads at once. (Log 21 DEDUCED.) -/
def readTile (w : Wafer) (site : Nat) (m : Mode) (d : LoadDesc) : Tile :=
  let b := fmtBits m.wfmt
  let cl := siteCluster site
  let rows := d.rows m.wfmt
  let stored := rows.map fun r => if d.cluster then w.cluMem.read (cluAddr cl r.1) r.2 else w.coreMem.read (coreAddr site r.1) r.2
  let bad := rows.any fun r => if d.cluster then w.cluMem.badIn (cluAddr cl r.1) r.2 else w.coreMem.badIn (coreAddr site r.1) r.2
  let elem := fun k n => if d.trans then packedElem (stored.getD n []) b k else packedElem (stored.getD k []) b n
  ⟨m, false, d.k, d.n, 1, 0, (List.range d.k).map fun k => (List.range d.n).map fun n => some (elem k n), [], bad⟩

/-- The weight scales, read during the shadow load (R101). -/
def Tile.withScales (t : Tile) (w : Wafer) (site : Nat) (d : LoadDesc) : Tile :=
  let n := if fmtIsMx t.mode.wfmt then d.n * (d.k / 32) else 0
  let a := coreAddr site d.wsc
  { t with scales := (w.coreMem.read a n).map (·.toNat), bad := t.bad || (decide (0 < n) && w.coreMem.badIn a n) }

/-- The tile that the weight feeder holds: none while an arbiter grants it no reads (R119). -/
def feedTile (w : Wafer) (site : Nat) (m : Mode) (d : LoadDesc) : Option Tile :=
  if w.feedShut site m d then none else some (readTile w site m d)

/-- Data row r of a pass as the data feeder reads it, without its scales (R65, R142). -/
def readRow (w : Wafer) (site : Nat) (p : Pass) (r : Nat) : DataRow :=
  let b := fmtBits p.mode.dfmt
  let len := ceilDiv (p.k * b) 8
  let a := coreAddr site (p.desc.src + r * p.desc.sstride)
  let row := w.coreMem.read a len
  ⟨(List.range p.k).map fun i => packedElem row b i, [], w.coreMem.badIn a len⟩

/-- The scales of data row r, read as it enters the array (R101). -/
def DataRow.withScales (x : DataRow) (w : Wafer) (site : Nat) (p : Pass) (r : Nat) : DataRow :=
  let n := if fmtIsMx p.mode.dfmt then p.k / 32 else 0
  let a := coreAddr site (p.desc.dsc + r * n)
  { x with scales := (w.coreMem.read a n).map (·.toNat), bad := x.bad || (decide (0 < n) && w.coreMem.badIn a n) }

/-- Rows from the one that the feeder has not read to row `total`. -/
def Pass.fill (p : Pass) (w : Wafer) (site total : Nat) : Pass :=
  { p with rows := p.rows ++ (rangeFrom p.rows.length (total - p.rows.length)).map fun r => readRow w site p r }

/-- What a data feeder holds: the rows of its passes in order, as far as 64 segments of 512 bytes reach (R119, R142). The feeder reads
from the acceptance of a stream; the model reads as soon as there is room. (Log 21 DEDUCED.) -/
def feedPasses (w : Wafer) (site : Nat) : Nat → List Pass → List Pass
  | _, [] => []
  | room, p :: l =>
    if p.issued then p :: feedPasses w site room l
    else
      let q := p.fill w site (min p.desc.m (room / max p.s 1))
      q :: feedPasses w site (if q.rows.length < p.desc.m then 0 else room - q.rows.length * max p.s 1) l

def Wafer.feed (w : Wafer) (e : Nat) : Wafer :=
  let x := w.engine e
  w.setEngine e { x with passes := feedPasses w (e / 2) 64 x.passes }

/-! ## MAT.LOAD, MAT.STREAM, MAT.WAIT -/

/-- MAT.LOAD (R64): the tile becomes pending, and the weight feeder reads it; a sparse one enters the queue of the cluster's GME
(R138). -/
def execMatLoad (i : Issue) (s : State) : Host.Outcome State Fault Refusal :=
  matInstr i s fun w e a =>
    let x := w.engine e
    if x.pend.isSome then .hold (.engine e)
    else withDesc w i a 32 fun l =>
      let d := loadDescOf l
      let code := if d.sparse then sparseCode w i.site a x.mode d else loadCode w i.site a x.mode d
      if code ≠ 0 then engineRefuse w i e code a
      else
        let w := w.matHold e i.held
        let w := (w.setEngine e { x with 
          pend := some ⟨d, a, x.mode, if d.sparse then .queued else .dense, none, if d.sparse then none else feedTile w i.site x.mode d, false⟩ }).engineSync e
        if d.sparse then
          let cl := siteCluster i.site
          let g := w.gme cl
          .ok ((w.setGme cl { g with queue := g.queue ++ [e] }).wr (gmeBase cl) Reg.gmeStatQueue (g.queue.length + 1))
        else .ok w

/-- MAT.STREAM (R65): one pass is queued, and the data feeder reads its rows; it takes its place in the random count when it rounds
stochastically (R99). -/
def execMatStream (i : Issue) (s : State) : Host.Outcome State Fault Refusal :=
  matInstr i s fun w e a =>
    let x := w.engine e
    if 4 ≤ x.passes.length then .hold (.engine e)
    else withDesc w i a 32 fun l =>
      let d := streamDescOf l
      let code := streamCode w i.site a x x.mode d
      if code ≠ 0 then engineRefuse w i e code a
      else
        let w := w.matHold e i.held
        let c := w.core i.site
        let sto := x.mode.out == 2 && x.mode.rnd == 1
        let t := ((if d.newTile then x.pend.map pendShape else x.comingTile).getD default)
        let p : Pass := ⟨d, a, x.mode, t.k, t.n, t.s, c.q, tickDiff w.tick w.job.t0, c.serial, false, none, []⟩
        let w := w.setCore i.site { c with serial := c.serial + 1, q := if sto then c.q + 1 else c.q }
        .ok (((w.setEngine e { x with passes := x.passes ++ [p] }).feed e).engineSync e)

/-- MAT.WAIT (R66): at most c = IMM[1:0] passes accepted and not complete. -/
def execMatWait (i : Issue) (s : State) : Host.Outcome State Fault Refusal :=
  coreInstr i s (decide (2 ≤ i.d ∨ i.a ≠ 0 ∨ i.b ≠ 0 ∨ i.c ≠ 0)) fun w =>
    let e := 2 * i.site + i.d
    if (w.engine e).passes.length ≤ i.imm.toNat % 4 then .ok (w.matHold e i.held) else .hold (.engine e)

/-! ## The shadow load (R69) -/

/-- SHADOW_LOAD_START (R69): the tile that the weight feeder holds begins to enter the shadow registers, with its scales (R101). A
sparse tile begins once its GME lane emits it (R143). (Log 21 DEDUCED.) -/
def execShadowLoadStart (site e : Nat) (s : State) : Host.Outcome State Fault Refusal :=
  s.updIf (decide (site < 2240 ∧ e < 2)) fun w =>
    let k := 2 * site + e
    let x := w.engine k
    match x.pend with
    | none => w
    | some p =>
      if p.started then w
      else match p.gme with
        | .dense =>
          match (match p.fed with
            | some t => some t
            | none => feedTile w site p.mode p.desc) with
          | some t => w.setEngine k { x with pend := some { p with fed := some (t.withScales w site p.desc), started := true } }
          | none => w
        | .queued => w
        | .lane =>
          let emitting := (w.gme (siteCluster site)).lanes.any fun l => l.2.engine == k && l.2.emitting
          if emitting then w.setEngine k { x with pend := some { p with started := true } } else w
        | .emitted => w.setEngine k { x with pend := some { p with started := true } }

/-! ## Passes -/

/-- The data rows of a pass that issues: those the feeder holds and the rest, each with its scales. (Log 21 DEDUCED.) -/
def passRows (w : Wafer) (site : Nat) (p : Pass) : List DataRow :=
  let l := (p.fill w site p.desc.m).rows
  (List.range l.length).map fun r => (l.getD r default).withScales w site p r

/-- The pending tile, once it is ready to be swapped in. -/
def Pend.ready (p : Pend) : Option Tile := if p.started then p.fed else none

/-- Issue the first waiting pass of an engine on a tile; the feeder has room for the rows of the next. -/
def Wafer.passIssued (w : Wafer) (site e idx : Nat) (p : Pass) (t : Tile) (paused : Nat) : Wafer :=
  let x := w.engine e
  let p' := { p with issued := true, tile := some t, rows := passRows w site p }
  let w := w.setEngine e { x with
    passes := listSet x.passes idx p'
    active := some t
    pend := if p.desc.newTile then none else x.pend }
  let w := w.feed e
  let b := matBase site (e % 2)
  let w := (w.engineSync e).wr b Reg.matStatState 1
  let w := (w.count b Reg.matRows p.desc.m).count b Reg.matPause paused
  if p.desc.newTile then w.count b Reg.matLoads else w

/-- PASS_ISSUE (R68, R70): the oldest queued pass issues; a NEWTILE pass swaps the pending tile in. A pass that claims a bank
waits for copies accepted before it (R74), and one whose tile's shadow load lacks stored rows leaves the engine paused (R71). `paused`
counts cycles of R71. (Log 21 DEDUCED.) -/
def execPassIssue (site e paused : Nat) (s : State) : Host.Outcome State Fault Refusal :=
  s.updIf (decide (site < 2240 ∧ e < 2)) fun w =>
    let k := 2 * site + e
    let x := w.engine k
    match indexOf? (fun (p : Pass) => !p.issued) x.passes with
    | none => w
    | some idx =>
      let p := x.passes.getD idx default
      let blocked := decide (p.mode.out < 2) && !p.claims (w.core site) k p.desc.bank
      let tile := if p.desc.newTile then x.pend.bind Pend.ready else x.active
      match tile with
      | none => if x.pend.any fun q => q.started then w.wr (matBase site e) Reg.matStatState 2 else w
      | some t => if blocked then w else w.passIssued site k idx p t paused

/-- The terms of a column: weight code and depth index, in array row order. -/
def colTerms (t : Tile) (n : Nat) : List (Nat × Nat) :=
  if t.sparse then t.w.filterMap fun r => (r.getD n none).map fun x => (x % 2 ^ 16, x / 2 ^ 16)
  else (List.range t.k).map fun k => (((t.w.getD k []).getD n none).getD 0, k)

/-- MAC of a column: R87 for BF16 and FP16, R88 to R90 for the exact formats, R91 for MX. -/
def macCol (m : Mode) (t : Tile) (row : DataRow) (n : Nat) : Nat :=
  let prod := fun (e : Nat × Nat) => (fmtVal m.dfmt (row.xs.getD e.2 0)).mul (fmtVal m.wfmt e.1)
  let terms := colTerms t n
  if m.wfmt ≤ 1 then terms.foldl (fun a e => rne ((prod e).add (val32 a))) 0
  else if fmtIsMx m.wfmt then
    let v := fun (b : Nat) =>
      let xb := row.scales.getD b 0
      let wb := t.scales.getD (n * (t.k / 32) + b) 0
      if xb = 0xFF ∨ wb = 0xFF then fp32.nan
      else
        let sum := ((terms.drop (32 * b)).take 32).foldl (fun (a : Ext) e => a.add (prod e)) (Ext.fin false 0 0)
        rne (sum.scale ((xb : Int) + wb - 254))
    (List.range (t.k / 32 - 1)).foldl (fun a b => add32 a (v (b + 1))) (v 0)
  else
    let sum := terms.foldl (fun (a : Ext) e => a.add (prod e)) (Ext.fin false 0 0)
    rne (sum.mul (val32 (mul32 m.dscale t.mode.wscale)))

/-- The better of two sums of MAXPLUS (0) or MINPLUS (1); of equal zeros of unlike sign the spec does not say which is delivered
(notes/assumptions/16.md). (Log 16 DESIGN CHOICE.) -/
def plusPick (op a b : Nat) : Nat :=
  let lt := if op = 0 then (val32 a).lt (val32 b) else (val32 b).lt (val32 a)
  let gt := if op = 0 then (val32 b).lt (val32 a) else (val32 a).lt (val32 b)
  if lt then b else if gt then a else if a = b then a else Config.maxOpen (2 + op) a b

/-- The distance and comparison modes (Table 3-9, R76, R77, R92). -/
def distCol (m : Mode) (t : Tile) (row : DataRow) (n : Nat) : Nat :=
  let ops := (colTerms t n).map fun e => (fmtVal m.dfmt (row.xs.getD e.2 0), fmtVal m.wfmt e.1)
  let diff := fun (p : Ext × Ext) => p.1.add p.2.neg
  match m.op with
  | 1 | 2 =>
    let term := fun (d : Ext) => if m.op = 1 then d.mul d else d.abs
    if m.wfmt = 0 then ops.foldl (fun a p => rne ((term (val32 (rne (diff p)))).add (val32 a))) 0
    else rne (ops.foldl (fun (a : Ext) p => a.add (term (diff p))) (Ext.fin false 0 0))
  | 3 | 4 =>
    let sums := ops.map fun p => rne (p.1.add p.2)
    sums.tail.foldl (fun a b => plusPick (m.op - 3) a b) (sums.headD 0)
  | _ => rne (extInt (countIf (fun (p : Ext × Ext) => p.2.lt p.1) ops))

/-- One output row: y[m][n] for n below N. -/
def passRow (m : Mode) (t : Tile) (row : DataRow) : List Nat :=
  (List.range t.n).map fun n => if m.op = 0 then macCol m t row n else distCol m t row n

/-- A tail's winner in a column: the value and its global row index; the lowest index wins a tie. -/
def tailPick (max : Bool) (best new : Nat × Nat) : Nat × Nat :=
  let wins := if max then (val32 best.1).lt (val32 new.1) else (val32 new.1).lt (val32 best.1)
  if wins then new else best

/-- The rows that the tail delivers (R78): FP32 rows, then for MIN and MAX the index row. -/
def tailRows (m : Mode) (d : StreamDesc) (n : Nat) (ys : List (List Nat)) : List (List Nat) :=
  match m.tail with
  | 0 => ys
  | 1 => [(List.range n).map fun c => (ys.tail.map (·.getD c 0)).foldl add32 ((ys.headD []).getD c 0)]
  | k =>
    let cols := (List.range n).map fun c =>
      let l := (List.range ys.length).map fun r => ((ys.getD r []).getD c 0, (d.rowbase + r) % 2 ^ 32)
      l.tail.foldl (tailPick (decide (k = 3))) (l.headD (0, 0))
    [cols.map (·.1), cols.map (·.2)]

/-- FP32 words as bytes. -/
def wordsBytes (l : List Nat) : List Byte := l.flatMap (natLE 4)

/-- N words of an accumulator row. -/
def accRead (w : Wafer) (e bank row n : Nat) : List Nat :=
  (List.range n).map fun c => w.accMem.num (accAddr e bank row + 4 * c) 4
def accBad (w : Wafer) (e bank row n : Nat) : Bool := w.accMem.badIn (accAddr e bank row) (4 * n)
def Wafer.accWrite (w : Wafer) (e bank row : Nat) (l : List Nat) (bad : Bool) : Wafer :=
  { w with accMem := w.accMem.writeBad (accAddr e bank row) (wordsBytes l) (if bad then List.range (ceilDiv l.length 2) else []) }

/-- Deliver rows to the accumulator store; true when a poisoned word was consumed there (R73, R78). -/
def accOut (w : Wafer) (e : Nat) (m : Mode) (d : StreamDesc) (n : Nat) (rows : List (List Nat)) (bads : List Bool) : Wafer × Bool :=
  if m.tail < 2 then
    (List.range rows.length).foldl (fun (p : Wafer × Bool) r =>
      let y := rows.getD r []
      let at' := d.dst + r
      if m.out = 0 then (p.1.accWrite e d.bank at' y (bads.getD r false), p.2)
      else
        let old := accRead p.1 e d.bank at' n
        let oldBad := accBad p.1 e d.bank at' n
        let sum := (List.range n).map fun c => add32 (old.getD c 0) (y.getD c 0)
        (p.1.accWrite e d.bank at' sum (oldBad || bads.getD r false), p.2 || oldBad)) (w, false)
  else
    let v := rows.getD 0 []
    let ix := rows.getD 1 []
    let bad := bads.getD 0 false
    if m.out = 0 then ((w.accWrite e d.bank d.dst v bad).accWrite e d.bank (d.dst + 1) ix bad, false)
    else
      let oldBad := accBad w e d.bank d.dst n || accBad w e d.bank (d.dst + 1) n
      let ov := accRead w e d.bank d.dst n
      let oi := accRead w e d.bank (d.dst + 1) n
      let best := (List.range n).map fun c => tailPick (decide (m.tail = 3)) (ov.getD c 0, oi.getD c 0) (v.getD c 0, ix.getD c 0)
      let b := bad || oldBad
      ((w.accWrite e d.bank d.dst (best.map (·.1)) b).accWrite e d.bank (d.dst + 1) (best.map (·.2)) b, oldBad)

/-- Convert an FP32 row to the stream-out format (R75). -/
def streamBytes (m : Mode) (y : List Nat) (r : Nat → Rnd) : List Byte :=
  let conv := fun (f : FpFmt) => (List.range y.length).flatMap fun c => natLE (f.width / 8) (f.enc (r c) (val32 (y.getD c 0)))
  match m.ofmt with
  | 0 => wordsBytes y
  | 1 => conv bf16
  | 2 => conv fp16
  | 3 => conv e4m3
  | _ => conv e5m2

/-- Write rows to core memory (R75, R78). (Log 22 DEDUCED.) -/
def streamOut (w : Wafer) (site e : Nat) (p : Pass) (rows : List (List Nat)) (bads : List Bool) : Wafer :=
  let m := p.mode
  let seed := (w.job.image.map (·.seed)).getD 0
  let c3 := ((w.core site).logical.getD 0) + e % 2 * 2 ^ 11
  let rnd := fun (r c : Nat) => if m.rnd = 1 then Rnd.sto (stoBits seed p.q p.c2 c3 (r * 128 + c)) else Rnd.near
  (List.range rows.length).foldl (fun w r =>
    let y := rows.getD r []
    let l := if decide (2 ≤ m.tail) && r == 1 then wordsBytes y else streamBytes m y (rnd r)
    let a := coreAddr site (p.desc.dst + r * p.desc.dstride)
    let ws := if bads.getD r false then (List.range (l.length / 8 + 2)).filter fun i => decide (a / 8 * 8 + 8 * i < a + l.length) else []
    { w with coreMem := w.coreMem.writeBad a l ws }) w

/-- A pass's outputs are written (R67, R78, R80); true when it consumed poison. (Log 22 DEDUCED.) -/
def passOutputs (w : Wafer) (site e : Nat) (p : Pass) (t : Tile) : Wafer × Bool :=
  let ys := p.rows.map (passRow p.mode t)
  let bads := p.rows.map fun r => r.bad || t.bad
  let consumed := bads.any id
  let rows := tailRows p.mode p.desc t.n ys
  let rbads := if p.mode.tail = 0 then bads else rows.map fun _ => consumed
  if p.mode.out = 2 then (streamOut w site e p rows rbads, consumed)
  else
    let r := accOut w e p.mode p.desc t.n rows rbads
    (r.1, r.2 || consumed)

/-- PASS_COMPLETE (R67, R74, R80): the oldest issued pass writes its last row and leaves the queue. (Log 21 DEDUCED.) -/
def execPassComplete (site e paused : Nat) (s : State) : Host.Outcome State Fault Refusal :=
  s.updIf (decide (site < 2240 ∧ e < 2)) fun w =>
    let k := 2 * site + e
    let x := w.engine k
    match indexOf? (fun (p : Pass) => p.issued) x.passes with
    | none => w
    | some idx =>
      let p := x.passes.getD idx default
      match p.tile with
      | none => w
      | some t =>
        let r := passOutputs w site k p t
        let w := r.1
        let b := matBase site e
        let rest := dropAt x.passes idx
        let w := (w.setEngine k { x with passes := rest }).engineSync k
        let st := w.rd b Reg.matStatState
        let w := w.wr b Reg.matStatState (if st = 3 then 3 else if rest.any (·.issued) then 1 else 0)
        let w := (w.count b Reg.matPasses).count b Reg.matPause paused
        if r.2 then w.engineFault k 0x10 0 0 0 else w

end Sys2Proof.Machine
end

