-- ==== Sys2Proof/Machine/Tier.lean ====
section
/-!
DEFINITION. Sys2Proof/Machine/Tier.lean: the tier controllers (R193 to R199): heat, promotion, prefetch, release and get.
A frame is 2 MiB of its cluster's memory, above the scratch limit (R191); a fill copies the page there, with its poison (R202).
-/

namespace Sys2Proof.Machine

/-! ## Frames -/

/-- Frames of a cluster's weight cache (R191). -/
def Wafer.frameCount (w : Wafer) (cl : Nat) : Nat := 16 - w.rd (tirBase cl) Reg.tirSplitScratch

def Wafer.penOf (w : Wafer) (page : Nat) : Nat := w.reservoir.pens.getD page 0

/-- Frames of a cluster that a pen holds. -/
def penFrames (w : Wafer) (t : Tier) (pen : Nat) : Nat := countIf (fun (f : CacheFrame) => w.penOf f.page == pen) t.frames

/-- Show the cluster's tier in TIR_STAT, and the pens' use in TIR_PENU (the largest over clusters). -/
def Wafer.syncTier (w : Wafer) (cl : Nat) : Wafer :=
  let t := w.tier cl
  let w := w.wrs (tirBase cl)
    [(Reg.tirStatFrames, w.frameCount cl), (Reg.tirStatResident, countIf (fun (f : CacheFrame) => f.filled) t.frames),
     (Reg.tirStatPinned, countIf (fun (f : CacheFrame) => !f.pins.isEmpty) t.frames),
     (Reg.tirStatFills, countIf (fun (f : CacheFrame) => f.filling) t.frames), (Reg.tirStatGets, t.gets.length)]
  (List.range 64).foldl (fun w i =>
    w.wr (penBase i) Reg.tirPenuT1 ((w.tiers.map fun e => penFrames w e.2 i).foldl max 0)) w

/-- Heat of a page in the last complete window (R193). -/
def Tier.heatOf (t : Tier) (page : Nat) : Nat := ((t.heat.find? fun (h : HeatEntry) => h.page == page).map (·.last)).getD 0

/-- Count one access to a page: 64 entries; a page missing from a full table takes the entry with the lowest count in the
last complete window. (Log 29 DESIGN CHOICE.) -/
def heatAdd (l : List HeatEntry) (page : Nat) : List HeatEntry :=
  match indexOf? (fun (h : HeatEntry) => h.page == page) l with
  | some i => listUpd l i fun h => { h with cur := min 65535 (h.cur + 1) }
  | none =>
    if l.length < 64 then l ++ [⟨page, 1, 0⟩]
    else
      let low := l.foldl (fun m (h : HeatEntry) => min m h.last) 65535
      match indexOf? (fun (h : HeatEntry) => h.last == low) l with
      | some i => listSet l i ⟨page, 1, 0⟩
      | none => l

/-- T2 heat of a page (R193): the count of the window in progress first, then the last four complete windows.
(Log 29 DESIGN CHOICE.) -/
def t2Add (l : List (Nat × List Nat)) (page : Nat) : List (Nat × List Nat) :=
  mapUpd (fun _ => []) l page fun c => min 65535 (c.getD 0 0 + 1) :: c.drop 1

/-- Place for a page in the cache (R194, R195, R197): a free frame, the lowest first; else the resident unpinned frame with
the lowest count that is at most DEMOTE, the lowest frame on a tie. A pen at its T1 quota takes only a frame of its own. The
answer is the frame's number and whether a page is evicted. (Log 29 DESIGN CHOICE.) -/
def Wafer.framePlace (w : Wafer) (cl page : Nat) : Option (Nat × Bool) :=
  let t := w.tier cl
  let n := w.frameCount cl
  let pen := w.penOf page
  let full := decide (w.rd (penBase pen) Reg.tirPenqT1 ≤ penFrames w t pen)
  let free := if full then none else (List.range n).find? fun k => !t.frames.any fun f => f.num == k
  match free with
  | some k => some (k, false)
  | none =>
    let demote := w.rd (tirBase cl) Reg.tirHeatDemote
    let able := t.frames.filter fun f => f.filled && f.pins.isEmpty && decide (t.heatOf f.page ≤ demote) &&
      (!full || w.penOf f.page == pen)
    let low := able.foldl (fun m (f : CacheFrame) => min m (t.heatOf f.page)) 65536
    ((List.range n).find? fun k => able.any fun f => f.num == k && t.heatOf f.page == low).map fun k => (k, true)

/-- Take a frame for a page, if there is one. (Log 29 DESIGN CHOICE.) -/
def Wafer.takeFrame (w : Wafer) (cl page buf : Nat) (pins : List Pin) : Option Wafer :=
  match w.framePlace cl page with
  | none => none
  | some (k, evicts) =>
    let t := w.tier cl
    let w := w.setTier cl { t with frames := (t.frames.filter fun f => f.num != k) ++ [⟨k, page, buf, false, false, pins⟩] }
    some (if evicts then w.count (tirBase cl) Reg.tirEvict else w)

/-- A frame's place in the order of its earliest deadline, whether passed or to come, then page number; promoted pages come after every
deadline. -/
def fillRank (now : Nat) (f : CacheFrame) : Nat :=
  f.pins.foldl (fun m p => min m ((p.deadline + 2 ^ 48 + 2 ^ 47 - now % 2 ^ 48) % 2 ^ 48)) (2 ^ 48) * 2 ^ 20 + f.page

/-- Start fills (R197): two at a time, in order of deadline tick, then page number; a page waits until it is readable.
(Log 29 DESIGN CHOICE.) -/
def Wafer.startFills (w : Wafer) (cl : Nat) : Nat → Wafer
  | 0 => w
  | n + 1 =>
    let t := w.tier cl
    if 2 ≤ countIf (fun (f : CacheFrame) => f.filling) t.frames then w
    else
      let wait := t.frames.filter fun f => !f.filled && !f.filling && w.pageReady f.buf f.page && w.pageServed f.buf f.page
      let low := wait.foldl (fun m f => min m (fillRank w.tick f)) (2 ^ 70)
      match wait.find? fun f => fillRank w.tick f == low with
      | none => w
      | some f =>
        (w.setTier cl { t with frames := t.frames.map fun g => (if g.num = f.num then { g with filling := true } else g : CacheFrame) }).startFills cl n

/-- Settle a cluster's tier after a change. -/
def Wafer.settleTier (w : Wafer) (cl : Nat) : Wafer := (w.startFills cl 2).syncTier cl

/-! ## Heat windows (R193, R194) -/

/-- Pages that meet the promotion conditions, by count, highest first, then page number. (Log 29 DESIGN CHOICE.) -/
def Wafer.promotions (w : Wafer) (cl : Nat) : List Nat :=
  let t := w.tier cl
  let promote := w.rd (tirBase cl) Reg.tirHeatPromote
  let l := t.heat.filter fun h => decide (promote ≤ h.last) && !(t.frames.any fun f => f.page == h.page && f.buf == w.curBuf)
  let le := fun (a b : HeatEntry) => decide (b.last < a.last ∨ (a.last = b.last ∧ a.page ≤ b.page))
  (sortBy le l).map (·.page)

def Wafer.endWindow (w : Wafer) (cl : Nat) : Wafer :=
  let t := w.tier cl
  let w := match t.heatNew with
    | some v => w.wrs (tirBase cl) [(Reg.tirHeatPromote, v), (Reg.tirHeatDemote, v / 2 ^ 16), (Reg.tirHeatHold, v / 2 ^ 32)]
    | none => w
  let w := w.setTier cl { t with heatNew := none, heat := t.heat.map fun h => { h with cur := 0, last := h.cur } }
  let w := (w.promotions cl).foldl (fun w p =>
    if w.pageReady w.curBuf p then (w.takeFrame cl p w.curBuf []).getD w else w) w
  w.settleTier cl

/-- HEAT_WINDOW_END (R193, R194): windows begin at ticks that are multiples of 64. -/
def execHeatWindowEnd (s : State) : Host.Outcome State Fault Refusal :=
  s.upd fun w =>
    if w.tick % 64 ≠ 0 then w
    else
      let heat := (w.reservoir.heat.map fun e => (e.1, 0 :: e.2.take 4)).filter fun e => e.2.any fun c => c != 0
      let w := { w with reservoir := { w.reservoir with heat := heat } }
      (w.tiers.map (·.1)).foldl (fun w cl => w.endWindow cl) w

/-! ## The TIR class -/

/-- TIER_PARAM (R196): recorded in TIR_FAULT; the core stops. (Log 30 DEDUCED.) -/
def tierRefuse (w : Wafer) (i : Issue) (a : Nat) : Went :=
  let w := w.recordFirst (tirBase (siteCluster i.site)) Reg.tirFaultValid
    [(Reg.tirFaultCode, 1), (Reg.tirFaultSite, i.site % 5), (Reg.tirFaultDesc, a)]
  .stopped ((w.coreStop i.site).jobFault 0x0601 (detailSite i.site))

/-- A TIR instruction: its descriptor, at sA + IMM and aligned to 16. -/
def tirInstr (i : Issue) (s : State) (held : Wafer → Bool) (go : Wafer → Nat → List Byte → Went) :
    Host.Outcome State Fault Refusal :=
  coreInstr i s (decide (i.d ≠ 0 ∨ i.b ≠ 0 ∨ i.c ≠ 0)) fun w =>
    let a := w.descAddr i
    if held w then .hold .tier
    else if a % 16 ≠ 0 then .fault 2
    else withDesc w i a 32 (go w a)

/-- A prefetch or release descriptor (Table 8-6): first page, pages, DT, GEN. -/
def pagesDesc (l : List Byte) : Nat × Nat × Nat × Nat := (fieldAt l 0 4, fieldAt l 4 2, fieldAt l 6 2, fieldAt l 8 1)

def Wafer.pagesOk (w : Wafer) (d : Nat × Nat × Nat × Nat) : Bool :=
  decide (1 ≤ d.2.1 ∧ d.2.1 ≤ 16 ∧ 1 ≤ d.2.2.1 ∧ d.2.2.2 ≤ 1 ∧ d.1 + d.2.1 ≤ w.pageCount)

/-- Pin one page for a prefetch; the page when it still has to be filled. -/
def Wafer.prefetchPage (w : Wafer) (cl page buf : Nat) (pin : Pin) : Wafer × List Nat :=
  let t := w.tier cl
  match t.frames.find? fun f => f.page == page && f.buf == buf with
  | some f =>
    let w := w.setTier cl { t with frames := t.frames.map fun g => (if g.num = f.num then { g with pins := g.pins ++ [pin] } else g : CacheFrame) }
    (w, if f.filled then [] else [page])
  | none =>
    match w.takeFrame cl page buf [pin] with
    | some w => (w, [page])
    | none => (w.count (tirBase cl) Reg.tirPfdrop, [])

/-- TIR.PREFETCH (R196, R197). (Log 30 DEDUCED.) -/
def execTirPrefetch (i : Issue) (s : State) : Host.Outcome State Fault Refusal :=
  let cl := siteCluster i.site
  tirInstr i s (fun w => decide (16 ≤ countIf (fun (p : Nat × Nat × List Nat) => p.1 == i.site) (w.tier cl).prefetches)) fun w a l =>
    let d := pagesDesc l
    if !w.pagesOk d then tierRefuse w i a
    else
      let dl := (w.tick + d.2.2.1) % 2 ^ 48
      let pin : Pin := ⟨dl, (dl + w.rd (tirBase cl) Reg.tirHeatHold) % 2 ^ 48⟩
      let buf := w.bufOf d.2.2.2
      let (w, left) := (rangeFrom d.1 d.2.1).foldl (fun (x : Wafer × List Nat) p =>
        let (w, more) := x.1.prefetchPage cl p buf pin
        (w, x.2 ++ more)) (w, [])
      let t := w.tier cl
      let w := if left.isEmpty then w else w.setTier cl { t with prefetches := t.prefetches ++ [(i.site, buf, left)] }
      .ok (w.settleTier cl)

/-- TIR.RELEASE (R196, R197): the pins of the pages it names end. (Log 30 DEDUCED.) -/
def execTirRelease (i : Issue) (s : State) : Host.Outcome State Fault Refusal :=
  let cl := siteCluster i.site
  tirInstr i s (fun _ => false) fun w a l =>
    let d := pagesDesc l
    if !w.pagesOk d then tierRefuse w i a
    else
      let buf := w.bufOf d.2.2.2
      let t := w.tier cl
      let named := fun (f : CacheFrame) => f.buf == buf && decide (d.1 ≤ f.page ∧ f.page < d.1 + d.2.1)
      .ok ((w.setTier cl { t with frames := t.frames.map fun f => (if named f then { f with pins := [] } else f : CacheFrame) }).settleTier cl)

/-- TIR.GET (R193, R196, R198): the generation is captured and each page touched is counted. (Log 30 DEDUCED.) -/
def execTirGet (i : Issue) (s : State) : Host.Outcome State Fault Refusal :=
  let cl := siteCluster i.site
  tirInstr i s (fun w => decide (8 ≤ countIf (fun (g : Get) => g.site == i.site) (w.tier cl).gets)) fun w a l =>
    let ra := fieldAt l 0 8 % 2 ^ 40
    let len := fieldAt l 8 4
    let dst := fieldAt l 12 4
    let space := fieldAt l 16 1
    let sem := fieldAt l 17 1
    let gen := fieldAt l 18 1
    let ok := decide (ra % 32 = 0 ∧ len % 32 = 0 ∧ 32 ≤ len ∧ len ≤ 2 ^ 24 ∧ ra + len ≤ w.pageCount * 2 ^ 21 ∧ dst % 32 = 0 ∧
      (sem < 32 ∨ sem = 0xFF) ∧ gen ≤ 1) && landingOk w i.site space dst len
    if !ok then tierRefuse w i a
    else
      let t := w.tier cl
      let pages := pagesOf ra len
      let w := w.setTier cl { t with
        gets := t.gets ++ [⟨i.site, ra, len, dst, space, sem, w.bufOf gen, [], []⟩]
        heat := pages.foldl heatAdd t.heat }
      let w := if gen = 0 then { w with reservoir := { w.reservoir with heat := pages.foldl t2Add w.reservoir.heat } } else w
      .ok (w.settleTier cl)

/-! ## What happens at the frames -/

/-- The address of a frame in its cluster's memory (R191). -/
def Wafer.frameAddr (w : Wafer) (cl num : Nat) : Nat := cluAddr cl ((w.rd (tirBase cl) Reg.tirSplitScratch + num) * 2 ^ 21)

/-- FRAME_FILL_DONE (R197): the page is filled; the next fill begins. A page reaches every bank group: one whose arbiter is fenced stops
the fill (R23). -/
def execFrameFillDone (cluster frame : Nat) (s : State) : Host.Outcome State Fault Refusal :=
  s.updIf (decide (cluster < 448)) fun w =>
    let t := w.tier cluster
    match t.frames.find? fun f => f.num == frame && f.filling && !w.groupsShut cluster 0 512 with
    | none => w
    | some f =>
      let pf := (t.prefetches.map fun (p : Nat × Nat × List Nat) =>
        if p.2.1 = f.buf then (p.1, p.2.1, p.2.2.filter fun k => k != f.page) else p).filter fun p => !p.2.2.isEmpty
      let x := w.pageAt f.buf f.page 0
      let w := { w with cluMem := w.cluMem.copyFrom w.stkMem (stkAddr x.1 x.2) (w.frameAddr cluster f.num) (2 ^ 21) }
      (w.setTier cluster { t with
        frames := t.frames.map fun g => (if g.num = frame then { g with filled := true, filling := false } else g : CacheFrame)
        prefetches := pf }).settleTier cluster

/-- PIN_EXPIRY (R197): pins whose last tick has ended go. -/
def execPinExpiry (cluster : Nat) (s : State) : Host.Outcome State Fault Refusal :=
  s.updIf (decide (cluster < 448)) fun w =>
    let t := w.tier cluster
    (w.setTier cluster { t with frames := t.frames.map fun f =>
      ({ f with pins := f.pins.filter fun p => !tickFuture w.tick p.last } : CacheFrame) }).settleTier cluster

/-- GET_DEADLINE_MISS (R198): pages a GET waits for in a frame whose deadline tick has begun are read in place. -/
def execGetDeadlineMiss (cluster idx : Nat) (s : State) : Host.Outcome State Fault Refusal :=
  s.updIf (decide (cluster < 448)) fun w =>
    let t := w.tier cluster
    match t.gets[idx]? with
    | none => w
    | some g =>
      let late := (pagesOf g.ra g.len).filter fun p => w.pageSource cluster g p == .missed
      let w := w.setTier cluster { t with gets := listSet t.gets idx { g with inPlace := g.inPlace ++ late } }
      w.count (tirBase cluster) Reg.tirMisses late.length

/-- Where a GET reads a reservoir byte: in the frame that holds its page, or in the page's stack. -/
def Wafer.getPlace (w : Wafer) (cl : Nat) (g : Get) (a : Nat) : Mem × Nat :=
  let page := a / 2 ^ 21
  let stack := let x := w.getAt g page (a % 2 ^ 21); (w.stkMem, stkAddr x.1 x.2)
  if w.pageSource cl g page = .frame then
    match (w.tier cl).frames.find? fun f => f.page == page && f.buf == g.buf with
    | some f => (w.cluMem, w.frameAddr cl f.num + a % 2 ^ 21)
    | none => stack
  else stack

/-- The bytes that a GET reads, and the numbers of its poisoned words. -/
def Wafer.reservoirRead (w : Wafer) (cl : Nat) (g : Get) : List Byte × List Nat :=
  ((List.range g.len).map fun k => let p := w.getPlace cl g (g.ra + k); p.1.get p.2,
   (List.range (g.len / 8)).filter fun k => let p := w.getPlace cl g (g.ra + 8 * k); p.1.badAt p.2)

/-- TIR_GET_COMPLETE (R198, R199): once every page has a source, and the bank groups of cluster memory that it touches grant, the bytes
are written and the semaphore posted. -/
def execTirGetComplete (cluster idx : Nat) (s : State) : Host.Outcome State Fault Refusal :=
  s.updIf (decide (cluster < 448)) fun w =>
    let t := w.tier cluster
    match t.gets[idx]? with
    | none => w
    | some g =>
      let src := (pagesOf g.ra g.len).map fun p => (p, w.pageSource cluster g p)
      if (src.any fun x => x.2 == .none || x.2 == .fill) || (g.dspace == 1 && w.groupsShut cluster g.dst g.len) ||
          ((src.any fun x => x.2 == .frame) && w.groupsShut cluster 0 512) then w
      else
        -- bytes of the range that lie in a page
        let part := fun (p : Nat) => min (g.ra + g.len) ((p + 1) * 2 ^ 21) - max g.ra (p * 2 ^ 21)
        let sum := fun (k : PageSource → Bool) => (src.filter fun x => k x.2).foldl (fun n x => n + part x.1) 0
        let b := tirBase cluster
        let w := (w.count b Reg.tirGets).count b Reg.tirT1bytes (sum fun k => k == .frame)
        let w := w.count b Reg.tirT2bytes (sum fun k => k != .frame)
        let w := w.count b Reg.tirMisses (countIf (fun (x : Nat × PageSource) => x.2 == .missed) src)
        let (bytes, bad) := w.reservoirRead cluster g
        let w := (w.landBytes g.site g.dspace g.dst bytes bad).setTier cluster { t with gets := dropAt t.gets idx }
        let w := w.settleTier cluster
        if g.sem = 0xFF then w else w.semPost g.site g.sem 1

end Sys2Proof.Machine
end

