-- ==== Sys2Proof/Machine/IngestOps.lean ====
section
/-!
DEFINITION. Sys2Proof/Machine/IngestOps.lean: what parameter ingest shares (chapter 10): manifests (R238 to R241), Merkle
trees (R240, R244), messages in the hop receiver's buffer (R242), chunks that pass and fail (R251, R253), and fetches (R252, R254).
-/

namespace Sys2Proof.Machine

/-- Record an ingest fault (Table 10-13). -/
def Wafer.ingestRecord (w : Wafer) (code src status chunk : Nat) : Wafer :=
  w.recordFirst wstBase Reg.wstFaultValid
    [(Reg.wstFaultCode, code), (Reg.wstFaultSource, src), (Reg.wstFaultStatus, status), (Reg.wstFaultChunk, chunk)]

/-- An ingest job fault. (Log 7 DEDUCED.) -/
def Wafer.ingestFault (w : Wafer) (code src chunk : Nat) : Wafer :=
  (w.ingestRecord code src 0 chunk).jobFault (0x0800 + code) detailNone

/-! ## Manifests -/

/-- ⌈log2 n⌉. -/
def clog2 (n : Nat) : Nat := if n ≤ 1 then 0 else Nat.log2 (n - 1) + 1

/-- The header's manifest (Table 10-2). -/
def manifestHeader (l : List Byte) : Manifest :=
  ⟨fieldAt l 8 8, fieldAt l 16 4, fieldAt l 6 1, fieldAt l 7 1, fieldAt l 20 4, fieldAt l 24 8, fieldAt l 72 32⟩

/-- Sections tile the chunks in order, layers not decreasing (R239). -/
def sectionsTile : List (Nat × Nat × Nat) → Nat → Nat → Nat → Bool
  | [], at_, _, c => at_ == c
  | (first, count, layer) :: l, at_, last, c =>
    first == at_ && decide (0 < count ∧ last ≤ layer) && sectionsTile l (at_ + count) layer c

/-- The checks of Table 10-4 against a source, in order: the status of the first that fails, 0 when all hold.
(Log 36 DESIGN CHOICE.) -/
def manifestStatus (s : SrcSt) (l : List Byte) : Nat :=
  let m := manifestHeader l
  let n := fieldAt l 36 2
  let table := bytesAt l 2240 (16 * n)
  let sections := (List.range n).map fun i => (fieldAt table (16 * i) 4, fieldAt table (16 * i + 4) 4, fieldAt table (16 * i + 8) 2)
  let h := l.take 256
  let fits := if s.src.kind = 0 then decide (m.chunks ≤ 32 * s.src.pages) else decide (s.src.srcFirst + 32 * s.src.pages ≤ m.chunks)
  if ¬ (fieldAt l 0 4 = 0x4E414D57 ∧ fieldAt l 4 2 = 1 ∧ m.kind = s.src.kind ∧ m.id ≠ 0 ∧ m.gen = s.expects ∧ 1 ≤ m.chunks ∧
      m.chunks ≤ 2 ^ 24 ∧ 65536 * (m.chunks - 1) + 1 ≤ m.image ∧ m.image ≤ 65536 * m.chunks ∧ fieldAt l 32 4 = ceilDiv m.chunks 1024 ∧
      m.depth = max (clog2 m.chunks) 10 ∧ 1 ≤ n ∧ n ≤ 4096 ∧ l.length = 5613 + 16 * n ∧ fits = true) then 0x0103
  else if fieldAt l 40 32 ≠ s.src.pubHash ∨ sha3 (bytesAt l 256 1984) ≠ s.src.pubHash then 0x0103
  else if fieldAt l 104 32 ≠ sha3 table ∨ sectionsTile sections 0 0 m.chunks = false then 0x0103
  else sigStatus (Config.ed25519Ok (bytesAt l 256 32) h (bytesAt l (2240 + 16 * n) 64))
    (Config.mlDsaOk (bytesAt l 288 1952) h (bytesAt l (2304 + 16 * n) 3309))

/-! ## Merkle trees (R240, R244) -/

/-- An interior node. -/
def merkleNode (a b : Nat) : Nat := sha3 ([1#8] ++ natLE 32 a ++ natLE 32 b)

/-- The nodes above a level of nodes. -/
def merkleUp : List Nat → List Nat
  | a :: b :: l => merkleNode a b :: merkleUp l
  | _ => []

def merkleUps : Nat → List Nat → List Nat
  | 0, l => l
  | n + 1, l => merkleUps n (merkleUp l)

/-- Climb from a segment's root to ROOT: on the left where the bit of s is 0. -/
def merkleClimb (s : Nat) : Nat → List Nat → Nat → Nat
  | _, [], x => x
  | k, sib :: l, x => merkleClimb s (k + 1) l (if bit s k then merkleNode sib x else merkleNode x sib)

/-- Leaves and proof of a segment message, when it is well formed and its root is ROOT. -/
def segmentOk (m : Manifest) (l : List Byte) : Option HeldSegment :=
  let s := fieldAt l 12 4
  let n := fieldAt l 16 2
  let leaves := (List.range 1024).map fun i => fieldAt l (32 + 32 * i) 32
  let proof := (List.range n).map fun i => fieldAt l (32800 + 32 * i) 32
  if n = m.depth - 10 ∧ l.length = 32800 + 32 * n ∧ merkleClimb s 0 proof ((merkleUps 10 leaves).getD 0 0) = m.root then
    some ⟨0, m.gen, s, leaves, proof⟩
  else none

/-! ## Fetches (R252 to R254) -/

/-- The tick by which a reply must have come (R253). -/
def Wafer.replyBy (w : Wafer) (port : Nat) : Nat :=
  (w.tick + 8 + ceilDiv (2 * (w.portTime port).delay) (800 * w.period)) % 2 ^ 48

/-- Fetches outstanding on a port. -/
def Ingest.outstanding (g : Ingest) (port : Nat) : Nat := countIf (fun (f : FetchOut) => f.port == port && f.sent) g.fetches

/-- Send the FETCH at place k of the list, under a new fetch ID. (Log 39 DESIGN CHOICE.) -/
def Wafer.fetchSend (w : Wafer) (k : Nat) : Wafer :=
  match w.ingest.fetches[k]? with
  | none => w
  | some f =>
    let n := w.ingest.nextStream
    let s := w.ingest.srcAt f.source
    let w := { w with ingest := { w.ingest with
      nextStream := (n + 1) % 2 ^ 16
      fetches := listSet w.ingest.fetches k { f with stream := n, sent := true, due := w.replyBy f.port } } }
    w.sendVl0 f.port 4 n 5 false (fetchBody (if f.what = 2 then 0 else (s.next.map (·.id)).getD 0) s.expects f.first f.count f.what 0)

/-- Send fetches that wait, oldest first, while fewer than 64 are outstanding on their port (R252). -/
def Wafer.fetchWaiting (w : Wafer) : Nat → Wafer
  | 0 => w
  | n + 1 => match indexOf? (fun (f : FetchOut) => !f.sent && decide (w.ingest.outstanding f.port < 64)) w.ingest.fetches with
    | none => w
    | some k => (w.fetchSend k).fetchWaiting n

def Wafer.fetchesGo (w : Wafer) : Wafer := w.fetchWaiting w.ingest.fetches.length

/-- A FETCH whose replies are awaited is sent as soon as the port may have one more outstanding. -/
def Wafer.fetchFor (w : Wafer) (port si what first count attempt : Nat) : Wafer :=
  ({ w with ingest := { w.ingest with
    fetches := w.ingest.fetches ++ [(⟨port, si, what, first, count, 0, attempt, 0, false⟩ : FetchOut)] } } : Wafer).fetchesGo

/-- Fetches are over; those that waited for them go. -/
def Wafer.dropFetches (w : Wafer) (p : FetchOut → Bool) : Wafer :=
  ({ w with ingest := { w.ingest with fetches := w.ingest.fetches.filter fun f => !p f } } : Wafer).fetchesGo

/-- The fetch that a reply answers. -/
def Ingest.fetchOf (g : Ingest) (m : Vl0Msg) (what item : Nat) : Option FetchOut :=
  g.fetches.find? fun f => f.sent && f.port == m.port && f.stream == m.stream && f.what == what && decide (f.first ≤ item ∧ item < f.first + f.count)

/-! ## Messages in the hop receiver's buffer (R212, R242) -/

def RxFrame.flag (f : RxFrame) (k : Nat) : Bool := bit (fieldAt f.payload 3 1) k

/-- The frames of one STREAM, cut into messages at each first frame. -/
def rxMessages : List RxFrame → List (List RxFrame)
  | [] => []
  | f :: l => match rxMessages l with
    | [] => [[f]]
    | g :: gs => if (g.headD default).flag 0 then [f] :: g :: gs else (f :: g) :: gs

/-- The frames of a message are whole and in order: FRAG counts from 0, and the first and the last frame are marked so. -/
def rxWhole (g : List RxFrame) : Bool :=
  g.map (fun f => fieldAt f.payload 4 4) == List.range g.length && (g.headD default).flag 0 && (g.getLast?.getD default).flag 1

/-- The frames in the buffer that make up a message of kind `msg`. -/
def Wafer.rxOf (w : Wafer) (m : Vl0Msg) (msg : Nat) : List RxFrame :=
  let l := (w.port m.port).rx.filter fun f =>
    !f.taken && f.vl == 0 && f.ftype == 0 && fieldAt f.payload 0 2 == m.stream && fieldAt f.payload 2 1 == msg
  ((rxMessages l).find? fun g => g.flatMap (fun f => f.payload.drop 8) == m.body).getD []

/-- A FRAG gap has voided the message (R242). -/
def Wafer.voids (w : Wafer) (m : Vl0Msg) (msg : Nat) : Bool :=
  let g := w.rxOf m msg
  !g.isEmpty && !rxWhole g

/-- The message is taken: its frames are freed. -/
def Wafer.rxTakeMsg (w : Wafer) (m : Vl0Msg) (msg : Nat) : Wafer :=
  (w.rxOf m msg).foldl (fun w f => w.rxTake m.port (· == f)) w

/-- The train that a message's port and STREAM name. -/
def Ingest.trainOf (g : Ingest) (port stream : Nat) : Option Train := g.trains.find? fun t => t.id == stream && t.inPort == port

/-- The train that carries a base chunk or segment (R247). -/
def Ingest.carrier (g : Ingest) (i : Nat) : Option Train := g.trains.find? fun t => decide (t.rlo ≤ i % t.stride ∧ i % t.stride ≤ t.rhi)

/-- Ingest takes messages: admitted, not stopped, and the port delivers VL0. -/
def ingestOpen (w : Wafer) (port : Nat) : Bool := w.ingest.admitted && !w.ingest.stopped && laneOpen w port 0

/-! ## Chunks and segments that pass or fail -/

/-- Requests that wait for a chunk which fails for good are answered FETCH_NAK (R254). -/
def Wafer.failWaiting (w : Wafer) (si chunk : Nat) : Wafer :=
  let m := ((w.ingest.srcAt si).next.getD default : Manifest)
  let hits := fun (r : FetchIn) => r.manifest == m.id && r.gen == m.gen && r.what == 0 && decide (r.first ≤ chunk ∧ chunk < r.first + r.count)
  let l := w.ingest.waiting.filter hits
  l.foldl (fun w r => w.sendNakTo r 1) { w with ingest := { w.ingest with waiting := w.ingest.waiting.filter fun r => !hits r } }

/-- A chunk (`what` 0) or segment (1) fails (R253): the first time it is fetched again; when that attempt fails, the job faults. -/
def Wafer.itemFail (w : Wafer) (si what item : Nat) (again : Bool) : Wafer :=
  let same := fun (f : FetchOut) => decide (0 < f.attempt) && f.source == si && f.what == what && f.first == item
  if again then ((if what = 0 then w.failWaiting si item else w).dropFetches same).ingestFault (3 + what) si item
  else if w.ingest.fetches.any same then w
  else
    let s := w.ingest.srcAt si
    let port := if s.src.kind = 0 then (w.ingest.carrier item).map (·.inPort) else some s.src.keyPort
    match port with
    | none => w
    | some port => (w.count wstBase Reg.wstRefetch).fetchFor port si what item 1 1

/-- Write bytes line by line; a line in a fenced channel takes nothing. (Log 41 PRESUMED.) -/
def Wafer.writeLines (w : Wafer) (stk a : Nat) (l : List Byte) : Wafer :=
  let n := ceilDiv l.length 256
  ((List.range n).foldl (fun w k =>
    if w.lineFenced stk (a + 256 * k) then w
    else { w with stkMem := w.stkMem.write (stkAddr stk (a + 256 * k)) ((l.drop (256 * k)).take 256) }) w).count
    (stkBase stk) Reg.stkWrites n

/-- Write a chunk to its place in the next generation's buffer (R235). -/
def Wafer.storeChunk (w : Wafer) (s : Source) (chunk : Nat) (data : List Byte) : Wafer :=
  let x := w.pageAt w.ingest.nextBuf (s.pageOf chunk) ((chunk - s.srcFirst) % 32 * 65536)
  w.writeLines x.1 x.2 (bytesAt data 0 65536)

/-- A chunk passes (R251): it is written once; its page becomes readable when all of its chunks have passed.
(Log 37 DESIGN CHOICE.) -/
def Wafer.chunkPass (w : Wafer) (si chunk : Nat) (data : List Byte) : Wafer :=
  let s := w.ingest.srcAt si
  match s.next with
  | none => w
  | some m =>
    let w := (w.storeChunk s.src chunk data).count wstBase Reg.wstBarges
    let passed := setInsert s.passedNext chunk
    let w := w.updSrc si fun s => { s with passedNext := passed }
    let w := w.dropFetches fun f => decide (0 < f.attempt) && f.source == si && f.what == 0 && f.first == chunk
    let page := s.src.pageOf chunk
    let buf := w.ingest.nextBuf
    let w := if (s.src.inPage m page).all (fun c => passed.contains c) && w.pageServed buf page then
        { w with reservoir := w.reservoir.setReady buf (setInsert (w.reservoir.readyIn buf) page) } else w
    let done := fun (h : HeldSegment) => h.source == si && h.gen == m.gen && (s.src.inSegment m h.seg).all fun c => passed.contains c
    let w := { w with ingest := { w.ingest with segments := w.ingest.segments.filter fun h => !done h } }
    (w.tiers.map (·.1)).foldl (fun w cl => w.settleTier cl) w

/-- Check a chunk whose segment is verified (R243). -/
def Wafer.chunkCheck (w : Wafer) (si chunk leaf hash : Nat) (tagOk : Bool) (data : List Byte) (again : Bool) : Wafer :=
  let w := if hash = leaf then w else w.count wstBase Reg.wstBadhash
  let w := if tagOk then w else w.count wstBase Reg.wstBadtag
  if hash = leaf ∧ tagOk = true then w.chunkPass si chunk data else w.itemFail si 0 chunk again

/-- The verified segment of a chunk. -/
def Ingest.segmentFor (g : Ingest) (si gen chunk : Nat) : Option HeldSegment :=
  g.segments.find? fun h => h.source == si && h.gen == gen && h.seg == chunk / 1024

/-- A TIR.GET that captured the old generation still reads the page of the freed buffer, or the place the page now has (R189). -/
def Wafer.pageBusy (w : Wafer) (buf page : Nat) : Bool :=
  let p := (w.reservoir.placeIn buf).getD page (0, 0)
  w.tiers.any fun e => e.2.gets.any fun g => g.buf == buf && g.kept.any fun k => k.1 == page || k.2 == p

/-- A segment is verified: it is held, and chunks that came before it are checked (R244). -/
def Wafer.segmentPass (w : Wafer) (si : Nat) (h : HeldSegment) : Wafer :=
  let mine := w.ingest.chunks.filter fun c => c.source == si && c.gen == h.gen && c.chunk / 1024 == h.seg
  let w := { w with ingest := { w.ingest with
    segments := w.ingest.segments ++ [{ h with source := si }]
    chunks := w.ingest.chunks.filter fun c => !mine.contains c } }
  let w := w.dropFetches fun f => decide (0 < f.attempt) && f.source == si && f.what == 1 && f.first == h.seg
  mine.foldl (fun w c =>
    let again := w.ingest.fetches.any fun f => f.attempt == 2 && f.source == si && f.what == 0 && f.first == c.chunk
    w.chunkCheck si c.chunk (h.leaves.getD (c.chunk % 1024) 0) c.hash c.tagOk c.data again) w

/-! ## Content keys (R245) -/

/-- The content key in a KEYWRAP body (Table 10-8), when it unwraps under the wrap key of its session. -/
def KeyWrap.unwrap (k : KeyWrap) : Option Nat :=
  (gcmOpen 16 (wrapKey k.secret k.dir) (bytesAt k.body 12 12) (bytesAt k.body 0 12) (bytesAt k.body 24 32) (bytesAt k.body 56 16)).map leNat

/-- Unwrap a KEYWRAP for a source's held manifest of the next or current generation. (Log 40 DESIGN CHOICE.) -/
def Wafer.applyKey (w : Wafer) (si : Nat) (k : KeyWrap) : Wafer :=
  match k.unwrap with
  | none => w.ingestRecord 2 si 0 0
  | some key =>
    let hits := fun (m : Option Manifest) => (m.map fun m => m.id == k.manifest && m.gen == k.gen).getD false
    w.updSrc si fun s =>
      if hits s.next then { s with keyNext := some key, keyFetchAt := none }
      else if hits s.cur then { s with keyCur := some key } else s

/-- A manifest that passed R241 is held; a KEYWRAP kept for it is applied. (Log 36 DESIGN CHOICE.) -/
def Wafer.holdManifest (w : Wafer) (si : Nat) (m : Manifest) : Wafer :=
  let s := w.ingest.srcAt si
  if s.next = some m then w
  else
    let w := { w with ingest := { w.ingest with
      segments := w.ingest.segments.filter fun h => !(h.source == si && h.gen == m.gen)
      chunks := w.ingest.chunks.filter fun c => c.source != si
      fetches := w.ingest.fetches.filter fun f => f.source != si || f.what == 2 } }
    let w := w.updSrc si fun s =>
      { s with next := some m, keyNext := none, passedNext := [], keyFetchAt := some ((w.tick + 16) % 2 ^ 48) }
    -- no page is readable yet but one that holds no chunk (R188)
    let buf := w.ingest.nextBuf
    let pages := rangeFrom s.src.firstPage s.src.pages
    let empty := pages.filter fun p => (s.src.inPage m p).isEmpty
    let ready := empty.foldl setInsert ((w.reservoir.readyIn buf).filter fun p => !pages.contains p)
    let w := { w with reservoir := w.reservoir.setReady buf ready }
    match indexOf? (fun (x : SrcSt) => x.src.keyPort == s.src.keyPort &&
        (x.kept.map fun k => k.1.manifest == m.id && k.1.gen == m.gen).getD false) w.ingest.sources with
    | none => w
    | some j =>
      match (w.ingest.srcAt j).kept with
      | none => w
      | some k => (w.updSrc j fun x => { x with kept := none }).applyKey si k.1

/-! ## Serving fetches (R254) -/

/-- The source and generation that a request names: its index, and whether it is the next generation. -/
def Ingest.genOf (g : Ingest) (manifest gen : Nat) : Option (Nat × Bool) :=
  let is := fun (m : Option Manifest) => (m.map fun m => m.id == manifest && m.gen == gen).getD false
  match indexOf? (fun (s : SrcSt) => is s.next) g.sources with
  | some i => some (i, true)
  | none => (indexOf? (fun (s : SrcSt) => is s.cur) g.sources).map fun i => (i, false)

/-- What a request comes to. -/
inductive ServeCase where
  | serve (si : Nat) (next : Bool)
  | wait
  | refuse (reason : Nat)
  deriving DecidableEq, Repr

def Wafer.serveCase (w : Wafer) (r : FetchIn) : ServeCase :=
  match w.ingest.genOf r.manifest r.gen with
  | none => .refuse 2
  | some (si, nx) =>
    let s := w.ingest.srcAt si
    let m := if nx then s.next else s.cur
    let buf := if nx then w.ingest.nextBuf else w.curBuf
    let items := rangeFrom r.first r.count
    if r.what = 1 then
      if items.all fun i => w.ingest.segments.any fun h => h.source == si && h.gen == r.gen && h.seg == i then .serve si nx
      else .refuse 1
    else if r.what = 0 ∧ 1 ≤ r.count ∧ r.count ≤ 256 ∧
        (m.map fun m => items.all fun c => s.src.holds m c).getD false = true then
      if items.any fun c => !w.pageServed buf (s.src.pageOf c) then .refuse 3
      else if items.all fun c => (if nx then s.passedNext else s.passedCur).contains c then .serve si nx
      else .wait
    else .refuse 1

/-- The nonce of a chunk (R243). -/
def bargeNonce (chunk gen : Nat) : List Byte := natLE 4 chunk ++ natLE 4 gen ++ natLE 4 0

/-- A chunk as the barge it came in: header, ciphertext and tag. -/
def Wafer.rebuildBarge (w : Wafer) (si : Nat) (nx : Bool) (chunk : Nat) : List Byte :=
  let s := w.ingest.srcAt si
  let m := ((if nx then s.next else s.cur).getD default : Manifest)
  let x := w.pageAt (if nx then w.ingest.nextBuf else w.curBuf) (s.src.pageOf chunk) ((chunk - s.src.srcFirst) % 32 * 65536)
  let h := natLE 8 m.id ++ natLE 4 chunk ++ natLE 4 m.gen ++ natLE 1 m.kind ++ natLE 15 0
  let c := gcmSeal 16 (natLE 32 ((if nx then s.keyNext else s.keyCur).getD 0)) (bargeNonce chunk m.gen) (h.take 17)
    (w.stkMem.read (stkAddr x.1 x.2) 65536)
  h ++ c.1 ++ c.2

/-- A held segment as its message (Table 10-7). -/
def Wafer.rebuildSegment (w : Wafer) (si gen seg : Nat) : List Byte :=
  match w.ingest.segments.find? fun h => h.source == si && h.gen == gen && h.seg == seg with
  | none => []
  | some h =>
    let s := w.ingest.srcAt si
    let id := if (s.next.map (·.gen)) = some gen then (s.next.map (·.id)).getD 0 else (s.cur.map (·.id)).getD 0
    natLE 8 id ++ natLE 4 gen ++ natLE 4 seg ++ natLE 2 h.proof.length ++ natLE 14 0 ++ h.leaves.flatMap (natLE 32) ++
      h.proof.flatMap (natLE 32)

/-- Send what a request names, in order, through requester 3. -/
def Wafer.serveFetch (w : Wafer) (r : FetchIn) (si : Nat) (nx : Bool) : Wafer :=
  (rangeFrom r.first r.count).foldl (fun w i =>
    let w := if r.what = 0 then
        (w.sendVl0 r.port 3 r.stream 0 true (w.rebuildBarge si nx i)).count
          (stkBase (w.pageAt (if nx then w.ingest.nextBuf else w.curBuf) ((w.ingest.srcAt si).src.pageOf i) 0).1) Reg.stkReads 256
      else w.sendVl0 r.port 3 r.stream 1 true (w.rebuildSegment si r.gen i)
    w.count wstBase Reg.wstServed) w

end Sys2Proof.Machine
end

