-- ==== Sys2Proof/Machine/ReduceOps.lean ====
section
/-!
DEFINITION. Sys2Proof/Machine/ReduceOps.lean: chains (R260 to R272) and collectives (R275 to R280): frames, junction sums, the drain
and the shadow buffer, the collective sequencer's steps, and frames that wait for either.
-/

namespace Sys2Proof.Machine

/-! ## Frames (R259, R260) -/

/-- Elements of the frame that begins at element e of n. -/
def frameLen (n e : Nat) : Nat := min 56 (min (16384 - e % 16384) (n - e))

/-- Element e begins a frame. -/
def onGrid (e : Nat) : Bool := e % 16384 % 56 == 0

/-- Frames of a message of n elements, and the first element of frame k. -/
def msgFrameCount (n : Nat) : Nat := if n = 0 then 1 else n / 16384 * 293 + ceilDiv (n % 16384) 56
def msgFrameStart (k : Nat) : Nat := 16384 * (k / 293) + 56 * (k % 293)

/-- The words of a body. -/
def words32 (l : List Byte) (n : Nat) : List Nat := (List.range n).map fun i => fieldAt l (4 * i) 4

/-! ## Junction sums (R262) -/

/-- The exact sum of FP32 values, rounded once. -/
def sum32 : List Nat → Nat
  | [] => 0
  | x :: l => rne (l.foldl (fun s y => s.add (val32 y)) (val32 x))

/-- Two elements with their poison. -/
def addElem (a b : Nat × Bool) : Nat × Bool := (sum32 [a.1, b.1], a.2 || b.2)

/-- 32-bit elements in the stack from an address, those of a poisoned word as NaN (R263). -/
def Wafer.stackElems (w : Wafer) (stk a n : Nat) : List (Nat × Bool) :=
  (List.range n).map fun i =>
    let p := stkAddr stk (a + 4 * i)
    if w.stkMem.badAt p then (fp32.nan, true) else (w.stkMem.num p 4, false)

/-- A SIGNAL that adds 1 to a semaphore leaves a rim unit's gateway (R268, R277). (Log 43 DESIGN CHOICE.) -/
def Wafer.unitSignal (w : Wafer) (unit nx ny sem : Nat) : Wafer :=
  if sem = 0xFF then w
  else
    w.addFlits [{ unitFlit unit 0 4095 0 nx ny w.running with kind := 3, sem := some sem, daddr := 1 }]

/-! ## Chains -/

def ChainEntry.tree (e : ChainEntry) : Bool := bit e.flags 0
def ChainEntry.clears (e : ChainEntry) : Bool := bit e.flags 1
def ChainEntry.isShadow (e : ChainEntry) : Bool := bit e.flags 2
def ChainEntry.tail (e : ChainEntry) : Bool := bit e.flags 3

/-- Input ports. -/
def ChainEntry.inputs (e : ChainEntry) : List Nat := [e.in0, e.in1].filter fun i => i != 0xFF

/-- Chunk k is sampled in a run of generation g (R271). -/
def sampled (g shoff k : Nat) : Bool := (k + g) % 4096 == shoff

/-- The first sampled chunk from k on. -/
def nextSampled (g shoff k : Nat) : Nat := k + (shoff + 4096 - (k + g) % 4096) % 4096

/-- The element at which the frame after the one at e begins; only sampled chunks travel a shadow chain. -/
def ChainRun.after (r : ChainRun) (e : Nat) : Nat :=
  let x := e + frameLen r.entry.nelem e
  if r.entry.isShadow ∧ x % 16384 = 0 then 16384 * nextSampled r.gen r.entry.shoff (x / 16384) else x

def Wafer.chainRecord (w : Wafer) (e : ChainEntry) (code elem : Nat) : Wafer :=
  w.recordFirst (jncBase e.out) Reg.jncFaultValid [(Reg.jncFaultCode, code), (Reg.jncFaultChain, e.chain), (Reg.jncFaultElem, elem)]

/-- A fault of a chain (Table 11-7). (Log 7 DEDUCED.) -/
def Wafer.chainFault (w : Wafer) (e : ChainEntry) (code elem : Nat) : Wafer :=
  (w.chainRecord e code elem).jobFault (0x0900 + code) (detailRunit (portRunit e.out))

/-- Show the chains that run at a port. -/
def Wafer.showRuns (w : Wafer) (port : Nat) : Wafer :=
  w.wr (jncBase port) Reg.jncStatRunning (countIf (fun (r : ChainRun) => r.entry.out == port) w.reduce.runs)

def Wafer.showShadow (w : Wafer) : Wafer := w.wr collBase Reg.collStatShbuf w.reduce.shadow.length

/-- One line of a slice is read, and cleared when the entry asks for it (R186). (Log 43 DESIGN CHOICE.) -/
def Wafer.drainLine (w : Wafer) (e : ChainEntry) (j n : Nat) : Wafer × List (Nat × Bool) :=
  let x := e.lineAt j
  let a := w.basinBase x.1 + 256 * x.2
  let l := w.stackElems x.1 a n
  let w := if e.clears then { w with stkMem := w.stkMem.write (stkAddr x.1 a) (List.replicate 256 0#8) } else w
  (w.count (stkBase x.1) Reg.stkReads, l)

/-- The entry's chunk k feeds its shadow chain in this run (R271, R272). -/
def ChainRun.shadows (r : ChainRun) (k : Nat) : Bool := r.entry.shadow != 0 && sampled r.gen r.entry.shoff k

def Wafer.setRun (w : Wafer) (i : Nat) (r : ChainRun) : Wafer := { w with reduce := { w.reduce with runs := listSet w.reduce.runs i r } }

/-- Put a line of a sampled chunk into the shadow buffer. -/
def Reduce.feedShadow (x : Reduce) (chain k : Nat) (l : List (Nat × Bool)) : Reduce :=
  { x with shadow := if x.shadow.any fun c => c.chain == chain && c.chunk == k then
      x.shadow.map fun c => if c.chain = chain ∧ c.chunk = k then ({ c with vals := c.vals ++ l } : ShadowChunk) else c
    else x.shadow ++ [⟨chain, k, l, none⟩] }

/-- The drain of run i reads on, up to 64 lines ahead of the output (R267); before the first line of a sampled chunk it waits for a slot of
the shadow buffer, which holds 16 chunks (R272). (Log 43 DESIGN CHOICE.) -/
def Wafer.readAhead (w : Wafer) (i : Nat) : Nat → Wafer
  | 0 => w
  | n + 1 =>
    match w.reduce.runs[i]? with
    | none => w
    | some r =>
      let e := r.entry
      let k := r.lines / 256
      if e.isShadow || decide (e.nelem ≤ 64 * r.lines ∨ r.next / 64 + 64 ≤ r.lines) ||
          (decide (r.lines % 256 = 0) && r.shadows k && decide (16 ≤ w.reduce.shadow.length)) then w
      else
        let x := w.drainLine e r.lines (min 64 (e.nelem - 64 * r.lines))
        let w := x.1.setRun i { r with lines := r.lines + 1, ahead := r.ahead ++ x.2 }
        let w := if r.shadows k then ({ w with reduce := w.reduce.feedShadow e.chain k x.2 } : Wafer).showShadow else w
        w.readAhead i n

def Wafer.readAllAhead (w : Wafer) : Wafer := (List.range w.reduce.runs.length).foldl (fun w i => w.readAhead i 64) w

/-- A frame of a chain waits at a port's egress. -/
def Wafer.chainQueued (w : Wafer) (port : Nat) : Bool := (w.port port).egress.any fun f => f.requester == 5

/-- Slots of the shadow buffer are freed once the shadow chunk's last frame has left (R272). -/
def Wafer.freeShadow (w : Wafer) : Wafer :=
  let gone := fun (c : ShadowChunk) => (c.done.map fun o => !w.chainQueued o).getD false
  if w.reduce.shadow.any gone then
    ({ w with reduce := { w.reduce with shadow := w.reduce.shadow.filter fun c => !gone c } } : Wafer).showShadow
  else w

/-- The n local elements that a run's next frame needs (R267, R272): those read ahead or, on a shadow chain, those in the shadow buffer;
`none` while they are not there. -/
def Wafer.localElems (w : Wafer) (r : ChainRun) (n : Nat) : Option (List (Nat × Bool)) :=
  let l := if r.entry.isShadow then
      ((w.reduce.shadow.find? fun c => c.chain == r.entry.shadow && c.chunk == r.next / 16384).map fun c => c.vals.drop (r.next % 16384)).getD []
    else r.ahead
  if n ≤ l.length then some (l.take n) else none

/-- The junction lane of the frame at an element (R261): an area port's second lane takes the odd-numbered frames of each chunk. -/
def junctionLane (port e : Nat) : Nat := if isArea port then e % 16384 / 56 % 2 else 0

/-- A GRAD frame of a chain. -/
def isGrad (l : List Byte) (chain elem : Nat) : Bool := fieldAt l 2 1 == 0 && fieldAt l 0 2 == chain && fieldAt l 4 4 == elem

/-- Send the next frame of run i, when every input has delivered its own, the local elements are there, the junction lane's arbiter grants
(R23), and the frame before it has left the port: the junction has no queue of its own, and the input frames hold their credits until they are
summed (R274). (Log 43 DESIGN CHOICE.) -/
def Wafer.stepRun (w : Wafer) (i : Nat) : Option Wafer :=
  match w.reduce.runs[i]? with
  | none => none
  | some r =>
    let e := r.entry
    let n := frameLen e.nelem r.next
    if r.lastSent || r.ins.any (fun x => x.frames.isEmpty) || w.chainQueued e.out || w.fenced (fJunction e.out (junctionLane e.out r.next)) then none
    else match w.localElems r n with
      | none => none
      | some l =>
        let heads := r.ins.map fun x => x.frames.headD default
        let vals := (List.range n).map fun k => sum32 (heads.map (fun (h : GradFrame) => h.vals.getD k 0) ++ [(l.getD k (0, false)).1])
        let bad := l.any (·.2)
        let next := r.after r.next
        let last := decide (e.nelem ≤ next)
        let payload := natLE 2 e.chain ++ natLE 1 0 ++ natLE 1 (b2n (bad || heads.any (·.poison)) + 2 * b2n last) ++ natLE 4 r.next ++
          vals.flatMap (natLE 4)
        let chunkEnds := last || next / 16384 != r.next / 16384
        let w := w.setRun i { r with next := next, ahead := r.ahead.drop n, lastSent := last
                                     ins := r.ins.map fun x => ({ x with frames := x.frames.drop 1 } : ChainIn) }
        let w := r.ins.foldl (fun w x => w.rxTake x.port fun f => f.vl == 1 && f.ftype == 0 && isGrad f.payload e.chain r.next) w
        let w := if e.isShadow && chunkEnds then
            ({ w with reduce := { w.reduce with shadow := w.reduce.shadow.map fun c =>
              if c.chain = e.shadow ∧ c.chunk = r.next / 16384 then ({ c with done := some e.out } : ShadowChunk) else c } } : Wafer).count
                (jncBase e.out) Reg.jncSampled
          else w
        let w := (w.count (jncBase e.out) Reg.jncFramesin r.ins.length).count (jncBase e.out) Reg.jncFramesout
        let w := w.queueFrame e.out 5 1 0 payload
        some (if bad then w.chainFault e 5 r.next else w)

/-- Go on with every run until none can send a frame. -/
def Wafer.runChains (w : Wafer) : Nat → Wafer
  | 0 => w
  | n + 1 =>
    let w := w.freeShadow.readAllAhead
    match (List.range w.reduce.runs.length).findSome? w.stepRun with
    | none => w
    | some w' => w'.runChains n

/-- Frames that the runs have still to send, at most. -/
def Wafer.framesLeft (w : Wafer) : Nat := w.reduce.runs.foldl (fun n r => n + msgFrameCount r.entry.nelem) 0

def Wafer.advanceChains (w : Wafer) : Wafer := if w.reduce.runs.isEmpty then w else w.runChains (w.framesLeft + 1)

/-! ### Frames that come for a chain (R266, R267) -/

/-- The GRAD frame in a payload. -/
def gradFrame (fr : List Byte) : GradFrame :=
  ⟨fieldAt fr 4 4, bit (fieldAt fr 3 1) 0, bit (fieldAt fr 3 1) 1, words32 (fr.drop 8) ((fr.length - 8) / 4)⟩

/-- The fault of a frame at an input that expects element `next` (R267): 1 CHAIN_RANGE, 2 CHAIN_ORDER. (Log 43 DESIGN CHOICE.) -/
def gradFault (e : ChainEntry) (next len elem : Nat) : Option Nat :=
  if e.nelem ≤ elem ∨ onGrid elem = false ∨ len ≠ 8 + 4 * frameLen e.nelem elem then some 1
  else if elem ≠ next then some 2
  else none

/-- A frame reaches input k of run i: it waits there for its sum, and holds its credit. -/
def Wafer.gradInput (w : Wafer) (i k : Nat) (fr : List Byte) : Wafer :=
  match w.reduce.runs[i]? with
  | none => w
  | some r =>
    match r.ins[k]? with
    | none => w
    | some x =>
      match gradFault r.entry x.next fr.length (fieldAt fr 4 4) with
      | some code => (w.rxTook x.port 1 0 fr).chainFault r.entry code (fieldAt fr 4 4)
      | none =>
        let x' : ChainIn := { x with next := r.after x.next, frames := x.frames ++ [gradFrame fr], lastAt := w.time.passed }
        w.setRun i { r with ins := listSet r.ins k x' }

/-- Frames that came before their chain started reach its inputs, in order. -/
def Wafer.gradsWaiting (w : Wafer) (chain : Nat) : Wafer :=
  match indexOf? (fun (r : ChainRun) => r.entry.chain == chain) w.reduce.runs with
  | none => w
  | some i =>
    let ins := (w.reduce.runs.getD i default).ins
    (List.range ins.length).foldl (fun w k =>
      let port := (ins.getD k default).port
      ((w.port port).rx.filter fun f =>
        !f.taken && f.vl == 1 && f.ftype == 0 && fieldAt f.payload 2 1 == 0 && fieldAt f.payload 0 2 == chain).foldl
          (fun w f => if w.running then w.gradInput i k f.payload else w) w) w

/-- Start an entry's chain (R267, R269). A shadow chain with no chunk to carry has nothing to run. (Log 43 DESIGN CHOICE.) -/
def Wafer.startChain (w : Wafer) (e : ChainEntry) : Wafer :=
  match w.reduce.runs.find? fun r => r.entry.chain == e.chain with
  | some r => w.chainFault e 4 r.next
  | none =>
    let gen := w.rd tirmBase Reg.tirGenGen
    let first := if e.isShadow then 16384 * nextSampled gen e.shoff 0 else 0
    if e.nelem ≤ first then w
    else
      let r : ChainRun := ⟨e, gen, first, e.inputs.map fun i => ⟨i, first, [], w.time.passed⟩, 0, [], false⟩
      (({ w with reduce := { w.reduce with runs := w.reduce.runs ++ [r] } } : Wafer).showRuns e.out).gradsWaiting e.chain

/-- Chains whose stage begins (R267). -/
def Wafer.startChains (w : Wafer) (stage : Nat) : Wafer :=
  let l := w.reduce.chains.filter fun e => e.stage == stage
  (l.foldl (fun w e => if w.running then w.startChain e else w) w).advanceChains

/-! ## Collectives (R277 to R280) -/

/-- Members of a collective. -/
def CollEntry.members (e : CollEntry) : Nat := if e.count = 0 then 65536 else e.count

/-- Own rank in the job membership. -/
def Wafer.ownRank (w : Wafer) : Option Nat := indexOf? (fun m => m / 2 ^ 15 == w.rd 0 Reg.shpPlacePlace) w.shp.members

/-- The place of group member j. -/
def Wafer.memberPlace (w : Wafer) (e : CollEntry) (j : Nat) : Nat := w.shp.members.getD (e.first + j * e.stride) 0 / 2 ^ 15

/-- One step of a member: its number, whom it sends to and what elements, whom it hears and what elements, and whether what it
hears is added or taken. -/
structure CollStep where
  num : Nat
  dest : Option Nat
  outLo : Nat
  outN : Nat
  peer : Option Nat
  inLo : Nat
  inN : Nat
  adds : Bool
  deriving DecidableEq, Repr, Inhabited

/-- Recursive doubling among n members for member j, over a vector of c elements (R278). -/
def doublingSteps (n j c : Nat) : List CollStep :=
  let k := Nat.log2 n
  let p := 2 ^ k
  let r := n - p
  let fold := if r = 0 then [] else if p ≤ j then [⟨0, some (j - p), 0, c, none, 0, 0, true⟩]
    else if j < r then [⟨0, none, 0, 0, some (j + p), 0, c, true⟩] else []
  let dbl := if j < p then (List.range k).map fun i => (⟨1 + i, some (j ^^^ 2 ^ i), 0, c, some (j ^^^ 2 ^ i), 0, c, true⟩ : CollStep) else []
  let unf := if r = 0 then [] else if p ≤ j then [⟨1 + k, none, 0, 0, some (j - p), 0, c, false⟩]
    else if j < r then [⟨1 + k, some (j + p), 0, c, none, 0, 0, true⟩] else []
  fold ++ dbl ++ unf

/-- First element and length of ring segment s of c elements among n. -/
def ringSeg (n c s : Nat) : Nat × Nat :=
  let q := ceilDiv c n
  let lo := min c (s % n * q)
  (lo, min q (c - lo))

/-- The ring among n members for member j (R279). -/
def ringSteps (n j c : Nat) : List CollStep :=
  (List.range (2 * n - 2)).map fun s =>
    let sends := if s < n - 1 then j + n - s % n else j + 1 + 2 * n - (s - (n - 1))
    let hears := if s < n - 1 then j + 2 * n - 1 - s else j + 2 * n - (s - (n - 1))
    let o := ringSeg n c sends
    let i := ringSeg n c hears
    ⟨s, some ((j + 1) % n), o.1, o.2, some ((j + n - 1) % n), i.1, i.2, decide (s < n - 1)⟩

/-- The steps of the running collective's phase. -/
def CollRun.steps (r : CollRun) : List CollStep :=
  match r.phase with
  | .count => doublingSteps r.entry.members r.rank 1
  | .doubling => doublingSteps r.entry.members r.rank r.capacity
  | .ring => ringSteps r.entry.members r.rank r.capacity

def CollRun.current (r : CollRun) : Option CollStep := r.steps[r.step]?

def Wafer.setColl (w : Wafer) (r : CollRun) : Wafer := { w with reduce := { w.reduce with run := some r } }

def Wafer.collFault (w : Wafer) (r : CollRun) (code rank step : Nat) : Wafer :=
  (w.recordFirst collBase Reg.collFaultValid [(Reg.collFaultCode, code), (Reg.collFaultId, r.entry.id), (Reg.collFaultRank, rank),
    (Reg.collFaultStep, step)]).jobFault (0x0900 + code) detailNone

/-- Send a step's message (R260, R280). -/
def Wafer.collSend (w : Wafer) (r : CollRun) (s : CollStep) (dest : Nat) : Wafer :=
  let place := w.memberPlace r.entry dest
  match w.routePort place fun i => linkState w i == 6 && portCarries w i 1 with
  | none => w
  | some port =>
    let isCount := r.phase == .count
    (List.range (if isCount then 1 else msgFrameCount s.outN)).foldl (fun w k =>
      let l := (r.vec.drop (s.outLo + msgFrameStart k)).take (frameLen s.outN (msgFrameStart k))
      let last := isCount || k + 1 == msgFrameCount s.outN
      let body := if isCount then natLE 4 r.countMax else l.flatMap fun x => natLE 4 x.1
      w.queueFrame port 6 1 0 (natLE 1 r.entry.id ++ natLE 1 s.num ++ natLE 1 (if isCount then 3 else 2) ++
        natLE 1 (b2n (!isCount && l.any (·.2)) + 2 * b2n last) ++ natLE 2 r.rank ++ natLE 2 k ++ body)) w

/-- The sequencer's phases change: what follows the last step of one. -/
inductive CollNext where
  | run (r : CollRun)
  | size
  | done
  deriving DecidableEq, Repr

/-- The capacity is known (R277 step 2 and 3): the contribution, cut or filled with zeros, and the algorithm. -/
def Wafer.collCopy (w : Wafer) (r : CollRun) (capacity : Nat) : CollRun :=
  let n := min r.countIn capacity
  let l := w.stackElems r.entry.sstk (r.entry.src + 64) n
  let thresh := if r.entry.thresh = 0 then 262144 else r.entry.thresh
  { r with
    phase := if 4 * capacity ≤ thresh then .doubling else .ring
    step := 0, capacity := capacity, dropped := r.countIn - n
    vec := l ++ List.replicate (capacity - n) (0, false), frag := 0, got := [] }

def collNext (w : Wafer) (r : CollRun) : CollNext :=
  if r.phase = .count then
    if r.entry.mode = 1 ∧ r.entry.cap < r.countMax then .size
    else .run (w.collCopy r (if r.entry.mode = 1 then r.countMax else min r.countMax r.entry.ceil))
  else .done

/-- A collective writes its region, `off` bytes on: where an ADMIT has moved the basin since COLL_LOAD, the region is not the basin's, and
nothing is written there (R177). (Log 44 DESIGN CHOICE.) -/
def Wafer.writeBasin (w : Wafer) (stk a off : Nat) (l : List Byte) : Wafer :=
  if w.basinBase stk ≤ a ∧ a + off + l.length ≤ w.basinBase stk + w.basinSize stk then w.writeLines stk (a + off) l else w

/-- The copy at DST + 64 (R277 step 2). -/
def Wafer.collStore (w : Wafer) (r : CollRun) : Wafer :=
  w.writeBasin r.entry.dstk r.entry.dst 64 (r.vec.flatMap fun x => natLE 4 x.1)

/-- The result's header (Table 11-6). -/
def CollRun.header (r : CollRun) : List Byte :=
  natLE 8 r.capacity ++ natLE 8 r.dropped ++ natLE 8 (if r.entry.mode = 0 then 0 else r.countMax) ++ natLE 8 r.entry.members ++
  natLE 8 (if r.phase = .ring then 1 else 0) ++ natLE 24 0

/-- The collective is complete (R277 step 4). (Log 44 DESIGN CHOICE.) -/
def Wafer.collDone (w : Wafer) (r : CollRun) : Wafer :=
  let w := (w.collStore r).writeBasin r.entry.dstk r.entry.dst 0 r.header
  let w := w.unitSignal r.entry.dstk r.entry.nx r.entry.ny r.entry.sem
  let w := w.count collBase Reg.collDone
  let w := if r.phase = .ring then w.count collBase Reg.collRing else w.count collBase Reg.collRd
  let w := w.count collBase Reg.collDropped r.dropped
  ({ w with reduce := { w.reduce with run := none } } : Wafer).wr collBase Reg.collStatActive 0

/-- A collective begins: its contribution's COUNT_IN, and under PAD its capacity. -/
def Wafer.collBegin (w : Wafer) (e : CollEntry) : CollRun :=
  let a := stkAddr e.sstk e.src
  let n := w.stkMem.num a 4
  let r : CollRun := ⟨e, ((w.ownRank).getD 0 - e.first) / max e.stride 1, .count, 0, n, n, 0, 0, [], 0, [], w.time.passed⟩
  if e.mode = 0 then w.collCopy r e.cap else r

/-- Words of a contribution that a run has read are poisoned (R263). -/
def Wafer.collBad (w : Wafer) (r : CollRun) : Bool :=
  w.stkMem.badIn (stkAddr r.entry.sstk r.entry.src) 4 || (r.phase != .count && r.vec.any (·.2))

/-- The sequencer goes on from the step it stands at, until it has to wait for a partner or has nothing to run. The first entry
into a step sends its message. -/
def Wafer.collRun (w : Wafer) : Nat → Wafer
  | 0 => w
  | n + 1 =>
    match w.reduce.run with
    | none => match w.reduce.queue with
      | [] => w
      | id :: rest =>
        let w := { w with reduce := { w.reduce with queue := rest } }
        match w.reduce.colls.find? fun e => e.id == id with
        | none => w.collRun n
        | some e =>
          let r := w.collBegin e
          let w := (w.setColl r).wrs collBase [(Reg.collStatCurrent, id), (Reg.collStatActive, 1)]
          let w := if r.phase = .count then w else w.collStore r
          let bad := w.collBad r
          let w := w.collRun n
          if bad then w.collFault r 5 r.rank 0 else w
    | some r => match r.current with
      | some s =>
        let r := { r with frag := 0, got := [], sentAt := w.time.passed }
        let w := match s.dest with
          | some d => (w.setColl r).collSend r s d
          | none => w.setColl r
        match s.peer with
        | some _ => w
        | none => (w.setColl { r with step := r.step + 1 }).collRun n
      | none => match collNext w r with
        | .size => w.collFault r 0x10 r.rank 0
        | .done => (w.collDone r).collRun n
        | .run r' =>
          let w := (w.setColl r').collStore r'
          let bad := w.collBad r'
          let w := w.collRun n
          if bad then w.collFault r' 5 r'.rank 0 else w

/-- Steps that the sequencer can take at one go, at most. (Log 44 DESIGN CHOICE.) -/
def Wafer.collSteps (w : Wafer) : Nat := (w.reduce.queue.length + 2) * 140000

/-! ### Frames that come for a collective (R277 to R280) -/

/-- What the sequencer makes of a COLL frame (R280). -/
inductive CollCase where
  /-- The frame it expects now. -/
  | take (s : CollStep)
  /-- A frame of a step or collective it has not come to. -/
  | wait
  | fault (step : Nat)
  deriving DecidableEq, Repr

/-- The next step, from index i on, in which a partner is heard. -/
def CollRun.hears (r : CollRun) (i rank : Nat) : Option CollStep := (r.steps.drop i).find? fun s => s.peer == some rank

def Wafer.collCase (w : Wafer) (r : CollRun) (isCount : Bool) (fr : List Byte) : CollCase :=
  let rank := fieldAt fr 4 2
  let step := fieldAt fr 1 1
  let counting := r.phase == .count
  match r.current with
  | none => .wait
  | some s =>
    if fieldAt fr 0 1 ≠ r.entry.id then (if w.reduce.queue.contains (fieldAt fr 0 1) then .wait else .fault s.num)
    else if isCount ≠ counting then (if counting then .wait else .fault s.num)
    else if s.peer = some rank then
      if step = s.num % 256 ∧ fieldAt fr 6 2 = r.frag % 65536 then .take s else .fault s.num
    else match r.hears (r.step + 1) rank with
      | some t => if step = t.num % 256 then .wait else .fault s.num
      | none => .fault s.num

/-- The partner's message of a step has come whole: it is added to the vector, or taken in its place; in the pre-phase, the larger
count stands. -/
def CollRun.finishStep (r : CollRun) (s : CollStep) : CollRun :=
  let old := (r.vec.drop s.inLo).take s.inN
  let new := if s.adds then (List.range s.inN).map fun i => addElem (old.getD i (0, false)) (r.got.getD i (0, false)) else r.got
  match r.phase with
  | .count =>
    let n := (r.got.headD (0, false)).1
    { r with countMax := if s.adds then max r.countMax n else n, step := r.step + 1 }
  | _ => { r with vec := r.vec.take s.inLo ++ new ++ r.vec.drop (s.inLo + s.inN), step := r.step + 1 }

/-- One frame of the step's message. (Log 44 DESIGN CHOICE.) -/
def Wafer.collTake (w : Wafer) (r : CollRun) (s : CollStep) (fr : List Byte) : Wafer :=
  let counting := r.phase == .count
  let n := if counting then 1 else frameLen s.inN (msgFrameStart r.frag)
  let bad := bit (fieldAt fr 3 1) 0
  let r := { r with got := r.got ++ (words32 (fr.drop 8) n).map fun x => (x, bad), frag := r.frag + 1 }
  let whole := counting || decide (msgFrameCount s.inN ≤ r.frag)
  if whole then (w.setColl (r.finishStep s)).collRun w.collSteps else w.setColl r

/-- The first COLL frame in a port's buffer. -/
def Port.collHead (p : Port) : Option RxFrame :=
  p.rx.find? fun f => !f.taken && f.vl == 1 && f.ftype == 0 && (fieldAt f.payload 2 1 == 2 || fieldAt f.payload 2 1 == 3)

/-- The sequencer takes a COLL frame, or keeps it in the buffer until it comes to it. -/
def Wafer.collOffer (w : Wafer) (port : Nat) (isCount : Bool) (fr : List Byte) : Wafer :=
  match w.reduce.run with
  | none => w.rxKeep port 1 0 fr
  | some r =>
    match w.collCase r isCount fr with
    | .take s => (w.rxTook port 1 0 fr).collTake r s fr
    | .wait => w.rxKeep port 1 0 fr
    | .fault step => (w.rxTook port 1 0 fr).collFault r 0x12 (fieldAt fr 4 2) step

/-- Frames that the sequencer has come to are taken, each port's in order. -/
def Wafer.collWaiting (w : Wafer) : Nat → Wafer
  | 0 => w
  | n + 1 =>
    let ready := fun (i : Nat) => match (w.port i).collHead, w.reduce.run with
      | some f, some r => w.collCase r (fieldAt f.payload 2 1 == 3) f.payload != .wait
      | _, _ => false
    match (List.range 176).find? ready with
    | none => w
    | some i => match (w.port i).collHead with
      | none => w
      | some f => (w.collOffer i (fieldAt f.payload 2 1 == 3) f.payload).collWaiting n

/-- Frames in the buffers. -/
def Wafer.rxTotal (w : Wafer) : Nat := w.ports.foldl (fun n e => n + e.2.rx.length) 0

def Wafer.collsGo (w : Wafer) : Wafer := if w.reduce.run.isNone then w else w.collWaiting w.rxTotal

/-- Collectives whose stage begins, in increasing ID (R277). (Log 44 DESIGN CHOICE.) -/
def Wafer.startColls (w : Wafer) (stage : Nat) : Wafer :=
  let ids := sortBy (fun a b => decide (a ≤ b)) ((w.reduce.colls.filter fun e => e.stage == stage).map (·.id))
  if ids.isEmpty || !w.running then w
  else
    let idle := w.reduce.run.isNone
    let w := { w with reduce := { w.reduce with queue := w.reduce.queue ++ ids } }
    if idle then (w.collRun w.collSteps).collsGo else w

end Sys2Proof.Machine
end

