-- ==== Sys2Proof/Machine/CmdNet.lean ====
section
/-!
DEFINITION. Sys2Proof/Machine/CmdNet.lean: the commands of family 0x03xx and COLL_LOAD (Table 12-12): the port plan (R230), fences (R24,
R368), expected peers (R222), route, chain, membership and collective tables (R264, R275, R323).
-/

namespace Sys2Proof.Machine

/-! ## The port plan (R229, R230) -/

/-- A port part-way through Table 9-8: in TRAINING, IDENT or KEYX. (Log 33 DEDUCED.) -/
def Wafer.bringingUp (w : Wafer) (i : Nat) : Bool := linkState w i == 1 || linkState w i == 2 || linkState w i == 4

/-- A plan takes effect: ports go dark or light up, a port that stays lit drops queued frames of lanes it loses, and one part-way
through its bring-up starts it again (R230). -/
def Wafer.applyPlan (w : Wafer) (plan : Nat) : Wafer :=
  let w := (List.range 176).foldl (fun w i =>
    let w := w.wr (portBase i) Reg.tpLinkctlPlan plan
    w.dropQueued i fun v => !bit (planLanes plan i (peerKind w i)) v) w
  let w := w.relightAll
  (List.range 176).foldl (fun w i => if w.bringingUp i then w.train i else w) w

/-- PORT_PLAN (R230), at step 5. -/
def portPlanSpec : CmdSpec :=
  { opcode := 0x0301, step := 5, len := lenIs 1
    sum := some fun w _ => regSum w ((List.range 176).map fun i => portBase i + Reg.tpLinkctlPlan.off)
    check := fun w p => if 2 < fieldAt p.params 0 1 then (0x0103, 64) else if w.armedOrRunning then (0x0401, 0) else (0, 0)
    act := fun w fl => { w := w.applyPlan (fieldAt fl.p.params 0 1) } }

def execPortPlan (p : Packet) (s : State) : Host.Outcome State Fault Refusal := commandStep portPlanSpec p s

/-! ## Fences -/

/-- The unit kind of a FENCE parameter (Table 12-12). -/
def fenceKindOf (k : Nat) : FenceKind :=
  match k with
  | 0 => .site | 1 => .cluster | 2 => .field | 3 => .routerPlane | 4 => .arbiter | 5 => .port | _ => .stackChannel

/-- Kinds that lie in a field; the others take field 0. -/
def inField (k : Nat) : Bool := decide (k ≤ 4)

/-- The unit that FENCE or UNFENCE names. (Log 26 DESIGN CHOICE.) -/
def fenceUnitOf (l : List Byte) : FenceUnit :=
  let k := fieldAt l 0 1
  ⟨fenceKindOf k, if inField k && !(k == 4 && decide (fieldAt l 2 2 < 560)) then fieldAt l 1 1 else 0, fieldAt l 2 2⟩

/-- The unit exists. -/
def fenceParams (p : Packet) : Nat × Nat :=
  if 6 < fieldAt p.params 0 1 then (0x0103, 64)
  else if unitOk (fenceUnitOf p.params) then (0, 0)
  else (0x0103, if 112 ≤ (fenceUnitOf p.params).field then 65 else 66)

/-- FENCE (R24, R368). -/
def fenceSpec : CmdSpec :=
  { opcode := 0x0302, len := lenIs 4, check := fun _ p => fenceParams p, idle := fun w p => w.fenced (fenceUnitOf p.params)
    act := fun w fl => { w := w.raiseFence (fenceUnitOf fl.p.params) 0x0B10 true (some w.tick) } }

def execFence (p : Packet) (s : State) : Host.Outcome State Fault Refusal := commandStep fenceSpec p s

/-- A fence of the unit raised after an UNFENCE's acceptance stands (R24), but for one that a FENCE command of the same boundary
raised before it. -/
def Wafer.fenceAnew (w : Wafer) (u : FenceUnit) (mark : Nat) : Bool :=
  w.fences.any fun r => r.unit == u && decide (mark ≤ r.serial) && r.cmdTick != some w.tick

/-- UNFENCE (R24, R368). -/
def unfenceSpec : CmdSpec :=
  { opcode := 0x0303, len := lenIs 4
    check := fun w p =>
      let st := fenceParams p
      if st.1 ≠ 0 then st else if w.mapRetired (fenceUnitOf p.params) then (0x0401, 0) else (0, 0)
    act := fun w fl =>
      let u := fenceUnitOf fl.p.params
      if w.fenceAnew u fl.mark then { w := w, status := 0x0401 } else { w := w.liftFences fun v => v == u } }

def execUnfence (p : Packet) (s : State) : Host.Outcome State Fault Refusal := commandStep unfenceSpec p s

/-! ## Expected peers (R222) -/

/-- PEER_EXPECT (R222): a port, then the images of TPx_EXPHASH0 to 3 and TPx_EXPID. (Log 73 PRESUMED.) -/
def peerExpectSpec : CmdSpec :=
  { opcode := 0x0304, len := lenIs 41, fenced := fun w p => w.portFenced (fieldAt p.params 0 1)
    sum := some fun w p => regSum w ((List.range 5).map fun k => portBase (fieldAt p.params 0 1) + Reg.tpExphash0Hash.off + 8 * k)
    check := fun _ p =>
      if 176 ≤ fieldAt p.params 0 1 then (0x0103, 64) else if bits (fieldAt p.params 33 8) 39 24 ≠ 0 then (0x0103, 101) else (0, 0)
    act := fun w fl =>
      let i := fieldAt fl.p.params 0 1
      let h := fun (k : Nat) => fieldAt fl.p.params (1 + 8 * k) 8
      let v := fieldAt fl.p.params 33 8
      let w := w.wrs (portBase i) [(Reg.tpExphash0Hash, h 0), (Reg.tpExphash1Hash, h 1), (Reg.tpExphash2Hash, h 2),
        (Reg.tpExphash3Hash, h 3), (Reg.tpExpidPlace, v), (Reg.tpExpidPort, bits v 25 8), (Reg.tpExpidKind, bits v 33 3),
        (Reg.tpExpidAny, bits v 36 3), (Reg.tpExpidValid, bits v 63 1)]
      { w := w.expectApplied i } }

def execPeerExpect (p : Packet) (s : State) : Host.Outcome State Fault Refusal := commandStep peerExpectSpec p s

/-! ## Tables in the quay -/

/-- QA and the bytes that follow it. -/
def qaOf (p : Packet) : Nat := fieldAt p.params 0 8

/-- A port index that a table may hold; 0xFF where it may be absent. -/
def portOk (i : Nat) : Bool := decide (i < 176)
def portOrNone (i : Nat) : Bool := decide (i < 176 ∨ i = 0xFF)

/-- Dark under the plan in effect. -/
def Wafer.portDark (w : Wafer) (i : Nat) : Bool := planLanes (portPlan w i) i 1 == 0

/-! ### Routes (R323, Table 13-8) -/

/-- Counts of a ROUTE_LOAD: routes, multicast groups and arbiter tables. (Log 41 PRESUMED, 45 DESIGN CHOICE.) -/
def routeCounts (p : Packet) : Nat × Nat × Nat := (fieldAt p.params 8 4, fieldAt p.params 12 4, fieldAt p.params 16 4)

def routeBytes (p : Packet) : Nat :=
  let c := routeCounts p
  8 * c.1 + 32 * c.2.1 + 264 * c.2.2

/-- A route entry is well formed: exact with length 0, or prefix. -/
def routeEntryOk (v : Nat) : Bool :=
  bits v 25 7 == 0 && portOk (bits v 32 8) && portOrNone (bits v 40 8) && decide (bits v 48 5 ≤ 25) && bits v 53 10 == 0

/-- A multicast entry. -/
def groupOk (l : List Byte) (o : Nat) : Bool := bits (fieldAt l o 2) 12 3 == 0 && fieldAt l (o + 24) 8 == 0

/-- An arbiter entry: a BAR0 base, LEN, 256 owners. -/
def arbEntryOk (l : List Byte) (o : Nat) : Bool :=
  (arbUnit (fieldAt l o 4)).isSome && decide (1 ≤ fieldAt l (o + 4) 2 ∧ fieldAt l (o + 4) 2 ≤ 256) && fieldAt l (o + 6) 2 == 0 &&
  (List.range 256).all fun k => decide (fieldAt l (o + 8 + k) 1 < 64)

/-- Ports that a route load names, with the index of the entry that does. -/
def routePorts (l : List Byte) (c : Nat × Nat × Nat) : List (Nat × Nat) :=
  ((List.range c.1).flatMap fun i =>
    let v := fieldAt l (8 * i) 8
    if bit v 63 then (i, bits v 32 8) :: (if bits v 40 8 = 0xFF then [] else [(i, bits v 40 8)]) else []) ++
  (List.range c.2.1).flatMap fun i =>
    ((List.range 176).filter fun k => bit (fieldAt l (8 * c.1 + 32 * i + 2) 22) k).map fun k => (c.1 + i, k)

/-- The index of the first entry of a route load that fails. (Log 45 DESIGN CHOICE.) -/
def routeBad (l : List Byte) (c : Nat × Nat × Nat) : Option Nat :=
  (List.range (c.1 + c.2.1 + c.2.2)).find? fun i =>
    if i < c.1 then !routeEntryOk (fieldAt l (8 * i) 8)
    else if i < c.1 + c.2.1 then !groupOk l (8 * c.1 + 32 * (i - c.1))
    else !arbEntryOk l (8 * c.1 + 32 * c.2.1 + 264 * (i - c.1 - c.2.1))

def routeCheck (w : Wafer) (p : Packet) : Nat × Nat :=
  let c := routeCounts p
  if !quayOk (qaOf p) (routeBytes p) then (0x0106, 0)
  else
    let l := w.quayRead (qaOf p) (routeBytes p)
    let pre := countIf (fun i => decide (0 < bits (fieldAt l (8 * i) 8) 48 5)) (List.range c.1)
    if 16384 < c.1 - pre ∨ 2048 < pre ∨ 4096 < c.2.1 then (0x0202, 0)
    else match routeBad l c with
      | some i => (0x0105, i)
      | none => (0, 0)

/-- The route tables of a load. (Log 45 DESIGN CHOICE.) -/
def routeTables (l : List Byte) (c : Nat × Nat × Nat) : RouteTables :=
  let vs := ((List.range c.1).map fun i => fieldAt l (8 * i) 8).filter fun v => bit v 63
  { exact := (vs.filter fun v => bits v 48 5 == 0).map fun v => (bits v 0 25, bits v 32 8, bits v 40 8)
    prefixes := (vs.filter fun v => bits v 48 5 != 0).map fun v => (bits v 0 25, bits v 48 5, bits v 32 8, bits v 40 8)
    mcast := (List.range c.2.1).map fun i =>
      let o := 8 * c.1 + 32 * i
      (bits (fieldAt l o 2) 0 12, bit (fieldAt l o 2) 15, (List.range 176).filter fun k => bit (fieldAt l (o + 2) 22) k) }

/-- Arbiter tables of a load: base and table. (Log 45 DESIGN CHOICE.) -/
def routeArbs (l : List Byte) (c : Nat × Nat × Nat) : List (Nat × ArbTable) :=
  (List.range c.2.2).map fun i =>
    let o := 8 * c.1 + 32 * c.2.1 + 264 * i
    (fieldAt l o 4, { len := fieldAt l (o + 4) 2
                      owners := ((List.range 256).filter fun k => bit (fieldAt l (o + 8 + k) 1) 5).map fun k =>
                        (k, fieldAt l (o + 8 + k) 1 % 32)
                      idle := ((List.range 256).filter fun k => !bit (fieldAt l (o + 8 + k) 1) 5 && fieldAt l (o + 8 + k) 1 % 32 != 0).map
                        fun k => (k, fieldAt l (o + 8 + k) 1 % 32) })

/-- ROUTE_LOAD (R21, R323), at step 6: refused whole when it names a port dark under the plan of step 5. -/
def routeLoadSpec : CmdSpec :=
  { opcode := 0x0305, step := 6, len := lenIs 20, check := routeCheck
    act := fun w fl =>
      let c := routeCounts fl.p
      let l := w.quayRead (qaOf fl.p) (routeBytes fl.p)
      match (routePorts l c).find? fun e => w.portDark e.2 with
      | some e => { w := w, status := 0x0105, detail := e.1 }
      | none =>
        let w := { w with shp := { w.shp with routes := routeTables l c } }
        { w := (routeArbs l c).foldl (fun w e => (w.setArbShadow e.1 e.2).arbExchange e.1) w } }

def execRouteLoad (p : Packet) (s : State) : Host.Outcome State Fault Refusal := commandStep routeLoadSpec p s

/-! ### Chains (R264, R270, Table 11-3) -/

/-- Chain entry i of a table. -/
def chainEntry (l : List Byte) (i : Nat) : ChainEntry :=
  let e := bytesAt l (32 * i) 32
  { chain := fieldAt e 0 2, shadow := fieldAt e 2 2, in0 := fieldAt e 4 1, in1 := fieldAt e 5 1, out := fieldAt e 6 1
    flags := fieldAt e 7 1, nelem := fieldAt e 8 4, boff := fieldAt e 12 4, sfirst := fieldAt e 16 1, scount := fieldAt e 17 1
    pos := fieldAt e 18 2, stage := fieldAt e 20 3, pen := fieldAt e 23 1, shoff := fieldAt e 24 2, nx := fieldAt e 26 1
    ny := fieldAt e 27 1, sem := fieldAt e 28 1, delay := fieldAt e 30 2 }

/-- Every field lies within Table 11-3, reserved bits are zero, and no input is the output (R264). -/
def chainFieldsOk (e : ChainEntry) (resv : Nat) : Bool :=
  decide (1 ≤ e.chain ∧ e.out < 176 ∧ e.flags < 16 ∧ 1 ≤ e.nelem ∧ e.sfirst < 32 ∧ 1 ≤ e.scount ∧ e.scount ≤ 32 ∧ e.pen < 64 ∧
    e.shoff < 4096 ∧ (e.sem < 32 ∨ e.sem = 0xFF) ∧ 1 ≤ e.delay ∧ e.delay ≤ 2000 ∧ resv = 0) &&
  portOrNone e.in0 && portOrNone e.in1 && (e.tree || e.in1 == 0xFF) && !e.inputs.contains e.out &&
  (e.tail || !e.inputs.isEmpty || e.pos == 0)

/-- Ports an entry names. -/
def ChainEntry.ports (e : ChainEntry) : List Nat := e.out :: e.inputs

/-- A primary and its shadow (R270). -/
def shadowPair (a b : ChainEntry) : Bool :=
  !a.isShadow && b.isShadow && a.shadow == b.chain && b.shadow == a.chain && a.nelem == b.nelem && a.boff == b.boff &&
  a.sfirst == b.sfirst && a.scount == b.scount && a.pos == b.pos && a.stage == b.stage && a.shoff == b.shoff && a.tree == b.tree &&
  a.pen == b.pen && b.ports.all fun p => !a.ports.contains p

/-- An entry's shadow rules hold within a load. -/
def shadowOk (l : List ChainEntry) (e : ChainEntry) : Bool :=
  if e.isShadow then l.any fun a => shadowPair a e
  else e.shadow == 0 || l.any fun b => shadowPair e b

/-- Distinct input ports of a port's table. (Log 41 PRESUMED.) -/
def tableInputs (l : List ChainEntry) (port : Nat) : List Nat :=
  (List.range 176).filter fun i => l.any fun e => e.out == port && e.inputs.contains i

/-- The index of the first entry of a load that fails. -/
def chainBad (l : List ChainEntry) (resv : Nat → Nat) : Option Nat :=
  (List.range l.length).find? fun i =>
    let e := l.getD i default
    !chainFieldsOk e (resv i) || (l.take i).any (fun x => x.chain == e.chain) || !shadowOk l e ||
    decide (1024 < countIf (fun (x : ChainEntry) => x.out == e.out) l ∨ 29 < (tableInputs l e.out).length)

def chainList (l : List Byte) (n : Nat) : List ChainEntry := (List.range n).map (chainEntry l)

def chainCheck (w : Wafer) (p : Packet) : Nat × Nat :=
  let n := fieldAt p.params 8 4
  if w.running then (0x0401, 0)
  else if !quayOk (qaOf p) (32 * n) then (0x0106, 0)
  else
    let l := w.quayRead (qaOf p) (32 * n)
    match chainBad (chainList l n) fun i => fieldAt l (32 * i + 29) 1 with
    | some i => (0x0105, i)
    | none => (0, 0)

/-- Show the chain tables (Table 11-8). -/
def Wafer.showChains (w : Wafer) : Wafer :=
  (List.range 176).foldl (fun w i => w.wrs (jncBase i)
    [(Reg.jncStatChains, countIf (fun (e : ChainEntry) => e.out == i) w.reduce.chains),
     (Reg.jncStatInputs, (tableInputs w.reduce.chains i).length)]) w

/-- CHAIN_LOAD (R264), at step 6. The load replaces the chain tables. (Log 73 PRESUMED.) -/
def chainLoadSpec : CmdSpec :=
  { opcode := 0x0306, step := 6, len := lenIs 12, check := chainCheck
    act := fun w fl =>
      let n := fieldAt fl.p.params 8 4
      let l := chainList (w.quayRead (qaOf fl.p) (32 * n)) n
      match (List.range n).find? fun i => (l.getD i default).ports.any fun q => w.portDark q with
      | some i => { w := w, status := 0x0105, detail := i }
      | none => { w := ({ w with reduce := { w.reduce with chains := l } } : Wafer).showChains } }

def execChainLoad (p : Packet) (s : State) : Host.Outcome State Fault Refusal := commandStep chainLoadSpec p s

/-! ### Members and collectives -/

/-- MEMBER_LOAD, at step 6. (Log 73 PRESUMED.) -/
def memberLoadSpec : CmdSpec :=
  { opcode := 0x0307, step := 6, len := lenIs 12, sum := some fun w _ => digest12 (w.shp.members.flatMap fun m => natLE 5 m)
    check := fun w p =>
      let n := fieldAt p.params 8 4
      if w.armedOrRunning then (0x0401, 0)
      else if n < 1 ∨ 65536 < n then (0x0103, 72)
      else if quayOk (qaOf p) (5 * n) then (0, 0) else (0x0106, 0)
    act := fun w fl =>
      let n := fieldAt fl.p.params 8 4
      let l := w.quayRead (qaOf fl.p) (5 * n)
      { w := { w with shp := { w.shp with members := (List.range n).map fun i => fieldAt l (5 * i) 5 } } } }

def execMemberLoad (p : Packet) (s : State) : Host.Outcome State Fault Refusal := commandStep memberLoadSpec p s

/-- Collective entry i of a COLL_LOAD (Table 11-4). -/
def collEntry (l : List Byte) (i : Nat) : CollEntry :=
  let e := bytesAt l (4 + 64 * i) 64
  { id := fieldAt e 0 1, mode := fieldAt e 1 1, sstk := fieldAt e 2 1, dstk := fieldAt e 3 1, src := fieldAt e 8 8, dst := fieldAt e 16 8
    cap := fieldAt e 24 4, ceil := fieldAt e 28 4, thresh := fieldAt e 32 4, first := fieldAt e 36 2, count := fieldAt e 38 2
    stride := fieldAt e 40 2, stage := fieldAt e 42 3, nx := fieldAt e 45 1, ny := fieldAt e 46 1, sem := fieldAt e 47 1
    delay := fieldAt e 48 2 }

/-- The fields of an entry and the conditions of R275. -/
def collOk (w : Wafer) (e : CollEntry) (r0 r1 : Nat) : Bool :=
  let top := fun (s : Nat) => w.basinBase s + w.basinSize s
  decide (e.mode ≤ 2 ∧ e.sstk < 32 ∧ e.dstk < 32 ∧ e.src < 2 ^ 37 ∧ e.dst < 2 ^ 37 ∧ e.src % 256 = 0 ∧ e.dst % 256 = 0 ∧ 1 ≤ e.cap ∧
    e.cap ≤ 4194304 ∧ e.ceil ≤ e.cap ∧ (e.mode = 2 → 1 ≤ e.ceil) ∧ e.count ≠ 1 ∧ 1 ≤ e.stride ∧ (e.sem < 32 ∨ e.sem = 0xFF) ∧
    1 ≤ e.delay ∧ e.delay ≤ 2000 ∧ r0 = 0 ∧ r1 = 0 ∧ w.basinBase e.sstk ≤ e.src ∧ e.src < top e.sstk ∧ w.basinBase e.dstk ≤ e.dst ∧
    e.dst < top e.dstk ∧ e.dst + 64 + 4 * e.cap ≤ top e.dstk ∧ e.first + (e.members - 1) * e.stride < w.shp.members.length) &&
  match w.ownRank with
  | none => false
  | some r => decide (e.first ≤ r ∧ (r - e.first) % e.stride = 0 ∧ (r - e.first) / e.stride < e.members)

def collCheck (w : Wafer) (p : Packet) : Nat × Nat :=
  let n := fieldAt p.params 0 4
  if w.running then (0x0401, 0)
  else if p.params.length ≠ 4 + 64 * n then (0x0103, 64)
  else match (List.range n).find? fun i =>
      !collOk w (collEntry p.params i) (fieldAt p.params (4 + 64 * i + 4) 4) (fieldAt p.params (4 + 64 * i + 50) 14) with
    | some i => (0x0105, i)
    | none => (0, 0)

/-- COLL_LOAD (R275), at step 6: each entry is written at its ID. -/
def collLoadSpec : CmdSpec :=
  { opcode := 0x0801, step := 6, len := fun n => decide (4 ≤ n) && (n - 4) % 64 == 0, check := collCheck
    act := fun w fl =>
      let l := (List.range (fieldAt fl.p.params 0 4)).map (collEntry fl.p.params)
      let t := l.foldl (fun t e => (t.filter fun (x : CollEntry) => x.id != e.id) ++ [e]) w.reduce.colls
      { w := ({ w with reduce := { w.reduce with colls := t } } : Wafer).wr collBase Reg.collStatEntries t.length } }

def execCollLoad (p : Packet) (s : State) : Host.Outcome State Fault Refusal := commandStep collLoadSpec p s

end Sys2Proof.Machine
end

