-- ==== Sys2Proof/Machine/Ingest.lean ====
section
/-!
DEFINITION. Sys2Proof/Machine/Ingest.lean: parameter ingest (chapter 10): manifests, barges, segments, content keys, trains and
fetches. A message that must wait (a full store, a page still being read) is held at its input, which stalls (R249).
-/

namespace Sys2Proof.Machine

/-! ## Manifests (R241) -/

/-- A refused manifest: recorded, and posted at the next boundary. (Log 36 DESIGN CHOICE.) -/
def Wafer.refuseManifest (w : Wafer) (si status : Nat) : Wafer :=
  (w.ingestRecord 1 si status 0).post ⟨0x0801, detailNone⟩

/-- The source a manifest message concerns: the base on a train, the fetching source in a reply. -/
def Ingest.manifestSource (g : Ingest) (m : Vl0Msg) : Option Nat :=
  if m.reply then (g.fetchOf m 2 0).map (·.source)
  else if (g.trainOf m.port m.stream).isSome then some g.baseIdx else none

/-! ## Barges (R243, R251) -/

/-- The source whose held manifest a barge or segment names. (Log 9 DESIGN CHOICE.) -/
def Ingest.named (g : Ingest) (m : Vl0Msg) (id gen : Nat) : Option Nat :=
  let hits := fun (s : SrcSt) => (s.next.map fun x => x.id == id && x.gen == gen).getD false
  if m.reply then indexOf? hits g.sources
  else if hits (g.srcAt g.baseIdx) then some g.baseIdx else none

/-- An adapter's fetch is over when the last message it names has come. -/
def Wafer.fetchSeen (w : Wafer) (m : Vl0Msg) (what item : Nat) : Wafer :=
  if m.reply then
    w.dropFetches fun f => f.sent && f.attempt == 0 && f.port == m.port && f.stream == m.stream && f.what == what && f.first + f.count == item + 1
  else w

/-- A chunk that comes before its segment is verified waits with its hash (R244); the refetch it answers goes on waiting for the
check. -/
def Wafer.holdChunk (w : Wafer) (si gen chunk hash : Nat) (tagOk : Bool) (data : List Byte) : Wafer :=
  if w.ingest.chunks.any fun c => c.source == si && c.chunk == chunk then w
  else { w with ingest := { w.ingest with
    chunks := w.ingest.chunks ++ [⟨si, gen, chunk, hash, tagOk, data⟩]
    fetches := w.ingest.fetches.map fun f =>
      if f.attempt = 1 ∧ f.source = si ∧ f.what = 0 ∧ f.first = chunk then ({ f with attempt := 2 } : FetchOut) else f } }

/-- A barge of a chunk that has not passed: its hash and its tag (R243). -/
def Wafer.takeBarge (w : Wafer) (m : Vl0Msg) (si : Nat) (voided again : Bool) : Wafer :=
  let s := w.ingest.srcAt si
  let gen := fieldAt m.body 12 4
  let chunk := fieldAt m.body 8 4
  if voided || m.body.length != 65584 then w.itemFail si 0 chunk again
  else
    let hash := sha3 (m.body.drop 32)
    let plain := match s.keyNext with
      | none => none
      | some k => gcmOpen 16 (natLE 32 k) (bargeNonce chunk gen) (m.body.take 17) (bytesAt m.body 32 65536) (bytesAt m.body 65568 16)
    match w.ingest.segmentFor si gen chunk with
    | some h => w.chunkCheck si chunk (h.leaves.getD (chunk % 1024) 0) hash plain.isSome (plain.getD []) again
    | none => w.holdChunk si gen chunk hash plain.isSome (plain.getD [])

/-- On a train, READY must have been sent (R248). -/
def Ingest.beforeReady (g : Ingest) (m : Vl0Msg) : Bool :=
  !m.reply && ((g.trainOf m.port m.stream).map fun t => !t.readySent).getD false

/-- The message comes on a train, or is a reply. -/
def Ingest.expected (g : Ingest) (m : Vl0Msg) : Bool := m.reply || (g.trainOf m.port m.stream).isSome

/-- What becomes of a barge or a segment that an input offers. -/
inductive InputCase where
  /-- It is not for the module, or changes nothing but a counter and a fetch that it ends. -/
  | pass
  /-- It is a copy of a passed chunk. -/
  | dup (chunk : Nat)
  /-- A segment that the module holds or needs no more. -/
  | known (seg : Nat)
  /-- It comes on a train before READY (R248). -/
  | early
  /-- The store that it needs has no room, or its page is still being read: the input stalls (R189, R244, R250, R257). -/
  | stall
  | take (si : Nat) (again : Bool)
  deriving DecidableEq, Repr

def Wafer.bargeCase (w : Wafer) (m : Vl0Msg) : InputCase :=
  if !ingestOpen w m.port || !w.ingest.expected m then .pass
  else if w.ingest.beforeReady m then .early
  else match w.ingest.named m (fieldAt m.body 0 8) (fieldAt m.body 12 4) with
    | none => .pass
    | some si =>
      let st := w.ingest.srcAt si
      let chunk := fieldAt m.body 8 4
      let f := w.ingest.fetchOf m 0 chunk
      if fieldAt m.body 16 1 ≠ st.src.kind ∨ ((st.next.map fun x => st.src.holds x chunk).getD false) = false then .pass
      else if st.passedNext.contains chunk then .dup chunk
      else if m.reply && f.isNone then .pass
      else if w.pageBusy w.ingest.nextBuf (st.src.pageOf chunk) ||
          ((w.ingest.segmentFor si (fieldAt m.body 12 4) chunk).isNone && decide (65536 ≤ w.ingest.chunks.length)) then .stall
      else .take si (m.reply && (f.map fun f => decide (0 < f.attempt)).getD false)

def Wafer.segmentCase (w : Wafer) (m : Vl0Msg) : InputCase :=
  if !ingestOpen w m.port || !w.ingest.expected m then .pass
  else if w.ingest.beforeReady m then .early
  else match w.ingest.named m (fieldAt m.body 0 8) (fieldAt m.body 8 4) with
    | none => .pass
    | some si =>
      let st := w.ingest.srcAt si
      let seg := fieldAt m.body 12 4
      let x := (st.next.getD default : Manifest)
      let mine := st.src.inSegment x seg
      let f := w.ingest.fetchOf m 1 seg
      if mine.isEmpty || mine.all (fun c => st.passedNext.contains c) || (w.ingest.segmentFor si x.gen (1024 * seg)).isSome then .known seg
      else if m.reply && f.isNone then .pass
      else if 128 ≤ w.ingest.segments.length then .stall
      else .take si (m.reply && (f.map fun f => decide (0 < f.attempt)).getD false)

/-- A segment is checked (R244, R253). -/
def Wafer.takeSegment (w : Wafer) (m : Vl0Msg) (si : Nat) (voided again : Bool) : Wafer :=
  let seg := fieldAt m.body 12 4
  if voided then w.itemFail si 1 seg again
  else match segmentOk (((w.ingest.srcAt si).next.getD default : Manifest)) m.body with
    | some h => w.segmentPass si h
    | none => (w.count wstBase Reg.wstBadhash).itemFail si 1 seg again

def Wafer.inputCase (w : Wafer) (x : HeldMsg) : InputCase := if x.seg then w.segmentCase x.m else w.bargeCase x.m

/-- A barge or a segment that does not stall is done with (R243, R248, R251, R253). (Log 37 DESIGN CHOICE.) -/
def Wafer.inputTake (w : Wafer) (x : HeldMsg) : Wafer :=
  match w.inputCase x with
  | .dup chunk => (w.count wstBase Reg.wstDup).fetchSeen x.m 0 chunk
  | .known seg => w.fetchSeen x.m 1 seg
  | .early => w.count wstBase Reg.wstDrophdr
  | .take si again =>
    if x.seg then ((w.takeSegment x.m si x.voided again).fetchSeen x.m 1 (fieldAt x.m.body 12 4)).syncIngest
    else ((w.takeBarge x.m si x.voided again).fetchSeen x.m 0 (fieldAt x.m.body 8 4)).syncIngest
  | _ => w

/-- MSG of a held message. -/
def HeldMsg.msg (x : HeldMsg) : Nat := if x.seg then 1 else 0

def Wafer.inputsOf (w : Wafer) (port : Nat) : List HeldMsg := w.ingest.inputs.filter fun x => x.m.port == port

/-- A message that an input holds goes into its write buffer, which has room for 64 barges, and frees its frames; a message behind one that
stands outside the buffer stays outside (R249). -/
def Wafer.inputStore (w : Wafer) (k : Nat) : Wafer :=
  match w.ingest.inputs[k]? with
  | none => w
  | some x =>
    let before := (w.ingest.inputs.take k).filter fun y => y.m.port == x.m.port
    if x.seg || x.buffered || decide (64 ≤ before.length) || before.any (fun y => !y.buffered) then w
    else ({ w with ingest := { w.ingest with inputs := listSet w.ingest.inputs k { x with buffered := true } } } : Wafer).rxTakeMsg x.m x.msg

/-- The first message of a port's input that can be taken now: its number in the list. -/
def Wafer.inputReady (w : Wafer) : Option Nat :=
  (List.range w.ingest.inputs.length).find? fun k =>
    match w.ingest.inputs[k]? with
    | none => false
    | some x => !((w.ingest.inputs.take k).any fun y => y.m.port == x.m.port) && w.inputCase x != .stall

/-- Inputs go on: each takes its messages in order until one stalls. -/
def Wafer.inputsTake (w : Wafer) : Nat → Wafer
  | 0 => w
  | n + 1 => match w.inputReady with
    | none => w
    | some k =>
      match w.ingest.inputs[k]? with
      | none => w
      | some x =>
        let w := { w with ingest := { w.ingest with inputs := dropAt w.ingest.inputs k } }
        ((if x.buffered then w else w.rxTakeMsg x.m x.msg).inputTake x).inputsTake n

def Wafer.inputsGo (w : Wafer) : Wafer :=
  if w.ingest.inputs.isEmpty then w
  else
    let w := w.inputsTake w.ingest.inputs.length
    (List.range w.ingest.inputs.length).foldl (fun w k => w.inputStore k) w

/-- A barge or a segment comes to an input (R249, R250, R257): behind those that the input holds. (Log 37 DESIGN CHOICE.) -/
def Wafer.inputMsg (w : Wafer) (seg : Bool) (m : Vl0Msg) : Wafer :=
  let x : HeldMsg := ⟨seg, m, w.voids m (if seg then 1 else 0), false⟩
  if w.ingest.inputs.any fun y => y.seg == seg && y.m == m then w.inputsGo
  else if (w.inputsOf m.port).isEmpty && w.inputCase x != .stall then ((w.rxTakeMsg m x.msg).inputTake x).inputsGo
  else ({ w with ingest := { w.ingest with inputs := w.ingest.inputs ++ [x] } } : Wafer).inputsGo

/-- BARGE (R243, R248, R251, R253). (Log 37 DESIGN CHOICE.) -/
def execBarge (m : Vl0Msg) (s : State) : Host.Outcome State Fault Refusal := portStep m.port s fun w => w.inputMsg false m

/-! ## Segments (R244) -/

/-- SEGMENT (R244, R248, R253). (Log 37 DESIGN CHOICE.) -/
def execSegment (m : Vl0Msg) (s : State) : Host.Outcome State Fault Refusal := portStep m.port s fun w => w.inputMsg true m

/-- MANIFEST (R241). (Log 36 DESIGN CHOICE.) -/
def execManifest (m : Vl0Msg) (s : State) : Host.Outcome State Fault Refusal :=
  portStep m.port s fun w =>
    let voided := w.voids m 2
    let w := w.rxTakeMsg m 2
    if !ingestOpen w m.port then w
    else match w.ingest.manifestSource m with
      | none => w
      | some si =>
        let w := if m.reply then w.dropFetches fun f => f.sent && f.port == m.port && f.stream == m.stream else w
        let st := if voided then 0x0103 else manifestStatus (w.ingest.srcAt si) m.body
        if st = 0 then ((w.holdManifest si (manifestHeader m.body)).syncIngest).inputsGo else w.refuseManifest si st

/-! ## Content keys (R245) -/

/-- Where a KEYWRAP for a manifest not yet held is kept: the first source of the KEYPORT that expects the generation and holds no
manifest for it, else the first source of the KEYPORT. -/
def Ingest.keepAt (g : Ingest) (port gen : Nat) : Option Nat :=
  match indexOf? (fun (s : SrcSt) => s.src.keyPort == port && s.next.isNone && s.expects == gen) g.sources with
  | some i => some i
  | none => indexOf? (fun (s : SrcSt) => s.src.keyPort == port) g.sources

/-- KEYWRAP (R245). (Log 40 DESIGN CHOICE.) -/
def execKeywrap (m : Vl0Msg) (s : State) : Host.Outcome State Fault Refusal :=
  portStep m.port s fun w =>
    let voided := w.voids m 3
    let w := w.rxTakeMsg m 3
    if !(w.ingest.admitted && laneOpen w m.port 0) || !m.prot || voided then w
    else
      let w := w.dropFetches fun f => f.sent && f.what == 3 && f.port == m.port && f.stream == m.stream
      let g := w.ingest
      let k : KeyWrap := ⟨fieldAt m.body 0 8, fieldAt m.body 8 4, ((w.port m.port).secret).getD 0, (w.port m.port).exch.recvDir, m.body⟩
      let is := fun (x : Option Manifest) => (x.map fun x => x.id == k.manifest && x.gen == k.gen).getD false
      match indexOf? (fun (s : SrcSt) => s.src.keyPort == m.port && (is s.next || is s.cur)) g.sources with
      | some si => ((w.applyKey si k).syncIngest).inputsGo
      | none => match g.keepAt m.port k.gen with
        | some si => if g.stopped then w else w.updSrc si fun s => { s with kept := some (k, w.tick) }
        | none => w

/-- KEYWRAP_HOLD_EXPIRY (R245): after 64 ticks. (Log 40 DESIGN CHOICE.) -/
def execKeywrapHoldExpiry (src : Nat) (s : State) : Host.Outcome State Fault Refusal :=
  s.updIf (decide (src < 32)) fun w =>
    match (w.ingest.srcAt src).kept with
    | none => w
    | some k =>
      if 64 ≤ tickDiff w.tick k.2 then (w.updSrc src fun s => { s with kept := none }).ingestRecord 2 src 0 0 else w

/-- KEY_FETCH (R245): 16 ticks after the manifest without a key, and every 16 ticks from then on. -/
def execKeyFetch (src : Nat) (s : State) : Host.Outcome State Fault Refusal :=
  s.updIf (decide (src < 32)) fun w =>
    let st := w.ingest.srcAt src
    match st.next, st.keyFetchAt with
    | some _, some t =>
      if st.keyNext.isNone ∧ tickFuture t w.tick = false then
        ((w.dropFetches fun f => f.source == src && f.what == 3).updSrc src fun s =>
          { s with keyFetchAt := some ((t + 16) % 2 ^ 48) }).fetchFor st.src.keyPort src 3 0 1 0
      else w
    | _, _ => w

/-! ## Trains (R248, R249) -/

/-- READY (R248): from an output of the train. -/
def execReady (m : Vl0Msg) (s : State) : Host.Outcome State Fault Refusal :=
  portStep m.port s fun w =>
    let voided := w.voids m 4
    let w := w.rxTakeMsg m 4
    if !ingestOpen w m.port || voided then w
    else
      let r := (m.port, fieldAt m.body 0 8, fieldAt m.body 8 4)
      { w with ingest := { w.ingest with trains := w.ingest.trains.map fun t =>
        if t.id = m.stream ∧ t.outs.contains m.port = true then
          ({ t with readyFrom := t.readyFrom.filter (fun x => x.1 != m.port) ++ [r] } : Train) else t } }

/-- The conditions of R248 for one train. The buffer that the expected generation lands in is free: a source expects a generation
only after the flip of the one before. (Log 37 DESIGN CHOICE.) -/
def Wafer.readyHolds (w : Wafer) (t : Train) : Option Manifest :=
  let b := w.ingest.srcAt w.ingest.baseIdx
  match b.next with
  | none => none
  | some m =>
    if b.keyNext.isSome ∧ !t.readySent ∧ t.outs.all (fun o => t.readyFrom.contains (o, m.id, m.gen)) then some m else none

/-- READY_SEND (R248). -/
def execReadySend (train : Nat) (s : State) : Host.Outcome State Fault Refusal :=
  s.updIf (decide (train < 16)) fun w =>
    match w.ingest.trains[train]? with
    | none => w
    | some t =>
      if w.ingest.stopped then w
      else match w.readyHolds t with
        | none => w
        | some m =>
          let w := { w with ingest := { w.ingest with trains := listUpd w.ingest.trains train fun t => { t with readySent := true } } }
          (w.sendVl0 t.inPort 4 t.id 4 false (natLE 8 m.id ++ natLE 4 m.gen)).syncIngest

/-- The first frame of a train message belongs to the expected generation: 0 it does, 1 it is dropped before READY, 2 it names
another manifest or generation. (Log 38 DESIGN CHOICE.) -/
def Wafer.relayCase (w : Wafer) (t : Train) (payload : List Byte) : Nat :=
  let b := w.ingest.srcAt w.ingest.baseIdx
  let body := payload.drop 8
  let is := fun id gen => (b.next.map fun m => m.id == id && m.gen == gen).getD false
  match fieldAt payload 2 1 with
  | 2 => if fieldAt body 16 4 = b.expects ∧ (b.next.map fun m => m.id == fieldAt body 8 8).getD true = true then 0 else 2
  | 1 => if !t.readySent then 1 else if is (fieldAt body 0 8) (fieldAt body 8 4) then 0 else 2
  | _ => if !t.readySent then 1 else if is (fieldAt body 0 8) (fieldAt body 12 4) then 0 else 2

/-- The received VL0 frame with a payload, by input port and SEQ. -/
def Wafer.rxName (w : Wafer) (port : Nat) (payload : List Byte) : Option (Nat × Nat) :=
  ((w.port port).rx.find? fun f => !f.taken && f.vl == 0 && f.payload == payload).map fun f => (port, f.seq)

/-- TRAIN_RELAY (R249): the frame goes to every output under this module's tag, with its payload unchanged. While a copy of it waits for an
output's credit, its own credit is not returned. (Log 38 DESIGN CHOICE.) -/
def execTrainRelay (port : Nat) (fr : Frame) (s : State) : Host.Outcome State Fault Refusal :=
  portStep port s fun w =>
    let stream := fieldAt fr.payload 0 2
    let flags := fieldAt fr.payload 3 1
    if !ingestOpen w port || !tagOk w port fr.tag || decide (fr.vl ≠ 0 ∨ fr.ftype ≠ 0 ∨ 2 < fieldAt fr.payload 2 1) || bit flags 2 then w
    else match w.ingest.trainOf port stream with
      | none => w
      | some t =>
        let c := if bit flags 0 then w.relayCase t fr.payload
          else if w.ingest.relay.contains (port, stream) then 0 else 1
        let rest := w.ingest.relay.filter fun x => x != (port, stream)
        let go := c == 0 && !bit flags 1
        let w := { w with ingest := { w.ingest with relay := if go then rest ++ [(port, stream)] else rest } }
        match c with
        | 0 => (t.outs.foldl (fun w o => w.queueHeld o 3 0 0 fr.payload (w.rxName port fr.payload)) w).count wstBase Reg.wstRelayed
        | 1 => w
        | _ => w.count wstBase Reg.wstDrophdr

/-! ## Fetches (R252 to R254) -/

/-- FETCH (R254): answered on a train's output port only; a content key never (R245). -/
def execFetch (m : Vl0Msg) (s : State) : Host.Outcome State Fault Refusal :=
  portStep m.port s fun w =>
    let voided := w.voids m 5
    let w := w.rxTakeMsg m 5
    if !(w.ingest.admitted && laneOpen w m.port 0) || voided || !(w.ingest.trains.any fun t => t.outs.contains m.port) then w
    else
      let r : FetchIn := ⟨m.port, m.stream, fieldAt m.body 0 8, fieldAt m.body 8 4, fieldAt m.body 12 4, fieldAt m.body 16 2, fieldAt m.body 18 1⟩
      if r.what = 3 then w.sendNakTo r 1
      else match w.serveCase r with
        | .serve si nx => w.serveFetch r si nx
        | .refuse k => w.sendNakTo r k
        | .wait =>
          if 64 ≤ w.ingest.waiting.length then w.sendNakTo r 4
          else { w with ingest := { w.ingest with waiting := w.ingest.waiting ++ [r] } }

/-- FETCH_SERVE (R254): a request that waits is served once its chunks have passed, or answered FETCH_NAK when they will not.
(Log 39 DESIGN CHOICE.) -/
def execFetchServe (idx : Nat) (s : State) : Host.Outcome State Fault Refusal :=
  s.upd fun w =>
    match w.ingest.waiting[idx]? with
    | none => w
    | some r =>
      let gone := { w with ingest := { w.ingest with waiting := dropAt w.ingest.waiting idx } }
      match w.serveCase r with
      | .serve si nx => gone.serveFetch r si nx
      | .refuse k => gone.sendNakTo r k
      | .wait => w

/-- FETCH_NAK (R253): it fails the attempt; an adapter's ordinary fetch ends and is sent again. (Log 39 DESIGN CHOICE.) -/
def execFetchNak (m : Vl0Msg) (s : State) : Host.Outcome State Fault Refusal :=
  portStep m.port s fun w =>
    let voided := w.voids m 6
    let w := w.rxTakeMsg m 6
    if !ingestOpen w m.port || voided then w
    else match w.ingest.fetches.find? fun f => f.sent && f.port == m.port && f.stream == m.stream with
      | none => w
      | some f =>
        if f.attempt = 0 then w.dropFetches fun x => x == f
        else if f.attempt = 1 then w.itemFail f.source f.what f.first true
        else w

/-- The fetch that an adapter sends next (R252): its manifest, then segments of its held chunks in the room there is, then held
chunks whose segment is verified and whose key is held. (Log 39 DESIGN CHOICE.) -/
def Ingest.nextFetch (g : Ingest) (si : Nat) : Option (Nat × Nat × Nat) :=
  let s := g.srcAt si
  let out := fun (what i : Nat) => g.fetches.any fun f => f.source == si && f.what == what && decide (f.first ≤ i ∧ i < f.first + f.count)
  match s.next with
  | none => if out 2 0 then none else some (2, 0, 1)
  | some m =>
    let lo := (s.src.held m).1
    let n := (s.src.held m).2
    let segs := rangeFrom (lo / 1024) ((lo + n + 1023) / 1024 - lo / 1024)
    let seg := fun (i : Nat) => !out 1 i && (g.segmentFor si m.gen (1024 * i)).isNone && !(s.src.inSegment m i).all fun c => s.passedNext.contains c
    let chunk := fun (c : Nat) => !out 0 c && !s.passedNext.contains c && s.keyNext.isSome && (g.segmentFor si m.gen c).isSome &&
      !(g.chunks.any fun h => h.source == si && h.chunk == c)
    let room := 128 - g.segments.length - (g.fetches.filter fun f => f.what == 1).foldl (fun n f => n + f.count) 0
    let run := fun (p : Nat → Bool) (l : List Nat) (cap : Nat) =>
      let l' := (l.dropWhile fun i => !p i)
      (l'.headD 0, min cap (l'.takeWhile p).length)
    let a := run seg segs (min 256 room)
    if 0 < a.2 then some (1, a.1, a.2)
    else
      let b := run chunk (rangeFrom lo n) 256
      if 0 < b.2 then some (0, b.1, b.2) else none

/-- Send what an adapter needs while fewer than 64 fetches are outstanding on its port. (Log 39 DESIGN CHOICE.) -/
def Wafer.adapterFetches (w : Wafer) (si port : Nat) : Nat → Wafer
  | 0 => w
  | n + 1 =>
    if 64 ≤ w.ingest.outstanding port then w
    else match w.ingest.nextFetch si with
      | none => w
      | some (what, first, count) => (w.fetchFor port si what first count 0).adapterFetches si port n

/-- ADAPTER_FETCH_SEND (R252). -/
def execAdapterFetchSend (src : Nat) (s : State) : Host.Outcome State Fault Refusal :=
  s.updIf (decide (src < 32)) fun w =>
    let st := w.ingest.srcAt src
    if w.ingest.admitted ∧ w.ingest.stopped = false ∧ src < w.ingest.sources.length ∧ st.src.kind = 1 then
      w.adapterFetches src st.src.keyPort 64
    else w

/-- FETCH_TIMEOUT (R253): no reply to a refetch in time. (Log 39 DESIGN CHOICE.) -/
def execFetchTimeout (idx : Nat) (s : State) : Host.Outcome State Fault Refusal :=
  s.upd fun w =>
    match w.ingest.fetches[idx]? with
    | none => w
    | some f =>
      if f.sent = true ∧ f.attempt = 1 ∧ tickFuture f.due w.tick = false ∧ f.due ≠ w.tick then w.itemFail f.source f.what f.first true else w

end Sys2Proof.Machine
end

