-- ==== Sys2Proof/Machine/CmdWeights.lean ====
section
/-!
DEFINITION. Sys2Proof/Machine/CmdWeights.lean: the commands of family 0x02xx: pen quotas (R195), admission (R235 to R237), the train
table (R247) and the flip plan (R255).
-/

namespace Sys2Proof.Machine

/-! ## Quotas (R195) -/

/-- Pages of a pen over some sources. -/
def penPages (l : List Source) (pen : Nat) : Nat := (l.filter fun s => s.pen == pen).foldl (fun n s => n + s.pages) 0

/-- Quotas against an image of `pages` pages and a basin of `basin` units: a pen over its T2 quota is 0x0201, quotas beyond the
space are 0x0202. -/
def quotaStatus (t2 basinQ : Nat → Nat) (l : List Source) (pages basin : Nat) : Nat :=
  let sum := fun (f : Nat → Nat) => (List.range 64).foldl (fun n i => n + f i) 0
  if (List.range 64).any fun i => decide (t2 i < penPages l i) then 0x0201
  else if 32 * ceilDiv pages 32 < sum t2 ∨ 32 * ceilDiv basin 32 < sum basinQ then 0x0202
  else 0

/-- PEN_QUOTA (R195): a pen's number and a TIR_PENQ image. -/
def penQuotaSpec : CmdSpec :=
  { opcode := 0x0201, len := lenIs 9, sum := some fun w p => regSum w [penBase (fieldAt p.params 0 1) + Reg.tirPenqT1.off]
    check := fun w p =>
      let pen := fieldAt p.params 0 1
      let v := fieldAt p.params 1 8
      if w.armedOrRunning then (0x0401, 0)
      else if 64 ≤ pen then (0x0103, 64)
      else if 16 < bits v 0 5 ∨ bits v 5 3 ≠ 0 then (0x0103, 65)
      else if bits v 28 4 ≠ 0 then (0x0103, 68)
      else if bits v 53 11 ≠ 0 then (0x0103, 71)
      else if w.ingest.admitted then
        (quotaStatus (fun i => if i = pen then bits v 8 20 else w.rd (penBase i) Reg.tirPenqT2)
          (fun i => if i = pen then bits v 32 21 else w.rd (penBase i) Reg.tirPenqBasin) (w.ingest.sources.map (·.src))
          w.pageCount w.ingest.basinUnits, 0)
      else (0, 0)
    act := fun w fl =>
      let v := fieldAt fl.p.params 1 8
      { w := w.wrs (penBase (fieldAt fl.p.params 0 1)) [(Reg.tirPenqT1, v), (Reg.tirPenqT2, bits v 8 20), (Reg.tirPenqBasin, bits v 32 21)] } }

def execPenQuota (p : Packet) (s : State) : Host.Outcome State Fault Refusal := commandStep penQuotaSpec p s

/-! ## Admission (R235 to R237) -/

/-- Source entry i of an ADMIT (Table 10-1). -/
def admitSource (l : List Byte) (i : Nat) : Source :=
  let e := l.drop (8 + 64 * i)
  ⟨fieldAt e 0 1, fieldAt e 1 1, fieldAt e 2 1, fieldAt e 4 4, fieldAt e 8 4, fieldAt e 12 4, fieldAt e 16 4, fieldAt e 20 32⟩

def admitSources (l : List Byte) : List Source := (List.range (fieldAt l 4 4)).map (admitSource l)

/-- P, the pages of the image. -/
def imagePages (l : List Source) : Nat := l.foldl (fun n s => max n (s.firstPage + s.pages)) 0

/-- Two sources own a page in common. -/
def pagesOverlap : List Source → Bool
  | [] => false
  | s :: l => l.any (fun t => decide (s.firstPage < t.firstPage + t.pages ∧ t.firstPage < s.firstPage + s.pages)) || pagesOverlap l

/-- A parameter of one source entry that is out of range: its offset in the entry. -/
def sourceBad (s : Source) : Option Nat :=
  if 1 < s.kind then some 0
  else if 64 ≤ s.pen then some 1
  else if 176 ≤ s.keyPort then some 2
  else if s.kind = 0 ∧ s.firstPage ≠ 0 then some 4
  else if s.pages = 0 then some 8
  else if s.srcFirst % 32 ≠ 0 ∨ (s.kind = 0 ∧ s.srcFirst ≠ 0) then some 12
  else none

/-- Capacity of a stack once the channels marked for retirement have left its list (R178, R204). -/
def Wafer.channelsLeft (w : Wafer) (stk : Nat) : List Nat := (w.channels stk).filter fun k => !(w.stack stk).marked.contains k

/-- ADMIT's checks in the order of R236. -/
def admitCheck (w : Wafer) (p : Packet) : Nat × Nat :=
  let n := fieldAt p.params 4 4
  let l := admitSources p.params
  let pages := imagePages l
  let basin := fieldAt p.params 0 4
  if w.armedOrRunning then (0x0401, 0)
  else if p.params.length ≠ 8 + 64 * n then (0x0103, 68)
  else match (List.range n).find? fun i => (sourceBad (admitSource p.params i)).isSome || fieldAt p.params (8 + 64 * i + 3) 1 != 0 ||
      fieldAt p.params (8 + 64 * i + 52) 12 != 0 with
    | some i => (0x0103, 72 + 64 * i + (sourceBad (admitSource p.params i)).getD (if fieldAt p.params (8 + 64 * i + 3) 1 ≠ 0 then 3 else 52))
    | none =>
      if countIf (fun (s : Source) => s.kind == 0) l ≠ 1 then (0x0103, 72)
      else if pagesOverlap l ∨ 2 ^ 19 < pages then (0x0103, 76)
      else
        let q := quotaStatus (fun i => w.rd (penBase i) Reg.tirPenqT2) (fun i => w.rd (penBase i) Reg.tirPenqBasin) l pages basin
        if q ≠ 0 then (q, 0)
        else if (List.range 32).any fun k => decide (1536 * (w.channelsLeft k).length < 2 * ceilDiv pages 32 + ceilDiv basin 32 + 2048) then
          (0x0202, 0)
        else (0, 0)

/-- Channels marked for retirement leave a stack's list: its capacity shrinks, the quay moves, and what it held is lost.
(Log 32 DEDUCED, 41 PRESUMED.) -/
def Wafer.retireChannels (w : Wafer) (stk : Nat) : Wafer :=
  let left := w.channelsLeft stk
  if left = w.channels stk then w
  else
    let mask := maskOf 32 fun k => left.contains k
    let w := w.wrs (stkBase stk) [(Reg.stkCapCap, 1536 * left.length), (Reg.stkCapNact, left.length), (Reg.stkCapActive, mask),
      (Reg.stkBasinQuay, 1536 * left.length - 2048)]
    let w := w.setStack stk { w.stack stk with marked := [] }
    let w := { w with stkMem := w.stkMem.zero (stkAddr stk 0) (stkAddr (stk + 1) 0) }
    w.commitMap { w.map with stackRecs := mapUpd (fun _ => {}) w.map.stackRecs stk fun r => { r with active := mask, marked := 0 } }

/-- Show the admitted sources (Table 10-15); the entries past them are empty. -/
def Wafer.showSources (w : Wafer) (l : List Source) : Wafer :=
  (List.range 32).foldl (fun w i => match l[i]? with
    | none => w.resetRegs (srcBase i) (srcBase (i + 1))
    | some s => w.wrs (srcBase i) [(Reg.wstSrc0Manifest, 0), (Reg.wstSrc1Keyport, s.keyPort), (Reg.wstSrc1Pen, s.pen),
        (Reg.wstSrc1Kind, s.kind), (Reg.wstSrc1State, 1), (Reg.wstSrc1Verified, 0)]) w

/-- An ADMIT that is accepted takes effect (R237), but for the zeroing of the basin. (Log 41 PRESUMED.) -/
def Wafer.admitApply (w : Wafer) (basin : Nat) (l : List Source) : Wafer :=
  let pages := imagePages l
  let size := ceilDiv pages 32
  let gen := ((l.find? fun s => s.kind == 0).map (·.gen0)).getD 0
  let w := (List.range 32).foldl (fun w k => (w.retireChannels k).wrs (stkBase k)
    [(Reg.stkResvBase0, 0), (Reg.stkResvBase1, size), (Reg.stkResvSize, size), (Reg.stkResvCur, 0), (Reg.stkBasinBase, 2 * size),
     (Reg.stkBasinSize, ceilDiv basin 32)]) w
  let pen := fun (p : Nat) => ((l.find? fun s => decide (s.firstPage ≤ p ∧ p < s.firstPage + s.pages)).map (·.pen)).getD 0
  let w := { w with
    ingest := { admitted := true, basinUnits := basin, sources := l.map fun s => ({ src := s, expects := s.gen0 } : SrcSt) }
    reservoir := { place0 := dealPages (List.range pages), pens := (List.range pages).map pen }
    tiers := [] }
  let w := (List.range 64).foldl (fun w i => w.wrs (penBase i) [(Reg.tirPenuT1, 0), (Reg.tirPenuT2, penPages l i), (Reg.tirPenuBasin, 0)]) w
  let w := (List.range 448).foldl (fun w cl => w.syncTier cl) w
  let w := w.wrs tirmBase [(Reg.tirGenGen, gen + 2 ^ 32 - 1), (Reg.tirPagesPages, pages), (Reg.tirPagesVerified, 0)]
  let w := (w.showSources l).resetRegs (trainBase 0) (trainBase 16)
  w.syncIngest

/-- ADMIT (R236, R237): its reply follows once the basin is zeroed. -/
def admissionSpec : CmdSpec :=
  { opcode := 0x0202, len := fun n => decide (72 ≤ n ∧ n ≤ 8 + 64 * 32) && (n - 8) % 64 == 0, check := admitCheck
    act := fun w fl => { w := w.admitApply (fieldAt fl.p.params 0 4) (admitSources fl.p.params), working := true } }

def execAdmission (p : Packet) (s : State) : Host.Outcome State Fault Refusal := commandStep admissionSpec p s

/-- Every basin line holds +0. (Log 41 PRESUMED.) -/
def Wafer.zeroBasin (w : Wafer) : Wafer :=
  (List.range 32).foldl (fun w k =>
    { w with stkMem := w.stkMem.zero (stkAddr k (w.basinBase k)) (stkAddr k (w.basinBase k + w.basinSize k)) }) w

/-- ADMIT_BASIN_ZEROED (R186): ADMIT gets its reply. -/
def execBasinZeroed (s : State) : Host.Outcome State Fault Refusal :=
  s.upd fun w =>
    if w.cmd.inflight.any fun x => x.opcode == 0x0202 && x.working then
      w.zeroBasin.finish (fun x => x.opcode == 0x0202 && x.working) 0 0
    else w

/-! ## Trains (R247) -/

/-- Entry i of a TRAIN_SET (Table 10-14). -/
def trainEntry (l : List Byte) (i : Nat) : Train :=
  let v := fieldAt l (4 + 16 * i) 8
  let u := fieldAt l (12 + 16 * i) 8
  { id := bits v 0 16, inPort := bits v 16 8
    out4 := [bits v 24 8, bits v 32 8, bits v 40 8, bits v 48 8]
    stride := bits u 0 11, rlo := bits u 11 10, rhi := bits u 21 10 }

def trainTable (l : List Byte) : List Train := (List.range (fieldAt l 0 4)).map (trainEntry l)

/-- A train entry outside Table 10-14. -/
def trainBad (t : Train) : Bool :=
  t.id == 0 || decide (176 ≤ t.inPort) || t.outs.any (fun o => decide (176 ≤ o)) || decide (t.stride < 1 ∨ 1024 < t.stride) ||
  decide (t.rhi < t.rlo ∨ t.stride ≤ t.rhi)

/-- Show the train table. -/
def Wafer.showTrains (w : Wafer) (l : List Train) : Wafer :=
  (List.range 16).foldl (fun w i => match l[i]? with
    | none => w.resetRegs (trainBase i) (trainBase (i + 1))
    | some t => w.wrs (trainBase i) [(Reg.wstTrain0Train, t.id), (Reg.wstTrain0Inport, t.inPort), (Reg.wstTrain0Out0, t.out4.getD 0 0xFF),
        (Reg.wstTrain0Out1, t.out4.getD 1 0xFF), (Reg.wstTrain0Out2, t.out4.getD 2 0xFF), (Reg.wstTrain0Out3, t.out4.getD 3 0xFF),
        (Reg.wstTrain0Valid, 1), (Reg.wstTrain1Stride, t.stride), (Reg.wstTrain1Rlo, t.rlo), (Reg.wstTrain1Rhi, t.rhi)]) w

/-- TRAIN_SET (R247): a count, then entries; checks between entries are ARM's. -/
def trainSetSpec : CmdSpec :=
  { opcode := 0x0203, len := fun n => decide (4 ≤ n ∧ n ≤ 4 + 16 * 16) && (n - 4) % 16 == 0
    check := fun w p =>
      let n := fieldAt p.params 0 4
      if w.armedOrRunning then (0x0401, 0)
      else if p.params.length ≠ 4 + 16 * n then (0x0103, 64)
      else match (List.range n).find? fun i => trainBad (trainEntry p.params i) || bits (fieldAt p.params (4 + 16 * i) 8) 56 7 != 0 ||
          bits (fieldAt p.params (12 + 16 * i) 8) 34 30 != 0 with
        | some i => (0x0103, 68 + 16 * i)
        | none => (0, 0)
    act := fun w fl =>
      let l := trainTable fl.p.params
      { w := (({ w with ingest := { w.ingest with trains := l, relay := [] } } : Wafer).showTrains l).syncIngest } }

def execTrainSet (p : Packet) (s : State) : Host.Outcome State Fault Refusal := commandStep trainSetSpec p s

/-! ## The flip plan (R255) -/

/-- T0 is committed: the job runs, or a START waits for its tick. -/
def Wafer.startSet (w : Wafer) : Bool :=
  w.running || (w.job.phase == .armed && w.cmd.inflight.any fun x => x.opcode == 0x0104 && x.working)

/-- The next tick, after the current one, whose stage index is the plan's. -/
def Wafer.nextFlip (w : Wafer) : Option Nat :=
  if w.rd wstBase Reg.wstFlipValid = 0 ∨ w.startSet = false then none
  else match w.job.image with
    | none => none
    | some img =>
      let stage := w.rd wstBase Reg.wstFlipStage
      let first := (w.job.t0 + stage) % 2 ^ 48
      if img.a + img.l ≤ stage then none
      else if tickFuture first w.tick then some first
      else if stage < img.a then none
      else some ((first + (tickDiff w.tick first / img.l + 1) * img.l) % 2 ^ 48)

/-- TIR_FLIP shows the next flip. -/
def Wafer.showFlip (w : Wafer) : Wafer :=
  match w.nextFlip with
  | some t => w.wrs tirmBase [(Reg.tirFlipTick, t), (Reg.tirFlipValid, 1)]
  | none => w.wr tirmBase Reg.tirFlipValid 0

/-- FLIP_PLAN (R255). -/
def flipPlanSpec : CmdSpec :=
  { opcode := 0x0204, len := lenIs 3, sum := some fun w _ => regSum w [wstBase + Reg.wstFlipStage.off]
    act := fun w fl => { w := (w.wrs wstBase [(Reg.wstFlipStage, fieldAt fl.p.params 0 3), (Reg.wstFlipValid, 1)]).showFlip } }

def execFlipPlan (p : Packet) (s : State) : Host.Outcome State Fault Refusal := commandStep flipPlanSpec p s

end Sys2Proof.Machine
end

