-- ==== Sys2Proof/Machine/CmdJob.lean ====
section
/-!
DEFINITION. Sys2Proof/Machine/CmdJob.lean: the job lifecycle, family 0x01xx (R298 to R301).
-/

namespace Sys2Proof.Machine

/-! ## LOAD and PLACE -/

/-- The image a LOAD names. -/
def Wafer.imageAt (w : Wafer) (p : Packet) : Except Nat Image := parseImage (w.quayRead (qaOf p) (fieldAt p.params 8 8))

def loadCheck (w : Wafer) (p : Packet) : Nat × Nat :=
  if w.armedOrRunning then (0x0401, 0)
  else if w.job.placing.isSome then (0x0407, 0)
  else if !quayOk (qaOf p) (fieldAt p.params 8 8) then (0x0106, 0)
  else match w.imageAt p with
    | .error i => (0x0105, i)
    | .ok _ => (0, 0)

/-- LOAD (R127, R298). The tally records it with the digest of the image, which is the SHA3-256 of its bytes. -/
def loadSpec : CmdSpec :=
  { opcode := 0x0101, len := lenIs 16, check := loadCheck
    sum := some fun w _ => match w.job.image with
      | some img => img.digest % 2 ^ 96
      | none => digest12 []
    act := fun w fl => match w.imageAt fl.p with
      | .error i => { w := w, status := 0x0105, detail := i }
      | .ok img => { w := ({ w with job := { w.job with image := some img, faulted := false } } : Wafer).setPhase .loaded } }

def execLoad (p : Packet) (s : State) : Host.Outcome State Fault Refusal := commandStep loadSpec p s

/-- PLACE's checks (Table 12-9, R44, R334), with the remaps that come before it (R129). The route check of R170 is made at the boundary.
(Log 46 DEDUCED.) -/
def placeCheck (w : Wafer) (p : Packet) : Nat × Nat :=
  let w := w.remapsDone
  match w.job.image with
  | none => (0x0401, 0)
  | some img =>
    if !(w.job.phase == .loaded || w.job.phase == .placed || w.job.phase == .stopped) || w.health.flood.isSome || !w.powered then (0x0401, 0)
    else if w.job.placing.isSome then (0x0407, 0)
    else if !quayOk (qaOf p) img.fields then (0x0106, 0)
    else if 16 < fieldAt p.params 8 1 then (0x0103, 72)
    else
      let pl := w.placeTable p
      match w.badEntry pl with
      | some i => (0x0103, i)
      | none => match w.imageFloor w.period with
        | none => (0x0202, 0)
        | some f => if w.topsReach pl f then (0, 0) else (0x0202, 0)

/-- A unit of a placed field is fenced (R291), as the remaps before PLACE leave the mapping (R129). -/
def Wafer.placeFenced (w : Wafer) (p : Packet) : Bool :=
  let w := w.remapsDone
  (w.placeTable p).any fun f => w.fieldFenced f || (List.range 4).any (fun c => w.clusterFenced (4 * f + c)) ||
    (List.range 16).any fun k => w.coreFenced (w.siteOf f (k / 4) (k % 4))

/-- PLACE at its boundary: the remaps that wait (R129) and the route check, then the work, which goes on until every field is in RUN.
(Log 49 DESIGN CHOICE.) -/
def Wafer.placeAct (w : Wafer) (fl : InFlight) : CmdRes :=
  let w := w.remapsDone
  let pl := w.placeTable fl.p
  if !w.routesOk pl then { w := w, status := 0x0202 }
  else
    let w := { w with
      job := { w.job with placing := some (pl, fieldAt fl.p.params 8 1) }
      health := { w.health with surveyTodo := w.health.surveyTodo.filter fun f => !pl.contains f } }
    { w := w.placeProgress, working := true }

/-- PLACE (R128, R191, R334). -/
def placeSpec : CmdSpec :=
  { opcode := 0x0102, len := lenIs 9, check := placeCheck, fenced := fun w p => w.placeFenced p, act := Wafer.placeAct }

def execPlace (p : Packet) (s : State) : Host.Outcome State Fault Refusal := commandStep placeSpec p s

/-! ## ARM (R300, R301) -/

/-- Basin use of a pen: 2 MiB units over its chains, a primary and its shadow once (R195). -/
def basinUse (l : List ChainEntry) (pen : Nat) : Nat :=
  (l.filter fun e => e.pen == pen && !e.isShadow).foldl (fun n e => n + ceilDiv (4 * e.nelem) (2 ^ 21)) 0

/-- Lines of a slice on its k-th stack. -/
def ChainEntry.linesOn (e : ChainEntry) (k : Nat) : Nat := if k < e.lines then (e.lines - k - 1) / e.scount + 1 else 0

/-- Basin lines [lo, hi) of a slice on a stack. -/
def ChainEntry.rangeOn (e : ChainEntry) (stk : Nat) : Nat × Nat :=
  let k := (stk + 32 - e.sfirst % 32) % 32
  if k < e.scount then (e.boff, e.boff + e.linesOn k) else (0, 0)

/-- Every slice lies within the basin, and no two overlap (R265). -/
def Wafer.slicesOk (w : Wafer) : Bool :=
  let l := w.reduce.chains.filter fun e => !e.isShadow
  (List.range 32).all fun s =>
    let rs := (l.map fun e => e.rangeOn s).filter fun r => decide (r.1 < r.2)
    rs.all (fun r => decide (256 * r.2 ≤ w.basinSize s)) &&
    (List.range rs.length).all fun i => (List.range i).all fun j =>
      let a : Nat × Nat := rs.getD i (0, 0)
      let b : Nat × Nat := rs.getD j (0, 0)
      decide (a.2 ≤ b.1 ∨ b.2 ≤ a.1)

/-- The train table serves the job (R247): one stride, ranges that tile it, ports that carry VL0. A table with no train carries
none. -/
def Wafer.trainsOk (w : Wafer) : Bool :=
  match w.ingest.trains with
  | [] => true
  | t :: _ =>
    let l := w.ingest.trains
    let vl0 := fun i => bit (planLanes (portPlan w i) i (peerKind w i)) 0
    l.all (fun x => x.stride == t.stride && vl0 x.inPort && x.outs.all vl0) &&
    (List.range t.stride).all fun k => countIf (fun (x : Train) => decide (x.rlo ≤ k ∧ k ≤ x.rhi)) l == 1

/-- Children of an ARM. -/
def armChildren (p : Packet) : List Nat := (List.range (fieldAt p.params 28 1)).map fun i => fieldAt p.params (32 + 5 * i) 5

/-- ARM's checks (Table 12-9). No byte of the packet is what fails R247 or R265: DETAIL is then a free value.
(Log 46 DEDUCED, 58 DESIGN CHOICE.) -/
def armCheck (w : Wafer) (p : Packet) : Nat × Nat :=
  let n := fieldAt p.params 28 1
  if fieldAt p.params 0 4 = 0 then (0x0103, 64)
  else if 16 < n then (0x0103, 92)
  else match (List.range (16 - n)).find? fun i => fieldAt p.params (32 + 5 * (n + i)) 5 != 0 with
    | some i => (0x0103, 96 + 5 * (n + i))
    | none =>
      if w.job.phase ≠ .placed then (0x0401, 0)
      else if w.job.placing.isSome then (0x0407, 0)
      else if w.rd lckBase Reg.lckEpochEpoch ≠ fieldAt p.params 8 8 ∨ w.rd lckBase Reg.lckBasetickBase ≠ fieldAt p.params 16 6 ∨
          w.period ≠ fieldAt p.params 24 4 then (0x0401, 0)
      else match w.imageFloor w.period with
        | none => (0x0202, 0)
        | some f =>
          if !w.topsReach w.job.placement f then (0x0202, 0)
          else if (List.range 64).any fun i => decide (w.rd (penBase i) Reg.tirPenqBasin < basinUse w.reduce.chains i) then (0x0201, 0)
          else if w.trainsOk && w.slicesOk then (0, 0) else (0x0103, Config.freeValue w.free % 2 ^ 32)

/-- The copy of an ARM that goes to a child: NCHILD 0 (R300). (Log 47 DESIGN CHOICE.) -/
def childCopy (p : Packet) : Packet := { p with params := p.params.take 28 ++ List.replicate 84 0#8 }

/-- Stage the job tag on every port (R223). -/
def Wafer.stageTag (w : Wafer) (tag : Nat) : Wafer :=
  (List.range 176).foldl (fun w i =>
    (w.setPortTime i { w.portTime i with delayAtArm := (w.portTime i).delay }).wrs (portBase i)
      [(Reg.tpTagStaged, tag), (Reg.tpLinkstatStagedv, 1)]) w

/-- ARM acts: the floor, the staged tags, the children; the basin is zeroed meanwhile. -/
def Wafer.armAct (w : Wafer) (p : Packet) : Wafer :=
  let kids := armChildren p
  let w := { w with
    job := { w.job with
      tag := p.jobTag, t0 := 0, children := kids.map fun c => (c, none), armOrigin := if p.path = 2 then some p.origin else none
      armTick := w.tick, armAt := w.countNow, basinZeroed := false, firstFault := 0, faulted := false, draining := false
      quiesceTick := none }
    ingest := { w.ingest with stopped := false } }
  let w := (w.setPhase .armed).wrs cmdmBase [(Reg.cmdArmArmid, fieldAt p.params 0 4), (Reg.cmdArmTag, p.jobTag)]
  let w := w.setFloor ((w.imageFloor w.period).getD 0)
  let w := w.stageTag p.jobTag
  let w := (List.range 64).foldl (fun w i => w.wr (penBase i) Reg.tirPenuBasin (basinUse w.reduce.chains i)) w
  kids.foldl (fun w c => w.mlSend c 0 (packetMessage 0x0103 (childCopy p))) w.syncIngest

/-- ARM. Its reply comes when the basin is zeroed and every child has answered. -/
def armSpec : CmdSpec :=
  { opcode := 0x0103, now := true, job := true, len := lenIs 112, resv := [(4, 4), (22, 2), (29, 3)], check := armCheck
    act := fun w fl => { w := w.armAct fl.p, working := true } }

def execArm (p : Packet) (s : State) : Host.Outcome State Fault Refusal := commandStep armSpec p s

def isArmPacket (x : InFlight) : Bool := x.opcode == 0x0103 && x.working

/-- DONE once the zeroing has completed and every child has replied DONE. (Log 47 DESIGN CHOICE.) -/
def Wafer.armProgress (w : Wafer) : Wafer :=
  if w.job.basinZeroed && w.job.children.all fun c => c.2 == some 0 then w.finish isArmPacket 0 0 else w

/-- ARM_BASIN_ZEROED (R281, R300). -/
def execArmBasinZeroed (s : State) : Host.Outcome State Fault Refusal :=
  s.upd fun w =>
    if w.job.phase = .armed ∧ w.job.basinZeroed = false then
      ({ w.zeroBasin with job := { w.job with basinZeroed := true } } : Wafer).armProgress
    else w

/-- A child's status: the first that is not DONE makes the ARM reply 0x0504 (R301). -/
def Wafer.childStatus (w : Wafer) (child status : Nat) : Wafer :=
  match w.job.children[child]? with
  | some (c, none) =>
    let w := { w with job := { w.job with children := listSet w.job.children child (c, some status) } }
    if status = 0 then w.armProgress else w.finish isArmPacket 0x0504 child
  | _ => w

/-- ARM_CHILD_REPLY (R301). -/
def execArmChildReply (child status : Nat) (s : State) : Host.Outcome State Fault Refusal :=
  s.upd fun w => if w.job.phase = .armed then w.childStatus child status else w

/-- Counts since the ARM was taken. -/
def Wafer.armAge (w : Wafer) : Nat := (w.countNow + 2 ^ 64 - w.job.armAt) % 2 ^ 64

/-- ARM_CHILD_TIMEOUT (R301): 64 ticks plus 32 ms after the forward. (Log 47 DESIGN CHOICE.) -/
def execArmChildTimeout (child : Nat) (s : State) : Host.Outcome State Fault Refusal :=
  s.upd fun w =>
    if w.job.phase = .armed ∧ 64 * w.period + 40000000 ≤ w.armAge then w.childStatus child 0x0504 else w

/-- An arm ends without a job: back to PLACED, with the staged tags cleared. (Log 46 DEDUCED.) -/
def Wafer.disarm (w : Wafer) : Wafer :=
  let w := { w with job := { w.job with expired := w.rd cmdmBase Reg.cmdArmArmid, children := [] } }
  ((w.setPhase .placed).clearTags false true).wrs cmdmBase [(Reg.cmdArmArmid, 0), (Reg.cmdArmTag, 0)]

/-- ARM_EXPIRY (R301): 10 s without a START. (Log 47 DESIGN CHOICE.) -/
def execArmExpiry (s : State) : Host.Outcome State Fault Refusal :=
  s.upd fun w =>
    if w.job.phase = .armed ∧ w.startSet = false ∧ 12500000000 ≤ w.armAge then
      (((w.tallySelf 0x0C02).disarm).notify 0x0C02 detailNone).finish isArmPacket 0x0408 0
    else w

/-! ## START -/

/-- START's state checks: the ARM it names. (Log 46 DEDUCED.) -/
def startCheck (w : Wafer) (p : Packet) : Nat × Nat :=
  let id := fieldAt p.params 0 4
  if w.job.phase ≠ .armed then (if id ≠ 0 ∧ id = w.job.expired then 0x0408 else 0x0401, 0)
  else if id ≠ w.rd cmdmBase Reg.cmdArmArmid then (0x0408, 0)
  else if w.startSet then (0x0407, 0)
  else (0, 0)

/-- START (R301): it commits T0 and goes to the children; its reply comes at the boundary of T0. At or after that boundary it is
refused, and the module returns to PLACED. -/
def startSpec : CmdSpec :=
  { opcode := 0x0104, now := true, job := true, len := lenIs 10, check := startCheck
    act := fun w fl =>
      let t0 := fieldAt fl.p.params 4 6
      if !tickFuture t0 w.tick then { w := w.disarm, status := 0x0404 }
      else
        let w := { w with job := { w.job with t0 := t0 } }
        { w := w.job.children.foldl (fun w c => w.mlSend c.1 0 (packetMessage 0x0104 fl.p)) w.showFlip, working := true } }

def execStart (p : Packet) (s : State) : Host.Outcome State Fault Refusal := commandStep startSpec p s

/-- The boundary of T0 (R103, R223, R298): registers and semaphores are zero, the staged tag becomes current.
(Log 47 DESIGN CHOICE.) -/
def Wafer.beginJob (w : Wafer) : Wafer :=
  let w := w.jobSites.foldl (fun w s => w.updCore s fun c => { c with lost := none, s := [], sem := [], v := [], vbad := [], m := [], q := 0, qr := 0, xsems := [] }) w
  let w := (List.range 176).foldl (fun w i => w.wrs (portBase i)
    [(Reg.tpTagCur, w.rd (portBase i) Reg.tpTagStaged), (Reg.tpTagStaged, 0), (Reg.tpLinkstatStagedv, 0)]) w
  let w := w.wrs cmdmBase [(Reg.cmdArmArmid, 0), (Reg.cmdArmTag, 0)]
  ((w.setPhase .running).finish (fun x => x.opcode == 0x0104 && x.working) 0 0).showFlip

/-! ## QUIESCE and ABORT -/

/-- What both do at their boundary (R256, R281, R299): no further stage starts, tags are cleared, streams stop, and the job's
packets in flight get 0x0502. (Log 48 DESIGN CHOICE.) -/
def Wafer.endJob (w : Wafer) (except : InFlight) : Wafer :=
  let w := w.jobSites.foldl (fun w s => w.wrs (siteBase s) [(Reg.seqStatState, 0), (Reg.seqStatHeld, 0)]) w
  let w := w.stopStreams.clearTags true true
  let w := w.wrs cmdmBase [(Reg.cmdArmArmid, 0), (Reg.cmdArmTag, 0)]
  w.finishAll (fun x => x.working && x != { except with working := true } && decide (0x0101 ≤ x.opcode ∧ x.opcode ≤ 0x0106)) 0x0502 0

/-- QUIESCE: its reply comes when the queues are empty. -/
def quiesceSpec : CmdSpec :=
  { opcode := 0x0105, job := true, len := lenIs 0
    check := fun w _ => if w.running then (0, 0) else (0x0401, 0)
    act := fun w fl =>
      let w := (w.endJob fl).enterStopped
      { w := { w with job := { w.job with draining := true, quiesceTick := some w.tick } }, working := true } }

def execQuiesce (p : Packet) (s : State) : Host.Outcome State Fault Refusal := commandStep quiesceSpec p s

/-- QUIESCE_DRAINED (R299). (Log 48 DESIGN CHOICE.) -/
def execQuiesceDrained (s : State) : Host.Outcome State Fault Refusal :=
  s.upd fun w =>
    if w.job.draining ∧ w.queuesEmpty = true then
      ({ w with job := { w.job with draining := false } } : Wafer).finish (fun x => x.opcode == 0x0105 && x.working) 0 0
    else w

/-- ABORT: queued VL0 and VL1 frames are discarded. In LOADED, PLACED and STOPPED there is no job to stop; a PLACE at work ends. -/
def abortSpec : CmdSpec :=
  { opcode := 0x0106, job := true, len := lenIs 0
    check := fun w _ => if w.job.phase = .idle then (0x0401, 0) else (0, 0)
    act := fun w fl =>
      let live := w.armedOrRunning
      let w := (w.endJob fl).dropJobFrames
      let w := { w with job := { w.job with placing := none, draining := false } }
      { w := if live then w.enterStopped else w } }

def execAbort (p : Packet) (s : State) : Host.Outcome State Fault Refusal := commandStep abortSpec p s

/-! ## STATUS -/

/-- STATUS data (Table 12-11). (Log 58 DESIGN CHOICE.) -/
def Wafer.statusData (w : Wafer) : List Byte :=
  let stage := match w.job.image with
    | some img => if w.running then stageOf img w.job.t0 w.tick else 0
    | none => 0
  natLE 1 w.job.phase.code ++ natLE 3 0 ++ natLE 4 w.job.tag ++ natLE 6 w.job.t0 ++ natLE 6 w.tick ++ natLE 4 stage ++
  natLE 8 (w.reg64 (lckBase + Reg.lckOvrstatValid.off)) ++ natLE 6 (w.rd lckBase Reg.lckOvrtickTick) ++ natLE 2 w.job.firstFault ++
  natLE 2 w.inflightTotal ++ natLE 2 (w.rd pwrBase Reg.pwrGearFloor) ++ natLE 20 0

/-- STATUS. -/
def statusSpec : CmdSpec :=
  { opcode := 0x0107, now := true, reads := true, len := lenIs 0, act := fun w _ => { w := w, data := w.statusData } }

def execStatus (p : Packet) (s : State) : Host.Outcome State Fault Refusal := commandStep statusSpec p s

end Sys2Proof.Machine
end

