-- ==== Sys2Proof/Machine/CmdPower.lean ====
section
/-!
DEFINITION. Sys2Proof/Machine/CmdPower.lean: the commands of family 0x05xx (Table 12-12, R333, R338, R339, R341).
-/

namespace Sys2Proof.Machine

/-- CAP_SET (R339). -/
def capSetSpec : CmdSpec :=
  { opcode := 0x0501, len := lenIs 4, sum := some fun w _ => regSum w [pwrBase + Reg.pwrCapCap.off]
    check := fun _ p => if fieldAt p.params 0 4 < 12000 then (0x0103, 64) else (0, 0)
    act := fun w fl => { w := w.setCap (fieldAt fl.p.params 0 4) } }

def execCapSet (p : Packet) (s : State) : Host.Outcome State Fault Refusal := commandStep capSetSpec p s

/-- BRAKE (R341): applied at once; a release ends at the next boundary. -/
def brakeSpec : CmdSpec :=
  { opcode := 0x0502, now := true, len := lenIs 2, sum := some fun w _ => regSum w [pwrBase + Reg.pwrBrakeApply.off]
    check := fun _ p =>
      if 1 < fieldAt p.params 0 1 then (0x0103, 64) else if 100 < fieldAt p.params 1 1 then (0x0103, 65) else (0, 0)
    act := fun w fl => { w := w.commandBrake (fieldAt fl.p.params 0 1 == 1) (fieldAt fl.p.params 1 1) } }

def execBrake (p : Packet) (s : State) : Host.Outcome State Fault Refusal := commandStep brakeSpec p s

/-- GEAR_SET: the commanded gear, at step 4 of its boundary. -/
def gearSetSpec : CmdSpec :=
  { opcode := 0x0503, step := 4, len := lenIs 2, sum := some fun w _ => regSum w [pwrBase + Reg.pwrGearCmd.off]
    check := fun _ p => if isGear (fieldAt p.params 0 2) then (0, 0) else (0x0103, 64)
    act := fun w fl => { w := w.wr pwrBase Reg.pwrGearCmd (fieldAt fl.p.params 0 2) } }

def execGearSet (p : Packet) (s : State) : Host.Outcome State Fault Refusal := commandStep gearSetSpec p s

/-- A flood has the field and has not released it (R358), or the test of its own reset has. (Log 56 DESIGN CHOICE.) -/
def Wafer.floodHolds (w : Wafer) (f : Nat) : Bool :=
  w.health.retests.contains f || match w.health.flood with
  | none => false
  | some fl => fl.testing.contains f || !fl.fields.any fun e => e.1 == f

/-- FIELD_STATE's own checks (Table 12-12, R334, R358). (Log 49 DESIGN CHOICE.) -/
def fieldStateCheck (w : Wafer) (p : Packet) : Nat × Nat :=
  let f := fieldAt p.params 0 1
  let st := fieldAt p.params 1 1
  if 112 ≤ f then (0x0103, 64)
  else if 4 ≤ st then (0x0103, 65)
  else match w.holdCauses f with
    | c :: _ => if st = 3 then (0, 0) else (0x0401, 0x0A00 + c)
    | [] => if w.fieldHeld f || w.floodHolds f || !w.powered then (0x0401, 0) else (0, 0)

/-- FIELD_STATE (R333): done when the field has reached the state. -/
def fieldStateSpec : CmdSpec :=
  { opcode := 0x0504, len := lenIs 2, check := fieldStateCheck
    sum := some fun w p => regSum w [fieldBase (fieldAt p.params 0 1) + Reg.fpwStateState.off]
    fenced := fun w p => w.fieldFenced (fieldAt p.params 0 1)
    act := fun w fl => { w := w.moveField (fieldAt fl.p.params 0 1) (fieldAt fl.p.params 1 1), working := true } }

def execFieldState (p : Packet) (s : State) : Host.Outcome State Fault Refusal := commandStep fieldStateSpec p s

/-- One field of Table 14-11. -/
def Wafer.powerField (w : Wafer) (f : Nat) : List Byte :=
  let b := fieldBase f
  if w.fieldState f = 3 then natLE 2 0xFFFF ++ natLE 2 0 ++ natLE 4 0xFFFFFFFF
  else natLE 2 (w.rd b Reg.fpwVoltVmeas) ++ natLE 2 (w.rd b Reg.fpwVoltVset) ++ natLE 1 (w.rd b Reg.fpwTjTj0) ++
    natLE 1 (w.rd b Reg.fpwTjTj1) ++ natLE 1 (w.rd b Reg.fpwTjTj2) ++ natLE 1 (w.rd b Reg.fpwTjTj3)

/-- The reply data of POWER_READ (Table 14-11). -/
def Wafer.powerData (w : Wafer) : List Byte :=
  natLE 6 w.tick ++ natLE 2 0 ++ natLE 4 (w.rd pwrBase Reg.pwrInputVolt) ++ natLE 4 (w.rd pwrBase Reg.pwrInputCurr) ++
  natLE 4 (w.rd pwrBase Reg.pwrInputPower) ++ natLE 2 (w.rd pwrBase Reg.pwrCoolTin) ++ natLE 2 (w.rd pwrBase Reg.pwrCoolTout) ++
  natLE 8 0 ++ (List.range 112).flatMap fun f => w.powerField f

/-- POWER_READ (R327). -/
def powerReadSpec : CmdSpec :=
  { opcode := 0x0505, now := true, reads := true, len := lenIs 0, act := fun w _ => { w := w, data := w.powerData } }

def execPowerRead (p : Packet) (s : State) : Host.Outcome State Fault Refusal := commandStep powerReadSpec p s

end Sys2Proof.Machine
end

