-- ==== Sys2Proof/Machine/Spdm.lean ====
section
/-!
DEFINITION. Sys2Proof/Machine/Spdm.lean: the SPDM 1.3 responder (R312 to R314). A connection is 0 or 1 for the DOE mailbox of a CXL
port, 2 + 2e for endpoint e on I3C, and 3 + 2e for an endpoint whose MCTP messages the management lane carries. The layouts of
SPDM are outside the spec: `Config.spdmBody` gives the bytes of a response from its code and its content.
-/

namespace Sys2Proof.Machine

/-! ## What the responder returns -/

/-- A measurement value (Table 13-4). -/
def Wafer.measurement (w : Wafer) (index : Nat) : Nat :=
  let slotRec := fun (k : Nat) => match (if k = 0 then w.shp.slotA else w.shp.slotB).value with
    | none => Config.recordDigest []
    | some r => Config.recordDigest [r.st.code, r.digest, r.svn]
  let run := w.runSlot
  match index with
  | 1 => Config.romDigest
  | 2 => match run with
    | some k => sha3 (w.fwHeader k ++ w.fwBody k)
    | none => Config.freeValue w.free % 2 ^ 256
  | 3 => slotRec (1 - run.getD w.bootSlot)
  | 4 => Config.recordDigest (w.roots.flatMap fun r => [leNat r.ed, leNat r.ml, b2n r.peer, b2n r.admin])
  | 5 => sha3 w.map.bytes
  | 6 => sha3 w.planBytes
  | 7 => (w.job.image.map (·.digest)).getD 0
  | 8 => sha3 (natLE 32 w.shp.tallyHash)
  | _ => 0

/-- One measurement: its index and its value. -/
def Wafer.measurementEntry (w : Wafer) (index : Nat) : List Byte := natLE 1 index ++ natLE 32 (w.measurement index)

/-- The chain in a certificate slot. -/
def certChain (slot : Nat) : List Byte := if slot = 0 then Config.edChain else Config.mlChain

/-! ## Connections -/

def Wafer.conn (w : Wafer) (c : Nat) : SpdmConn := mapGet (fun _ => {}) w.shp.spdm c
def Wafer.setConn (w : Wafer) (c : Nat) (x : SpdmConn) : Wafer :=
  { w with shp := { w.shp with spdm := mapSet (fun _ => {}) w.shp.spdm c x } }

/-- Send a response on a connection. -/
def Wafer.spdmSend (w : Wafer) (c : Nat) (l : List Byte) : Wafer :=
  if c < 2 then w.emit (.spdm c l)
  else if c % 2 = 0 then w.emit (.mctp ((c - 2) / 2) 5 l)
  else w.mlSend ((c - 3) / 2) 2 (5#8 :: l)

/-- An ERROR response; it enters no transcript. -/
def Wafer.spdmError (w : Wafer) (c err : Nat) : Wafer := w.spdmSend c (Config.spdmBody 0x7F (natLE 1 err))

/-- ERROR codes of the standard: invalid, unexpected and unsupported requests. -/
def spdmInvalid : Nat := 0x01
def spdmUnexpected : Nat := 0x04
def spdmUnsupported : Nat := 0x07

/-- Answer a request: both enter the connection's transcript, and nothing signed stands any more. -/
def Wafer.spdmAnswer (w : Wafer) (c code : Nat) (req content : List Byte) (f : SpdmConn → SpdmConn := id) : Wafer :=
  let l := Config.spdmBody code content
  let x := f (w.conn c)
  (w.setConn c { x with transcript := x.transcript ++ req ++ l, signed := none }).spdmSend c l

/-- Answer with a signed response: the Ed25519 signature covers the transcript hash, which a PQSIG may ask for next. -/
def Wafer.spdmSigned (w : Wafer) (c code : Nat) (req content : List Byte) : Wafer :=
  let l := Config.spdmBody code content
  let x := w.conn c
  let h := Config.transcriptHash (x.transcript ++ req ++ l)
  (w.setConn c { x with transcript := [], signed := some h }).spdmSend c (l ++ Config.edSign h)

/-- The responder is pair 1's duty (Table 13-1); a request that needs an earlier one first is unexpected. -/
def Wafer.spdmStep (w : Wafer) (c : Nat) (ready : SpdmConn → Bool) (f : Wafer → Wafer) : Wafer :=
  if !w.dutyUp 1 then w else if ready (w.conn c) then f w else w.spdmError c spdmUnexpected

/-! ## The requests (R312) -/

/-- A new version exchange starts the connection afresh. -/
def Wafer.spdmVersion (w : Wafer) (c : Nat) (req : List Byte) : Wafer :=
  w.spdmStep c (fun _ => true) fun w => w.spdmAnswer c 0x04 req (natLE 2 0x0103) fun _ => { version := true }

/-- The capability flags of what R312 supports: certificates, CHALLENGE and signed measurements; no key exchange, no pre-shared key, no
secured session and no mutual authentication. (Log 3 PRESUMED.) -/
def spdmFlags : Nat := 2 ^ 1 + 2 ^ 2 + 2 ^ 4

def Wafer.spdmCapabilities (w : Wafer) (c : Nat) (req : List Byte) : Wafer :=
  w.spdmStep c (·.version) fun w => w.spdmAnswer c 0x61 req (natLE 4 spdmFlags) fun x => { x with caps := true }

/-- The bits of the algorithms R312 negotiates: the DMTF measurement specification, EdDSA Ed25519 and SHA3-256; and the fields of an
offer that hold them. (Log 3 PRESUMED.) -/
def spdmMeasBit : Nat := 0
def spdmAsymBit : Nat := 10
def spdmHashBit : Nat := 3
def offerMeas (req : List Byte) : Bool := bit (fieldAt req 6 1) spdmMeasBit
def offerAsym (req : List Byte) : Bool := bit (fieldAt req 8 4) spdmAsymBit
def offerHash (req : List Byte) : Bool := bit (fieldAt req 12 4) spdmHashBit

/-- What is selected from an offer: measurement specification, BaseAsymAlgo and BaseHashAlgo, each nothing where the offer has not the
one the module supports. -/
def spdmSelect (req : List Byte) : List Byte :=
  natLE 1 (b2n (offerMeas req) * 2 ^ spdmMeasBit) ++ natLE 4 (b2n (offerAsym req) * 2 ^ spdmAsymBit) ++
  natLE 4 (b2n (offerHash req) * 2 ^ spdmHashBit)

/-- NEGOTIATE_ALGORITHMS: signed requests need both Ed25519 and SHA3-256 to have been selected. -/
def Wafer.spdmAlgorithms (w : Wafer) (c : Nat) (req : List Byte) : Wafer :=
  w.spdmStep c (·.caps) fun w =>
    w.spdmAnswer c 0x63 req (spdmSelect req) fun x => { x with algs := offerAsym req && offerHash req }

def Wafer.spdmDigests (w : Wafer) (c : Nat) (req : List Byte) : Wafer :=
  w.spdmStep c (·.algs) fun w =>
    w.spdmAnswer c 0x01 req (natLE 32 (sha3 Config.edChain) ++ natLE 32 (sha3 Config.mlChain))

/-- A part of the chain in slot 0 or 1: slot in byte 2, offset in bytes 4 and 5, length in bytes 6 and 7. -/
def Wafer.spdmCertificate (w : Wafer) (c : Nat) (req : List Byte) : Wafer :=
  w.spdmStep c (·.algs) fun w =>
    let slot := fieldAt req 2 1 % 16
    let chain := certChain slot
    let off := fieldAt req 4 2
    if 1 < slot ∨ chain.length < off then w.spdmError c spdmInvalid
    else w.spdmAnswer c 0x02 req ((chain.drop off).take (fieldAt req 6 2))

/-- CHALLENGE of slot 0: the signed CHALLENGE_AUTH. -/
def Wafer.spdmChallenge (w : Wafer) (c : Nat) (req : List Byte) : Wafer :=
  w.spdmStep c (·.algs) fun w =>
    if fieldAt req 2 1 ≠ 0 then w.spdmError c spdmInvalid
    else w.spdmSigned c 0x03 req (natLE 32 (sha3 Config.edChain))

/-- The measurements a request names: none (their count), one index, or all of them. -/
def measurementsAsked (w : Wafer) (op : Nat) : Option (List Byte) :=
  if op = 0 then some (natLE 1 8)
  else if op = 0xFF then some ((rangeFrom 1 8).flatMap w.measurementEntry)
  else if op ≤ 8 then some (w.measurementEntry op)
  else none

/-- GET_MEASUREMENTS (R314): byte 2 [0] asks for a signature, byte 3 names the measurements. -/
def Wafer.spdmMeasurements (w : Wafer) (c : Nat) (req : List Byte) : Wafer :=
  w.spdmStep c (·.algs) fun w =>
    match measurementsAsked w (fieldAt req 3 1) with
    | none => w.spdmError c spdmInvalid
    | some content => if bit (fieldAt req 2 1) 0 then w.spdmSigned c 0x60 req content else w.spdmAnswer c 0x60 req content

/-- PQSIG (R313): the ML-DSA-65 signature over the transcript hash of the signed response it follows. -/
def Wafer.spdmPqsig (w : Wafer) (c : Nat) : Wafer :=
  w.spdmStep c (fun x => x.signed.isSome) fun w =>
    w.spdmSend c (Config.spdmBody 0x7E (Config.mlSign ((w.conn c).signed.getD 0)))

/-- A vendor-defined request is PQSIG when it names IANA, the module's vendor ID and the payload 0x01. -/
def isPqsig (w : Wafer) (req : List Byte) : Bool :=
  fieldAt req 4 2 == 4 && fieldAt req 7 4 == w.rd secBase Reg.secVendoridId && fieldAt req 13 1 == 1

/-- An SPDM request by its request code (byte 1). (Log 3 PRESUMED.) -/
def Wafer.spdmRequest (w : Wafer) (c : Nat) (req : List Byte) : Wafer :=
  match fieldAt req 1 1 with
  | 0x84 => w.spdmVersion c req
  | 0xE1 => w.spdmCapabilities c req
  | 0xE3 => w.spdmAlgorithms c req
  | 0x81 => w.spdmDigests c req
  | 0x82 => w.spdmCertificate c req
  | 0x83 => w.spdmChallenge c req
  | 0xE0 => w.spdmMeasurements c req
  | 0xFE => if isPqsig w req then w.spdmPqsig c else w.spdmStep c (fun _ => true) fun w => w.spdmError c spdmUnsupported
  | _ => w.spdmStep c (fun _ => true) fun w => w.spdmError c spdmUnsupported

/-! ## The rows -/

def execGetVersion (conn : Nat) (req : List Byte) (s : State) : Host.Outcome State Fault Refusal := s.upd fun w => w.spdmVersion conn req
def execGetCapabilities (conn : Nat) (req : List Byte) (s : State) : Host.Outcome State Fault Refusal :=
  s.upd fun w => w.spdmCapabilities conn req
def execNegotiateAlgorithms (conn : Nat) (req : List Byte) (s : State) : Host.Outcome State Fault Refusal :=
  s.upd fun w => w.spdmAlgorithms conn req
def execGetDigests (conn : Nat) (req : List Byte) (s : State) : Host.Outcome State Fault Refusal := s.upd fun w => w.spdmDigests conn req
def execGetCertificate (conn : Nat) (req : List Byte) (s : State) : Host.Outcome State Fault Refusal :=
  s.upd fun w => w.spdmCertificate conn req
def execChallenge (conn : Nat) (req : List Byte) (s : State) : Host.Outcome State Fault Refusal := s.upd fun w => w.spdmChallenge conn req
def execGetMeasurements (conn : Nat) (req : List Byte) (s : State) : Host.Outcome State Fault Refusal :=
  s.upd fun w => w.spdmMeasurements conn req

/-- PQSIG: the row's request is one; its bytes carry nothing else. -/
def execPqsig (conn : Nat) (_req : List Byte) (s : State) : Host.Outcome State Fault Refusal := s.upd fun w => w.spdmPqsig conn

end Sys2Proof.Machine
end

