-- ==== Sys2Proof/Machine/TimeOps.lean ====
section
/-!
DEFINITION. Sys2Proof/Machine/TimeOps.lean: changes of the tick rate (R35, R44), elapsed time, and jumps of the counter (R395).
-/

namespace Sys2Proof.Machine

/-- E becomes the start value of T under the old schedule, B becomes T and P becomes P′ (R35). A gear floor that stands is the floor of
the new period (R44). (Log 18 DEDUCED.) -/
def Wafer.applyRate (w : Wafer) (p t : Nat) : Wafer :=
  let e := w.startOf t
  let w := (w.wrs lckBase [(Reg.lckEpochEpoch, e), (Reg.lckBasetickBase, t), (Reg.lckPeriodPeriod, p)]).clearPending
  let w := { w with time := { w.time with changed := some (p, t) } }
  if w.rd pwrBase Reg.pwrGearFloor = 0 then w else w.setFloor ((w.imageFloor p).getD 0)

/-! ## Elapsed time -/

/-- n counts pass: the counter, and the wall clock with it (0.8 ns each). (Log 1 DESIGN CHOICE, 8 DESIGN CHOICE, 66 PRESUMED.) -/
def Wafer.elapse (w : Wafer) (n : Nat) : Wafer :=
  let w := ({ w with time := { w.time with passed := w.time.passed + n } } : Wafer).wr lckBase Reg.lckCountCount (w.countNow + n)
  if w.time.wallSet then w.wr lckBase Reg.lckWallWall (w.rd lckBase Reg.lckWallWall + n * 4 / 5) else w

/-- An event dt counts after the last one, ahead of the next start value. -/
def Wafer.elapseWithin (w : Wafer) (dt : Nat) : Wafer := w.elapse (min dt (w.toNextStart - 1))

/-- An event at a time counted as TimeSt.passed is: at the block's last event when that came later. (Log 8 DESIGN CHOICE.) -/
def Wafer.elapseTo (w : Wafer) (at_ : Nat) : Wafer := w.elapseWithin (at_ - w.time.passed)

/-- A time counted as TimeSt.passed is comes ahead of the next start value. -/
def Wafer.comesBy (w : Wafer) (at_ : Nat) : Bool := decide (at_ < w.time.passed + w.toNextStart)

/-! ## Jumps (R395) -/

/-- Take the tick number from the schedule after a jump. A forward jump over T applies the pending change as at T. -/
def Wafer.retick (w : Wafer) : Wafer :=
  let old := w.tick
  let w := match w.pendingRate with
    | some (p, t) =>
      let now := w.tickAt w.countNow
      if tickFuture t old && !tickFuture t now then w.applyRate p t else w
    | none => w
  w.wr lckBase Reg.lckTickTick (w.tickAt w.countNow)

/-- The counter is stepped or loaded. (Log 17 DEDUCED.) -/
def Wafer.jumpTo (w : Wafer) (c : Nat) : Wafer := ((w.wr lckBase Reg.lckCountCount c).wr lckBase Reg.lckTickStepped 1).retick

end Sys2Proof.Machine
end

