-- ==== Sys2Proof/Machine/Time.lean ====
section
/-!
DEFINITION. Sys2Proof/Machine/Time.lean: references (R28), the tick wave (R38 to R40), heartbeats (R37), the time servos
(R48 to R54), PPS (R55, R391, R392), the wall clock (R56) and REFCLK (R387).
-/

namespace Sys2Proof.Machine

def fieldStep (field : Nat) (s : State) (f : Wafer → Wafer) : Host.Outcome State Fault Refusal :=
  s.updIf (decide (field < 112)) f

/-! ## References and the tick wave across the wafer -/

/-- REFERENCE_SWITCH (R28, R353): primary, then the alternate while it runs on its own primary, then the rim line.
(Log 66 PRESUMED.) -/
def execReferenceSwitch (field : Nat) (s : State) : Host.Outcome State Fault Refusal :=
  fieldStep field s fun w => w.rerootRef field

/-- TICK_WAVE_SEND (R38): the coming tick, its start value and any pending period change. -/
def execTickWaveSend (s : State) : Host.Outcome State Fault Refusal :=
  s.upd fun w =>
    let n := (w.tick + 1) % 2 ^ 48
    let c := w.nextStart
    let w := { w with time := { w.time with wave := some ⟨n, c, w.pendingRate, w.time.passed, w.countNow⟩ } }
    match w.pendingRate with
    | some (p, t) => w.emit (.signal (.wave n c p t))
    | none => w.emit (.signal (.wave n c 0 0))

/-- A field is fenced with TICK_WAVE_LOST (R40): a job fault if it holds part of a running job. -/
def Wafer.waveLost (w : Wafer) (f : Nat) : Wafer :=
  let used := w.fieldInRun f
  let w := w.raiseFence (fField f) 0x0103 false
  if used then w.jobFault 0x0103 (detailField f) else w.notify 0x0103 (detailField f)

/-- The period change last applied has reached the field in time: it has applied it, or knew of it (R40). -/
def FieldTime.told (t : FieldTime) (changed : Option (Nat × Nat)) : Bool :=
  changed.isNone || t.applied == changed || t.pend == changed

/-- What a wave message that arrives at time `now` makes of a field: its replica counter reads what the counter read when the message
was sent, and the latency of the path it came by; its tick is armed (R38). -/
def FieldTime.take (t : FieldTime) (m : WaveMsg) (changed : Option (Nat × Nat)) (boundaries now : Nat) : FieldTime :=
  { t with
    heardAt := boundaries
    replica := 8 * m.sentCount + t.corr + (8 * (now - m.sentAt) - t.corr)
    setAt := now
    armTick := m.tick
    armStart := m.start
    period := if t.pend == changed then (changed.map (·.1)).getD t.period else t.period
    pend := if m.pend == changed then none else m.pend
    applied := if t.told changed then changed else t.applied }

/-- TICK_WAVE (R38, R40): the message comes to a field that runs at the latency of the path it uses; a period change that reaches the
field later than its tick loses the field. A field with no path hears nothing. (Log 66 PRESUMED.) -/
def execTickWave (field : Nat) (s : State) : Host.Outcome State Fault Refusal :=
  fieldStep field s fun w =>
    let t := w.fieldTime field
    let lat := w.waveCorr field t.waveParent
    match w.time.wave with
    | none => w
    | some m =>
      if !w.runs field || lat == 0xFFFF then w
      else
        let w := w.elapseTo (ceilDiv (8 * m.sentAt + lat) 8)
        let w := w.setFieldTime field (t.take m w.time.changed w.time.boundaries w.time.passed)
        if t.told w.time.changed then w else w.waveLost field

/-- The field takes its wave from `parent` now. -/
def waveFrom (w : Wafer) (f parent : Nat) : Bool :=
  let r := w.fieldRec f
  fieldNeighbour f (if (w.fieldTime f).waveParent = 0 then r.wave else r.waveAlt) == some parent

/-- TICK_WAVE_REROOT (R39, R353): the children of a dark parent switch to their alternate parents, with the latency correction of the
new path. (Log 66 PRESUMED.) -/
def execTickWaveReroot (parent : Nat) (s : State) : Host.Outcome State Fault Refusal :=
  fieldStep parent s fun w =>
    (List.range 112).foldl (fun w f =>
      if (w.fieldTime f).waveParent = 0 ∧ waveFrom w f parent = true then w.rerootWave f else w) w

/-- TICK_WAVE_LOST (R40): 64 consecutive ticks without a wave message. -/
def execTickWaveLost (field : Nat) (s : State) : Host.Outcome State Fault Refusal :=
  fieldStep field s fun w => if (w.fieldTime field).heardAt + 64 ≤ w.time.boundaries then w.waveLost field else w

/-! ## Heartbeats (R37) -/

/-- The mean path delay of a port in whole periods; a count is 800 ps. (Log 67 DEDUCED.) -/
def Wafer.delayTicks (w : Wafer) (i : Nat) : Nat := (w.portTime i).delay / (800 * w.period)

/-- Tick and period of a heartbeat agree with the module's. The period is not held to it in the tick in which a change has taken
effect. (Log 67 DEDUCED.) -/
def heartbeatOk (w : Wafer) (i : Nat) (hb : Heartbeat) : Bool :=
  let n := w.tick
  let d := tickDiff n hb.tick
  (d == w.delayTicks i || d == w.delayTicks i + 1) && (hb.period == w.period || (w.time.changed.map (·.2)) == some n)

/-- HEARTBEAT (R37, R220, R231). (Log 67 DEDUCED.) -/
def execHeartbeat (port : Nat) (hb : Heartbeat) (s : State) : Host.Outcome State Fault Refusal :=
  portStep port s fun w =>
    let w := w.rxTook port 3 5 (heartbeatBytes hb)
    if linkState w port ≠ 5 ∧ linkState w port ≠ 6 then w
    else
      let w := w.updPort port fun p => { p with hbSeen := true, hbTick := true, hbMissed := 0 }
      if heartbeatOk w port hb then w
      else if w.portInRun port then w.jobFault 0x0102 (detailRunit (portRunit port))
      else { w with time := { w.time with hbMismatch := w.time.hbMismatch + 1 } }

/-! ## The servos -/

def Wafer.syncState (w : Wafer) : Nat := w.rd lckBase Reg.lckSyncstatState
def Wafer.activePort (w : Wafer) : Nat := w.rd lckBase Reg.lckSyncstatActive

/-- Show the delay of the selected port. -/
def Wafer.showDelay (w : Wafer) (i : Nat) : Wafer :=
  if w.rd lckBase Reg.lckPdselPort = i then w.wr lckBase Reg.lckPdlyDelay (w.portTime i).delay else w

/-- The module steers the counter by an offset in ps, positive when the counter is ahead (R53). (Log 66 PRESUMED.) -/
def Wafer.steer (w : Wafer) (off : Int) (locked : Nat) : Wafer :=
  let far := decide (1000000 < off.natAbs)
  if far && !w.armedOrRunning then
    let c := ofInt 64 ((w.countNow : Int) - off / 800)
    (w.jumpTo c).wrs lckBase [(Reg.lckSyncstatOffset, ofInt 32 (off % 800)), (Reg.lckSyncstatState, locked)]
  else
    w.wrs lckBase [(Reg.lckSyncstatOffset, ofInt 32 off), (Reg.lckSyncstatState, if far then 1 else locked)]

/-- PATH_DELAY_CHANGE (R48): the delay has moved by more than 1 µs from its value at ARM. (Log 76 DESIGN CHOICE.) -/
def Wafer.delayMoved (w : Wafer) (i old new : Nat) : Wafer :=
  let base := (w.portTime i).delayAtArm
  let far := fun (d : Nat) => decide (1000000 < (((d : Int) - (base : Int)).natAbs))
  if w.armedOrRunning && far new && !far old then w.notify 0x0105 (detailRunit (portRunit i)) else w

/-- The port's servo has a new delay and a new offset, in ps, which its asymmetry corrects; only the active upstream's servo steers
(R49, R51, R53). -/
def Wafer.servo (w : Wafer) (port : Nat) (delayPs : Nat) (offsetPs : Int) : Wafer :=
  let t := w.portTime port
  let off := offsetPs - toInt 32 t.asym
  let w := w.setPortTime port { t with delay := delayPs, offset := ofInt 32 off }
  let w := (w.showDelay port).delayMoved port t.delay delayPs
  if w.rd lckBase Reg.lckSrcPhase = 1 ∧ w.activePort = port then w.steer off 2 else w

/-- A Follow_Up tells when the Sync before it left: with a Delay_Req that was answered, it gives the mean path delay and the offset, and the
next Delay_Req goes (R50). Times are in 0.1 ns. (Log 66 PRESUMED.) -/
def Wafer.followUp (w : Wafer) (port : Nat) (msg : List Byte) : Wafer :=
  let t := w.portTime port
  match t.t2 with
  | none => w
  | some t2 =>
    if ptpSeq msg ≠ t.syncSeq then w
    else
      let t1 := ptpTime msg + t.syncCorr + ptpCorrection msg
      let w := w.setPortTime port { t with t2 := none }
      let w := match t.t3, t.t4 with
        | some t3, some t4 =>
          let d := ((t2 - t1) + (t4 - t3)) / 2
          w.servo port (100 * d).toNat (100 * (t2 - t1 - d))
        | _, _ => w
      w.askDelay port

/-- TIMING_FRAME (R49 to R53): the message of a TIMING frame, stamped by the PCS dt counts and `eighth` eighths of a count after the last event.
Messages of mechanisms that Table 2-4 does not support are ignored. (Log 66 PRESUMED.) -/
def execTimingFrame (port : Nat) (msg : List Byte) (dt eighth : Nat) (s : State) : Host.Outcome State Fault Refusal :=
  portStep port s fun w =>
    let w := (w.elapseWithin dt).rxTook port 3 6 msg
    if linkState w port ≠ 5 ∧ linkState w port ≠ 6 then w
    else
      let stamp := 8 * w.countNow + eighth % 8
      let t := w.portTime port
      match ptpType msg with
      | 0 => if ptpTwoStep msg then
          w.setPortTime port { t with syncSeq := ptpSeq msg, t2 := some (stamp : Int), syncCorr := ptpCorrection msg } else w
      | 1 => if w.activePort = port then w else w.serveTime port msg stamp
      | 8 => w.followUp port msg
      | 9 => if ptpSeq msg = t.reqSeq then w.setPortTime port { t with t4 := some (ptpTime msg - ptpCorrection msg) } else w
      | _ => w

/-- UPSTREAM_LOST (R54): ALT1, then ALT2; the counter holds its last frequency until one of them locks. -/
def execUpstreamLost (s : State) : Host.Outcome State Fault Refusal :=
  s.upd fun w =>
    if w.rd lckBase Reg.lckSrcPhase ≠ 1 ∨ w.activePort = 0xFF then w
    else
      let a1 := w.rd lckBase Reg.lckSrcAlt1
      let a2 := w.rd lckBase Reg.lckSrcAlt2
      let nxt := if w.activePort = w.rd lckBase Reg.lckSrcUpstream ∧ a1 ≠ 0xFF then a1
        else if w.activePort ≠ a2 then a2 else 0xFF
      w.wrs lckBase [(Reg.lckSyncstatActive, nxt), (Reg.lckSyncstatState, 3)]

/-- TIME_LOST (R54): holdover for more than 10 s, or an offset above 5 µs on re-acquisition, while a job runs.
(Log 66 PRESUMED.) -/
def execTimeLost (reacquired : Bool) (s : State) : Host.Outcome State Fault Refusal :=
  s.upd fun w =>
    let off := (toInt 32 (w.rd lckBase Reg.lckSyncstatOffset)).natAbs
    let lost := if reacquired then decide (5000000 < off) else w.syncState == 3
    if w.running && lost then w.jobFault 0x0104 detailNone else w

/-! ## PPS -/

/-- A PPSSEED is refused (R55): a KIND 3 entry holds LCK_SRC as it stands and the value as it was written (R316). -/
def Wafer.refuseSeed (w : Wafer) (path value : Nat) : Wafer :=
  w.tallyReg path 3 (lckBase + Reg.lckSrcPpsseed.off) (w.reg64 (lckBase + Reg.lckSrcPpsseed.off)) value

/-- PPSSEED (R55), in a value for LCK_SRC: it arms a load at the next edge. -/
def Wafer.armSeed (w : Wafer) (path value : Nat) : Wafer := { w with time := { w.time with seedArmed := some (path, value) } }

/-- A write of LCK_SRC sets PPSSEED: with no job armed or running, a load is armed, recorded before that. -/
def Wafer.writeSeed (w : Wafer) (path value : Nat) : Wafer :=
  if w.tallyFull || w.armedOrRunning then w
  else
    let old := w.reg64 (lckBase + Reg.lckSrcPpsseed.off)
    (w.tallyReg path 2 (lckBase + Reg.lckSrcPpsseed.off) old old).armSeed path value

/-- TIME_SOURCE with PPSSEED set. -/
def Wafer.askSeed (w : Wafer) (path value : Nat) : Wafer := if w.armedOrRunning then w.refuseSeed path value else w.armSeed path value


/-- One second in counts. -/
def second : Nat := 1250000000

/-- Remember a good edge at the counter's present value. -/
def Wafer.goodEdge (w : Wafer) : Wafer := { w with time := { w.time with ppsAt := some w.countNow } }

/-- How far the counter is ahead of the nearest whole second, in ps. -/
def Wafer.ppsOffset (w : Wafer) : Int :=
  let r := w.countNow % second
  if 2 * r ≤ second then 800 * (r : Int) else 800 * ((r : Int) - second)

/-- PPS_EDGE (R55, R392), dt counts after the last event. -/
def execPpsEdge (dt : Nat) (s : State) : Host.Outcome State Fault Refusal :=
  s.upd fun w =>
    let w := w.elapseWithin dt
    let bad := match w.time.ppsAt with
      | some c => decide ((w.countNow + 2 ^ 64 - c) % 2 ^ 64 < second / 2)
      | none => false
    if bad then { w with time := { w.time with ppsBad := w.time.ppsBad + 1 } }
    else
      let w := w.goodEdge
      let w := match w.time.seedArmed with
        | none => w
        | some (path, value) =>
          let w := { w with time := { w.time with seedArmed := none } }
          if w.armedOrRunning then w.refuseSeed path value else (w.jumpTo (w.rd lckBase Reg.lckPpsloadSeed)).goodEdge
      if w.rd lckBase Reg.lckSrcPhase = 2 then (w.steer w.ppsOffset 4).goodEdge else w

/-- PPS_OUT_PULSE (R391): the counter passes a whole second within dt counts; 50 µs while time is not locked. (Log 72 DEDUCED.) -/
def execPpsOutPulse (dt : Nat) (s : State) : Host.Outcome State Fault Refusal :=
  s.upd fun w =>
    let c := w.countNow
    let w := w.elapseWithin dt
    if w.power.standby ∧ (c % second = 0 ∨ c / second < (c + dt) / second) then w.emit (.ppsOut (if w.syncState < 2 then 50 else 100)) else w

/-! ## Wall clock and REFCLK -/

/-- A read of a register: one of LCK_WALL latches the counter value (R56). -/
def Wafer.readReg (w : Wafer) (off : Nat) : Wafer :=
  let w := if off = lckBase + Reg.lckWallWall.off then w.wr lckBase Reg.lckWallcntCount w.countNow else w
  w.emit (.readData (natLE 8 (w.reg64 off)) false)

/-- LCK_WALL_READ (R56), dt counts after the last event. -/
def execLckWallRead (dt : Nat) (s : State) : Host.Outcome State Fault Refusal :=
  s.upd fun w => (w.elapseWithin dt).readReg (lckBase + Reg.lckWallWall.off)

/-- A server's offset disciplines the wall clock (R56), to which the module adds an error of up to 2 µs. The client runs on pair 1
(Table 13-1). (Log 5 DESIGN CHOICE.) -/
def Wafer.ntpTake (w : Wafer) (server : Nat) (offsetNs : Int) : Wafer :=
  if !w.time.servers.contains server || !w.dutyUp 1 then w
  else
    let (e, w) := w.fresh
    let err : Int := (e % 4001 : Nat) - (2000 : Int)
    let w := w.wr lckBase Reg.lckWallWall (ofInt 64 ((w.wall : Int) + offsetNs + err))
    { w with time := { w.time with wallSet := true } }

/-- NTP_PACKET (R56). -/
def execNtpPacket (server : Nat) (offsetNs : Int) (s : State) : Host.Outcome State Fault Refusal :=
  s.upd fun w => w.ntpTake server offsetNs

/-- REFCLK_LOSS (R387): a frequency selection of REFCLK falls back to the oscillator. -/
def execRefclkLoss (s : State) : Host.Outcome State Fault Refusal :=
  s.upd fun w => { w with time := { w.time with refclk := false } }

/-- REFCLK_PRESENT (R387). -/
def execRefclkPresent (s : State) : Host.Outcome State Fault Refusal :=
  s.upd fun w => { w with time := { w.time with refclk := true } }

/-- The frequency source in effect: 0 oscillator, 1 REFCLK, 2 syntonised from the upstream port, while there is one (R49, R54, R387). -/
def Wafer.freqSource (w : Wafer) : Nat :=
  match w.rd lckBase Reg.lckSrcFreq with
  | 1 => if w.time.refclk then 1 else 0
  | 2 => if w.activePort ≠ 0xFF ∧ w.syncState ≠ 3 then 2 else 0
  | _ => 0

end Sys2Proof.Machine
end

