-- ==== Sys2Proof/Machine/Mgmt.lean ====
section
/-!
DEFINITION. Sys2Proof/Machine/Mgmt.lean: the management lane (R321 to R323) and MCTP (R324).
-/

namespace Sys2Proof.Machine

/-! ## Inboxes (R287) -/

/-- A command message enters the inbox of its path, which holds 256; one that finds it full is lost. (Log 64 DESIGN CHOICE.) -/
def Wafer.deliverCommand (w : Wafer) (path origin : Nat) (body : List Byte) : Wafer :=
  let m := messageOf path origin body
  if path = 2 then
    if w.cmd.inboxMl.length < 256 then { w with cmd := { w.cmd with inboxMl := w.cmd.inboxMl ++ [m] } } else w
  else if w.cmd.inboxMctp.length < 256 then { w with cmd := { w.cmd with inboxMctp := w.cmd.inboxMctp ++ [m] } }
  else w

/-! ## MCTP (R324) -/

/-- Answer an MCTP message at the endpoint it came to. -/
def Wafer.mctpAnswer (w : Wafer) (m : MctpMsg) (body : List Byte) : Wafer :=
  if m.via = 0 then w.emit (.mctp m.src m.mtype body) else w.mlSend m.src 2 (natLE 1 m.mtype ++ body)

/-- The type of a PLDM message, after its MCTP type byte. (Log 3 PRESUMED.) -/
def pldmType (body : List Byte) : Nat := fieldAt body 1 1 % 64

/-- A PLDM request of type 0 or 2 is answered from what POWER_READ reports; the recovery service answers none.
(Log 65 DESIGN CHOICE.) -/
def Wafer.pldm (w : Wafer) (m : MctpMsg) : Wafer :=
  if w.inRecovery || (pldmType m.body != 0 && pldmType m.body != 2) || (m.via == 0 && w.shp.eid == 0) || !w.dutyUp 1 then w
  else w.mctpAnswer { m with mtype := 1 } (Config.pldmBody m.body w.powerData)

/-- An MCTP message by its type. Until the endpoint ID is assigned, the endpoint on I3C answers only MCTP control. A vendor-defined
body is a command message after its 4-byte vendor ID. (Log 64 DESIGN CHOICE, 65 DESIGN CHOICE.) -/
def Wafer.mctpDispatch (w : Wafer) (m : MctpMsg) : Wafer :=
  if !w.dutyUp 1 then w
  else if m.mtype = 0 then w.mctpAnswer m (Config.mctpControlBody m.body w.shp.eid)
  else if m.via = 0 ∧ w.shp.eid = 0 then w
  else match m.mtype with
    | 0x01 => w.pldm m
    | 0x05 => w.spdmRequest (if m.via = 0 then 2 + 2 * m.src else 3 + 2 * m.src) m.body
    | 0x7F => w.deliverCommand (if m.via = 0 then 3 else 2) m.src (m.body.drop 4)
    | _ => w

/-- MCTP_MESSAGE. (Log 64 DESIGN CHOICE.) -/
def execMctpMessage (msg : MctpMsg) (s : State) : Host.Outcome State Fault Refusal := s.upd fun w => w.mctpDispatch msg

/-- SET_ENDPOINT_ID. (Log 65 DESIGN CHOICE.) -/
def execSetEndpointId (eid : Nat) (s : State) : Host.Outcome State Fault Refusal :=
  s.upd fun w => if w.dutyUp 1 then { w with shp := { w.shp with eid := eid % 256 } } else w

/-- PLDM_REQUEST. (Log 65 DESIGN CHOICE.) -/
def execPldmRequest (msg : MctpMsg) (s : State) : Host.Outcome State Fault Refusal := s.upd fun w => w.pldm msg

/-! ## The management lane -/

/-- A reply that reaches the interpreter: a child's final status for the ARM that was forwarded to it (R300). -/
def Wafer.childReply (w : Wafer) (src : Nat) (body : List Byte) : Wafer :=
  if w.job.phase ≠ .armed ∨ fieldAt body 0 2 ≠ 0x0103 ∨ fieldAt body 14 1 ≠ 0 then w
  else match indexOf? (fun (c : Nat × Option Nat) => c.1 == src && c.2.isNone) w.job.children with
    | none => w
    | some i => w.childStatus i (fieldAt body 2 2)

/-- A complete message at a unit of the service complex. -/
def Wafer.mlDeliver (w : Wafer) (m : MlMsg) : Wafer :=
  if !w.dutyUp 1 then w
  else match m.mtype with
    | 0 => w.deliverCommand 2 m.src m.body
    | 1 => if m.dst % 2 ^ 8 = 0 then w.childReply m.src m.body else w
    | 2 => w.mctpDispatch ⟨1, m.src, fieldAt m.body 0 1, m.body.drop 1⟩
    | _ => w.ntpTake m.src (Config.ntpOffset m.body w.wall)

/-- The units that receive, by message type (Table 13-6): commands the interpreter; replies the interpreter and the event sink; MCTP
the interpreter and the SPDM responder; NTP the time client. (Log 63 DEDUCED.) -/
def unitTakes (mtype unit : Nat) : Bool :=
  match mtype with
  | 0 => unit == 0
  | 1 => unit == 0 || unit == 3
  | 2 => unit == 0 || unit == 1
  | _ => unit == 2

/-- A frame for this module: its message is rebuilt in frame order and delivered when its last frame has come; a frame out of order,
or one past 8,192 bytes, discards the message. -/
def Wafer.mlGather (w : Wafer) (l : List Byte) : Wafer :=
  let dst := fieldAt l 0 5
  let src := fieldAt l 5 5
  let kind := fieldAt l 11 1
  let id := fieldAt l 12 2
  let frag := fieldAt l 14 2
  let same := fun (m : MlMsg) => m.src == src && m.dst == dst && m.msgid == id
  let held := w.shp.gathering.find? same
  let w := { w with shp := { w.shp with gathering := w.shp.gathering.filter fun m => !same m } }
  let so : Option MlMsg := if bit kind 4 then some ⟨src, dst, id, kind % 16, 0, []⟩ else held
  match so with
  | none => w
  | some m =>
    let m := { m with next := m.next + 1, body := m.body ++ l.drop 16 }
    if m.next ≠ frag + 1 ∨ m.mtype ≠ kind % 16 ∨ 8192 < m.body.length then w
    else if bit kind 5 then w.mlDeliver m
    else { w with shp := { w.shp with gathering := w.shp.gathering ++ [m] } }

/-- Relay a frame on a port, through egress requester 2, with one hop less. A port that does not carry VL2 is no route for it (R229).
(Log 63 DEDUCED.) -/
def Wafer.mlRelay (w : Wafer) (port : Nat) (l : List Byte) : Wafer :=
  if !planCarries w port 2 then w.count 0 Reg.shpMldrop
  else w.queueFrame port 2 2 0 (l.take 10 ++ natLE 1 (fieldAt l 10 1 - 1) ++ l.drop 11)

/-- What becomes of a management frame (R322, R323). (Log 63 DEDUCED.) -/
def Wafer.mlRoute (w : Wafer) (l : List Byte) : Wafer :=
  let dst := fieldAt l 0 5
  let field := dst / 2 ^ 8 % 2 ^ 7
  let place := dst / 2 ^ 15
  let mtype := fieldAt l 11 1 % 16
  let takes := unitTakes mtype (dst % 2 ^ 8)
  if fieldAt l 10 1 < 2 ∨ 4 ≤ mtype then w.count 0 Reg.shpMldrop
  else if field = 125 then
    match w.shp.routes.mcast.find? fun e => e.1 == place % 2 ^ 12 with
    | none => w.count 0 Reg.shpMldrop
    | some (_, here, ports) =>
      let w := ports.foldl (fun w i => w.mlRelay i l) w
      if !here then w else if takes then w.mlGather l else w.count 0 Reg.shpMldrop
  else if place = w.rd 0 Reg.shpPlacePlace then
    if field = 127 ∧ takes = true then w.mlGather l else w.count 0 Reg.shpMldrop
  else match w.mlPort place with
    | none => w.count 0 Reg.shpMldrop
    | some i => w.mlRelay i l

/-- MGMT_FRAME: a VL2 DATA frame that the hop has passed (R218, R220, R229). (Log 63 DEDUCED.) -/
def execMgmtFrame (port : Nat) (fr : Frame) (s : State) : Host.Outcome State Fault Refusal :=
  portStep port s fun w =>
    let w := w.rxTook port 2 0 fr.payload
    if !portCarries w port 2 || (linkState w port != 5 && linkState w port != 6) then w.count (portBase port) Reg.tpDropvl
    else w.mlRoute fr.payload

end Sys2Proof.Machine
end

