-- ==== Sys2Proof/Machine/CmdTime.lean ====
section
/-!
DEFINITION. Sys2Proof/Machine/CmdTime.lean: the commands of family 0x04xx (Table 12-12): the schedule (R34), the tick rate (R36),
time sources (R49 to R51) and servers (R56).
-/

namespace Sys2Proof.Machine

/-- A period within R32. -/
def periodOk (p : Nat) : Bool := decide (31250 ≤ p ∧ p ≤ 500000)

/-- TICK_SCHEDULE (R34): E, B, P. The tick then current takes the number the new schedule gives it, and the fields that run
arm their ticks by it at once. (Log 73 PRESUMED.) -/
def tickScheduleSpec : CmdSpec :=
  { opcode := 0x0401, len := lenIs 18
    sum := some fun w _ => regSum w [lckBase + 0x10, lckBase + 0x18, lckBase + 0x20, lckBase + 0x28, lckBase + 0x30]
    check := fun w p =>
      if !periodOk (fieldAt p.params 14 4) then (0x0103, 78) else if w.armedOrRunning then (0x0401, 0) else (0, 0)
    act := fun w fl =>
      let w := (w.wrs lckBase [(Reg.lckEpochEpoch, fieldAt fl.p.params 0 8), (Reg.lckBasetickBase, fieldAt fl.p.params 8 6),
        (Reg.lckPeriodPeriod, fieldAt fl.p.params 14 4)]).clearPending
      let w := w.wr lckBase Reg.lckTickTick (w.tickAt w.countNow)
      let w := { w with time := { w.time with changed := none } }
      { w := (w.time.fields.map (·.1)).foldl (fun w f => if w.runs f then w.loadReplica f else w) w } }

def execTickSchedule (p : Packet) (s : State) : Host.Outcome State Fault Refusal := commandStep tickScheduleSpec p s

/-- Every field of the placement reaches the floor that a period gives the loaded program (R36, R44). -/
def Wafer.rateFits (w : Wafer) (period : Nat) : Bool :=
  match w.job.image with
  | none => true
  | some img => match gearFloor img.bmax period with
    | none => false
    | some f => w.topsReach w.job.placement f

/-- TICK_RATE_CHANGE (R36): P′ and T. T lies at least 8 ticks after the accepting tick, and still ahead when it is staged. -/
def tickRateChangeSpec : CmdSpec :=
  { opcode := 0x0402, len := lenIs 10, sum := some fun w _ => regSum w [lckBase + 0x28, lckBase + 0x30]
    accept := fun w p =>
      let d := tickDiff (fieldAt p.params 4 6) w.tick
      if !periodOk (fieldAt p.params 0 4) then (0x0103, 64) else if 8 ≤ d ∧ d < 2 ^ 47 then (0, 0) else (0x0401, 0)
    check := fun w p =>
      let t := fieldAt p.params 4 6
      let other := match w.pendingRate with
        | some (_, t') => t' != t
        | none => false
      if !periodOk (fieldAt p.params 0 4) then (0x0103, 64)
      else if other || !tickFuture t w.tick then (0x0401, 0)
      else if w.rateFits (fieldAt p.params 0 4) then (0, 0) else (0x0202, 0)
    act := fun w fl =>
      { w := w.wrs lckBase [(Reg.lckPendingPeriod, fieldAt fl.p.params 0 4), (Reg.lckPendingValid, 1),
          (Reg.lckPendtickTick, fieldAt fl.p.params 4 6)] } }

def execTickRateChange (p : Packet) (s : State) : Host.Outcome State Fault Refusal := commandStep tickRateChangeSpec p s

/-! ## Time sources -/

/-- LCK_SRC takes a new value: a change of the phase source or of its ports starts the acquisition anew (Table 2-11). -/
def Wafer.setTimeSource (w : Wafer) (v : Nat) : Wafer :=
  let old := w.reg64 (lckBase + Reg.lckSrcPhase.off)
  let w := w.wrs lckBase [(Reg.lckSrcPhase, v), (Reg.lckSrcFreq, bits v 2 2), (Reg.lckSrcUpstream, bits v 8 8), (Reg.lckSrcAlt1, bits v 16 8),
    (Reg.lckSrcAlt2, bits v 24 8)]
  if bits old 0 2 = bits v 0 2 ∧ bits old 8 24 = bits v 8 24 then w
  else
    let up := if bits v 0 2 = 1 then bits v 8 8 else 0xFF
    w.wrs lckBase [(Reg.lckSyncstatActive, up),
      (Reg.lckSyncstatState, if bits v 0 2 = 2 ∨ (bits v 0 2 = 1 ∧ up ≠ 0xFF) then 1 else 0)]

/-- A port's asymmetry (R51), shown when LCK_PDSEL selects the port. -/
def Wafer.setAsym (w : Wafer) (i v : Nat) : Wafer :=
  let w := w.setPortTime i { w.portTime i with asym := v }
  if w.rd lckBase Reg.lckPdselPort = i then w.wr lckBase Reg.lckPasymAsym v else w

/-- A port index of LCK_SRC. -/
def srcPortOk (i : Nat) : Bool := decide (i < 176 ∨ i = 0xFF)

/-- TIME_SOURCE (R49 to R51, R55): an LCK_SRC image, then port asymmetries. PPSSEED in the image arms a load.
(Log 73 PRESUMED.) -/
def timeSourceSpec : CmdSpec :=
  { opcode := 0x0403, len := fun n => decide (8 ≤ n ∧ n ≤ 712 ∧ n % 4 = 0)
    check := fun _ p =>
      let v := fieldAt p.params 0 8
      if bits v 5 3 ≠ 0 ∨ bits v 0 2 = 3 ∨ bits v 2 2 = 3 then (0x0103, 64)
      else if 2 ^ 32 ≤ v then (0x0103, 68)
      else if !srcPortOk (bits v 8 8) then (0x0103, 65)
      else if !srcPortOk (bits v 16 8) then (0x0103, 66)
      else if !srcPortOk (bits v 24 8) then (0x0103, 67)
      else (0, 0)
    act := fun w fl =>
      let v := fieldAt fl.p.params 0 8
      let w := w.setTimeSource v
      let w := (List.range ((fl.p.params.length - 8) / 4)).foldl (fun w i => w.setAsym i (fieldAt fl.p.params (8 + 4 * i) 4)) w
      { w := if bit v 4 then w.askSeed fl.p.path v else w } }

def execTimeSource (p : Packet) (s : State) : Host.Outcome State Fault Refusal := commandStep timeSourceSpec p s

/-- TIME_SERVERS (R56): up to four endpoint addresses. -/
def timeServersSpec : CmdSpec :=
  { opcode := 0x0404, len := fun n => decide (n ≤ 20 ∧ n % 5 = 0), sum := some fun w _ => digest12 (w.time.servers.flatMap fun m => natLE 5 m)
    act := fun w fl =>
      let l := (List.range (fl.p.params.length / 5)).map fun i => fieldAt fl.p.params (5 * i) 5
      { w := { w with time := { w.time with servers := l } } } }

def execTimeServers (p : Packet) (s : State) : Host.Outcome State Fault Refusal := commandStep timeServersSpec p s

/-- TIME_READ: LCK_COUNT, LCK_TICK, LCK_WALL, LCK_SYNCSTAT. (Log 73 PRESUMED.) -/
def timeReadSpec : CmdSpec :=
  { opcode := 0x0405, now := true, reads := true, len := lenIs 0
    act := fun w _ =>
      { w := w
        data := natLE 8 w.countNow ++ natLE 8 (w.reg64 (lckBase + Reg.lckTickTick.off)) ++ natLE 8 (w.rd lckBase Reg.lckWallWall) ++
          natLE 8 (w.reg64 (lckBase + Reg.lckSyncstatOffset.off)) } }

def execTimeRead (p : Packet) (s : State) : Host.Outcome State Fault Refusal := commandStep timeReadSpec p s

end Sys2Proof.Machine
end

