-- ==== Sys2Proof/Machine/Gears.lean ====
section
/-!
DEFINITION. Sys2Proof/Machine/Gears.lean: the interlock ahead of a boundary (R338), the cap loop between boundaries (R340), and
the brake (R341 to R343).
-/

namespace Sys2Proof.Machine

/-- The gear of the coming tick is fixed for one field: a raise slews its rail now. -/
def Wafer.prepareField (w : Wafer) (f : Nat) : Wafer :=
  let t := w.gearTarget f
  let p := w.fieldPower f
  if t ≤ w.applied f then
    if p.raising.isSome then (w.dropRaise f).setRail f (w.railFor f (w.applied f)) else w
  else if p.raising = some t then w
  else (w.setFieldPower f { p with raising := some t, railReady := false }).setRail f (w.railFor f t)

/-- GEAR_PREPARE (R338): 16 µs ahead of a boundary. A raise is held back while the brake holds (R26). -/
def execGearPrepare (s : State) : Host.Outcome State Fault Refusal :=
  s.upd fun w => if w.braking then w else w.runFields.foldl (fun w f => w.prepareField f) w

/-- RAIL_READY (R338): the rail of a raise reports ready; the raise switches at the next boundary. -/
def execRailReady (field : Nat) (s : State) : Host.Outcome State Fault Refusal :=
  s.updIf (decide (field < 112)) fun w =>
    let p := w.fieldPower field
    if p.raising.isSome then w.setFieldPower field { p with railReady := true } else w

/-- The cap loop applies the brake with the cap as its level (R340). -/
def Wafer.capBrake (w : Wafer) : Wafer := if (w.power.levels.getD 3 none).isSome then w else w.setSource 3 (some w.loopCap)

/-- CAP_LOOP_SAMPLE (R340): every 10 µs, with the measurement that falls due then in the place of an INPUT_SAMPLE; a 10 µs average above
the cap by more than 10 % brakes at once. (Log 51 DEDUCED.) -/
def execCapLoopSample (volt curr : Nat) (s : State) : Host.Outcome State Fault Refusal :=
  s.upd fun w =>
    let w := w.takeSample volt curr
    if 11 * microwatts w.loopCap < 10 * w.power.avg10 then w.capBrake else w

/-- CAP_PRESSURE has stood for GRACE ms, or comes to have within the tick in progress: `passed` moves at boundaries. -/
def Wafer.graceOver (w : Wafer) : Bool :=
  w.rd pwrBase Reg.pwrStatCappress == 1 &&
    decide (w.power.pressAt + 1250000 * w.rd pwrBase Reg.pwrCapGrace ≤ w.time.passed + w.period)

/-- CAP_GRACE_EXPIRY (R340). (Log 51 DEDUCED.) -/
def execCapGraceExpiry (s : State) : Host.Outcome State Fault Refusal :=
  s.upd fun w => if w.graceOver then w.capBrake else w

/-- BRAKE_N_ASSERT (R341). -/
def execBrakeNAssert (s : State) : Host.Outcome State Fault Refusal :=
  s.upd fun w => if (w.power.levels.getD 0 none).isSome then w else w.setSource 0 (some (pctOf w.brkpct w.cap))

/-- BRAKE_N_DEASSERT (R343). -/
def execBrakeNDeassert (s : State) : Host.Outcome State Fault Refusal := s.upd fun w => w.setSource 0 none

def Wafer.pulse (w : Wafer) : Nat := w.rd pwrBase Reg.pwrBrakePulse

/-- BRAKE_SHORT, once in an application of the brake. (Log 52 DESIGN CHOICE.) -/
def Wafer.brakeShort (w : Wafer) : Wafer :=
  if w.power.short then w
  else ({ w with power := { w.power with short := true } } : Wafer).powerMgmt 2 0 detailNone

/-- BRAKE_TRIM (R342), dt counts after the last event: the first sample sets the pulse-removal fraction, each later one moves it by an eighth. A level that has
moved sets it anew, with the sample scaled back from the fraction in force. (Log 52 DESIGN CHOICE.) -/
def execBrakeTrim (dt : Nat) (s : State) : Host.Outcome State Fault Refusal :=
  s.upd fun w =>
    let w := w.elapseWithin dt
    match w.brakeLevel with
    | none => w
    | some watts =>
      let level := microwatts watts
      let avg10 := w.power.avg10
      let k0 := w.pulse
      if w.power.fresh then
        let w := { w with power := { w.power with fresh := false } }
        match (List.range 8).find? fun k => decide (avg10 * (8 - k) ≤ level * (8 - k0)) with
        | some k => w.wr pwrBase Reg.pwrBrakePulse k
        | none => (w.wr pwrBase Reg.pwrBrakePulse 7).brakeShort
      else if level < avg10 then
        if k0 < 7 then w.wr pwrBase Reg.pwrBrakePulse (k0 + 1) else w.brakeShort
      else if avg10 * 100 < 98 * level ∧ 0 < k0 then w.wr pwrBase Reg.pwrBrakePulse (k0 - 1)
      else w

/-- BRAKE_SOURCE_RELEASE (R343): the release condition of undervoltage (2), the cap loop (3) or overpower (4) has held for
1 ms. -/
def execBrakeSourceRelease (src : Nat) (s : State) : Host.Outcome State Fault Refusal :=
  s.updIf (decide (2 ≤ src ∧ src ≤ 4)) fun w => w.setSource src none

/-! ## Register writes of the PWR block -/

/-- A register write that acts at once: recorded with the register's value before and after, or ignored with a full buffer. -/
def Wafer.writeNow (w : Wafer) (path off : Nat) (f : Wafer → Wafer) : Wafer :=
  if w.tallyFull then w
  else w.tallyReg path 2 off (w.reg64 off) ((f w).reg64 off) |> f

/-- A register write that waits for step 7 of the next boundary (R292). -/
def Wafer.writeLate (w : Wafer) (path off value lanes : Nat) (refused : Option Nat := none) : Wafer :=
  if w.tallyFull then w else { w with time := { w.time with late := w.time.late ++ [⟨path, off, value, lanes, w.rd lckBase Reg.lckPdselPort, refused⟩] } }

/-- PWR_BRAKE_APPLY (R341, R343): APPLY and LEVEL written together. -/
def execPwrBrakeApply (path : Nat) (apply : Bool) (level : Nat) (s : State) : Host.Outcome State Fault Refusal :=
  s.upd fun w => w.writeNow path (pwrBase + Reg.pwrBrakeApply.off) fun w => w.commandBrake apply (level % 128)

/-- A write of LEVEL alone: it moves the command source while APPLY is 1. -/
def Wafer.brakeLevelWrite (w : Wafer) (level : Nat) : Wafer :=
  if w.rd pwrBase Reg.pwrBrakeApply = 1 then w.commandBrake true (level % 128) else w.wr pwrBase Reg.pwrBrakeLevel level

/-- PWR_BRAKE_LEVEL (R342). -/
def execPwrBrakeLevel (path level : Nat) (s : State) : Host.Outcome State Fault Refusal :=
  s.upd fun w => w.writeNow path (pwrBase + Reg.pwrBrakeLevel.off) fun w => w.brakeLevelWrite level

/-- PWR_CAP_WRITE (R339): CAP, BRKPCT and GRACE, at the next boundary. -/
def execPwrCapWrite (path : Nat) (value : BitVec 64) (s : State) : Host.Outcome State Fault Refusal :=
  s.upd fun w => w.writeLate path (pwrBase + Reg.pwrCapCap.off) value.toNat 0xFF

end Sys2Proof.Machine
end

