-- ==== Sys2Proof/Machine/Rings.lean ====
section
/-!
DEFINITION. Sys2Proof/Machine/Rings.lean: the reply rings of the two CXL ports (R293, R295, Table 12-13).
-/

namespace Sys2Proof.Machine

/-! ## The ring -/

/-- Entries of a port's ring. -/
def Wafer.ringSize (w : Wafer) (x : Nat) : Nat := 2 ^ w.rd (cmdBase x) Reg.cmdRingcfgRsize

/-- Entries written and not consumed; head and tail count modulo twice the size. -/
def Wafer.ringUsed (w : Wafer) (x : Nat) : Nat :=
  let m := 2 * w.ringSize x
  (w.rd (cmdBase x) Reg.cmdRingheadHead % m + m - w.rd (cmdBase x) Reg.cmdRingtailTail % m) % m

def Wafer.ringFull (w : Wafer) (x : Nat) : Bool := decide (w.ringSize x ≤ w.ringUsed x)

/-- PHASE of the entry at the head: 1 on the first pass, flipping on every wrap. -/
def Wafer.ringPhase (w : Wafer) (x : Nat) : Nat := 1 - w.rd (cmdBase x) Reg.cmdRingheadHead / w.ringSize x % 2

/-- Write one entry at the head and advance it; the tick's MSI-X becomes due when IRQ is 1. -/
def Wafer.ringPut (w : Wafer) (x : Nat) (e : Reply) : Wafer :=
  let b := cmdBase x
  let n := w.ringSize x
  let h := w.rd b Reg.cmdRingheadHead
  let w := w.emit (.ringEntry x (w.rd b Reg.cmdRingbaseBase * 2 ^ 12 + h % n * 32) e (w.ringPhase x))
  let w := w.wr b Reg.cmdRingheadHead ((h + 1) % (2 * n))
  let c := w.cmdPort x
  w.setCmdPort x { c with irqDue := c.irqDue || w.rd b Reg.cmdRingcfgIrq == 1 }

/-- RHELD follows the replies held behind a full ring, saturating at 511. -/
def Wafer.showRheld (w : Wafer) (x : Nat) : Wafer := w.wr (cmdBase x) Reg.cmdSeqRheld (min (w.cmdPort x).held.length 511)

/-- The entry of an event (Table 12-6). -/
def Wafer.eventEntry (w : Wafer) (x : Nat) (e : Event) : Reply :=
  ⟨0xFFFF, e.code, (w.cmdPort x).evCount % 2 ^ 32, w.tick, 2, false, 0, 0, e.detail⟩

/-- Write an event's entry; the port's event count goes on. (Log 59 DESIGN CHOICE.) -/
def Wafer.eventPut (w : Wafer) (x : Nat) (e : Event) : Wafer :=
  let w := w.ringPut x (w.eventEntry x e)
  let c := w.cmdPort x
  w.setCmdPort x { c with evCount := c.evCount + 1 }

/-- An event posted to a port at step 3 (R295): written when nothing waits ahead of it and the ring has room; else it waits, up to
256 of them, and further ones are dropped and counted. (Log 59 DESIGN CHOICE.) -/
def Wafer.postTo (w : Wafer) (x : Nat) (e : Event) : Wafer :=
  let b := cmdBase x
  if w.rd b Reg.cmdRingcfgEn = 0 ∨ w.rd b Reg.cmdRingcfgEvents = 0 then w
  else
    let c := w.cmdPort x
    if c.outgoing.isEmpty && c.held.isEmpty && c.events.isEmpty && !w.ringFull x then w.eventPut x e
    else if c.events.length < 256 then w.setCmdPort x { c with events := c.events ++ [e] }
    else w.count b Reg.cmdEvlost

/-- Write one reply: its data first, then its entry; a final reply ends its packet's flight (R289). (Log 59 DESIGN CHOICE.) -/
def Wafer.replyPut (w : Wafer) (x : Nat) (r : RingItem) : Wafer :=
  let w := if r.data.isEmpty then w else w.emit (.hostWrite x r.addr r.data)
  (w.ringPut x r.entry).inflightCount

/-- The port writes its next entry: a reply held behind the ring, then one produced since, then a waiting event. With the ring
full, every reply produced is held, in order. (Log 59 DESIGN CHOICE.) -/
def Wafer.ringStep (w : Wafer) (x : Nat) : Wafer :=
  let c := w.cmdPort x
  if w.rd (cmdBase x) Reg.cmdRingcfgEn = 0 then w
  else if w.ringFull x then (w.setCmdPort x { c with held := c.held ++ c.outgoing, outgoing := [] }).showRheld x
  else match c.held, c.outgoing, c.events with
    | r :: l, _, _ => ((w.setCmdPort x { c with held := l }).replyPut x r).showRheld x
    | [], r :: l, _ => (w.setCmdPort x { c with outgoing := l }).replyPut x r
    | [], [], e :: l => (w.setCmdPort x { c with events := l }).eventPut x e
    | [], [], [] => w

/-- REPLY_WRITE (R293). Replies are pair 0's duty (Table 13-1): none is written while it is not served. (Log 59 DESIGN CHOICE.) -/
def execReplyWrite (port : Nat) (s : State) : Host.Outcome State Fault Refusal :=
  s.updIf (decide (port < 2)) fun w => if w.dutyUp 0 then w.ringStep port else w

/-! ## The ring's registers -/

/-- CMD_RINGTAIL_WRITE: the tail moves; held replies get room. -/
def execCmdRingtailWrite (path port tail : Nat) (s : State) : Host.Outcome State Fault Refusal :=
  s.updIf (decide (port < 2)) fun w => w.writeNow path (cmdBase port + Reg.cmdRingtailTail.off) fun w =>
    w.wr (cmdBase port) Reg.cmdRingtailTail tail

/-- A write of CMD_RINGCFG's low byte: RSIZE is brought into 6 to 16, and a write of 1 to EN resets head, tail and phase. -/
def Wafer.ringConfig (w : Wafer) (x v : Nat) : Wafer :=
  let b := cmdBase x
  let w := w.wrs b [(Reg.cmdRingcfgRsize, max 6 (min 16 (bits v 0 5))), (Reg.cmdRingcfgEn, bits v 5 1),
    (Reg.cmdRingcfgIrq, bits v 6 1), (Reg.cmdRingcfgEvents, bits v 7 1)]
  if bit v 5 then w.wrs b [(Reg.cmdRingheadHead, 0), (Reg.cmdRingtailTail, 0)] else w

/-- RING_ENABLE. -/
def execRingEnable (path port : Nat) (value : BitVec 64) (s : State) : Host.Outcome State Fault Refusal :=
  s.updIf (decide (port < 2)) fun w => w.writeNow path (cmdBase port + Reg.cmdRingcfgEn.off) fun w => w.ringConfig port value.toNat

end Sys2Proof.Machine
end

