-- ==== Sys2Proof/Machine/RegWrite.lean ====
section
/-!
DEFINITION. Sys2Proof/Machine/RegWrite.lean: host writes to registers (R6 to R10, R284, R292, R316), whole or in byte lanes, and
JTAG (R392).
-/

namespace Sys2Proof.Machine

/-! ## Byte lanes -/

/-- A field has a byte among the lanes of an access. -/
def touched (lanes : Nat) (f : Fld) : Bool := (List.range 8).any fun i => bit lanes i && decide (f.lo < 8 * i + 8 ∧ 8 * i < f.lo + f.len)

/-- The value written, with the bytes outside the lanes taken from another value. -/
def mergeLanes (lanes value other : Nat) : Nat :=
  leNat ((List.range 8).map fun i => BitVec.ofNat 8 (bits (if bit lanes i then value else other) (8 * i) 8))

/-! ## One field -/

/-- Values outside a field's range set its nearer end. (Log 62 DESIGN CHOICE.) -/
def clampField (b : Blk) (rel lo v : Nat) : Nat :=
  match b with
  | .shp => if rel = Reg.shpSnapctlInterval.off then min v 16 else v
  | .stk => if rel = Reg.stkScrubHours.off then max 1 (min 48 v) else v
  | .arb => if rel = Reg.arbDogLimit.off then max 1024 (min 16777216 v) else v
  | .hlt => if rel = Reg.hltCtlPeriod.off ∧ lo = Reg.hltCtlPeriod.lo then max 1 (min 72 v) else v
  | .pwr => if rel = Reg.pwrCapBrkpct.off ∧ lo = Reg.pwrCapBrkpct.lo then max 1 (min 100 v) else v
  | _ => v

/-- A write that its field ignores (R316): a locked field (R9), a job-time field, or a value that the field does not take.
(Log 62 DESIGN CHOICE, 71 DESIGN CHOICE.) -/
def Wafer.fieldRefuses (w : Wafer) (b : Blk) (rel lo v : Nat) : Bool :=
  match b with
  | .tirm => w.armedOrRunning
  | .tir => rel == Reg.tirSplitScratch.off && (w.jobHolds || decide (16 < v))
  | .hlt => rel == Reg.hltCtlService.off && lo == Reg.hltCtlService.lo && w.armedOrRunning
  | .tpx => rel == Reg.tpLinkctlHold.off && (lo == Reg.tpLinkctlHold.lo || lo == Reg.tpLinkctlLoopback.lo) && w.armedOrRunning
  | .pwr => (rel == Reg.pwrCapCap.off && lo == Reg.pwrCapCap.lo && decide (v < 12000)) || (rel == Reg.pwrGearCmd.off && !isGear v)
  | _ => false

/-- LCK_PDSEL selects the port that LCK_PDLY and LCK_PASYM show. -/
def Wafer.selectPort (w : Wafer) (v : Nat) : Wafer :=
  w.wrs lckBase [(Reg.lckPdselPort, v), (Reg.lckPdlyDelay, (w.portTime v).delay), (Reg.lckPasymAsym, (w.portTime v).asym)]

/-- TIR_SPLIT.SCRATCH: frames the scratch part takes are lost. (Log 62 DESIGN CHOICE.) -/
def Wafer.setScratch (w : Wafer) (base v : Nat) : Wafer :=
  let w := w.wr base Reg.tirSplitScratch v
  let cl := (base - 0x4000000) / 0x100000 * 4 + ((base - 0x4000000) % 0x100000 - 0x10000) / 0x10000
  let t := w.tier cl
  w.setTier cl { t with frames := t.frames.filter fun f => decide (f.num < 16 - v) }

/-- A field takes a written value: an RW or RWL field is set, a W1C bit is cleared by 1, a WO bit acts on 1. `sel` is the port
LCK_PDSEL selects for this write. -/
def Wafer.setField (w : Wafer) (b : Blk) (base : Nat) (d : FDesc) (v sel : Nat) : Wafer :=
  let rel := d.fld.off - base
  let f : Fld := { d.fld with off := rel }
  match d.ty with
  | .ro => w
  | .w1c => if v = 1 then w.wr base f 0 else w
  | .wo =>
    if v = 0 then w
    else if b = .arb then { w with cmd := { w.cmd with swaps := setInsert w.cmd.swaps base } }
    else { w with cmd := { w.cmd with clears := w.cmd.clears ++ [d.fld.off] } }
  | _ =>
    let v := clampField b rel f.lo v
    if b = .lck ∧ rel = Reg.lckPdselPort.off then w.selectPort v
    else if b = .lck ∧ rel = Reg.lckPasymAsym.off then w.setAsym sel v
    else if b = .pwr ∧ rel = Reg.pwrCapCap.off ∧ f.lo = 0 then w.setCap v
    else if b = .tir ∧ rel = Reg.tirSplitScratch.off then w.setScratch base v
    else w.wr base f v

/-! ## One register -/

/-- The module after a write of a register's touched fields, and whether any of them took effect and any was refused. A register
whose fields act together is written as a whole. -/
def Wafer.setReg (w : Wafer) (off value lanes sel : Nat) : Wafer × Bool × Bool :=
  match blockOf off with
  | none => (w, false, false)
  | some (b, base) =>
    let rel := off - base
    let merged := mergeLanes lanes value (w.reg64 off)
    let bare := mergeLanes lanes value 0
    let l := (regFields off).filter fun d => d.ty != .ro && touched lanes d.fld
    if l.isEmpty then (w, false, false)
    else if b = .cmdp ∧ rel = Reg.cmdRingcfgEn.off then (w.ringConfig ((base - 0x100000) / 0x1000) merged, true, false)
    else if b = .pwr ∧ rel = Reg.pwrBrakeApply.off then (w.commandBrake (bit merged 0) (bits merged 1 7), true, false)
    else if b = .lck ∧ rel = Reg.lckSrcPhase.off then (w.setTimeSource merged, true, false)
    else if b = .tir ∧ rel = Reg.tirHeatPromote.off then
      let cl := (base - 0x4000000) / 0x100000 * 4 + ((base - 0x4000000) % 0x100000 - 0x10000) / 0x10000
      (w.setTier cl { w.tier cl with heatNew := some (mergeLanes lanes value ((w.tier cl).heatNew.getD (w.reg64 off))) }, true, false)
    else
      let val := fun (d : FDesc) => bits (match d.ty with
        | .rw | .rwl => merged
        | _ => bare) d.fld.lo d.fld.len
      let bad := fun (d : FDesc) => (d.ty == .rw || d.ty == .rwl) && w.fieldRefuses b rel d.fld.lo (val d)
      let good := l.filter fun d => !bad d
      (good.foldl (fun w d => w.setField b base d (val d) sel) w, !good.isEmpty, l.any bad)

/-- A register write takes effect: recorded as KIND 2 with the register as it then stands, and as KIND 3 for the fields that refuse
it; ignored while the tally buffer is full (R317). -/
def Wafer.regWriteAct (w : Wafer) (path off value lanes sel : Nat) : Wafer :=
  if w.tallyFull then w
  else
    let r := w.setReg off value lanes sel
    let old := w.reg64 off
    let w := if r.2.1 then w.tallyReg path 2 off old (r.1.reg64 off) else w
    let w := if r.2.2 then w.tallyReg path 3 off old (mergeLanes lanes value old) else w
    (w.setReg off value lanes sel).1

/-! ## When a write acts -/

/-- Registers whose RW fields take effect at step 7 of the next boundary (chapters 2, 9, 14 and 15, R222). -/
def lateRegister (b : Blk) (rel : Nat) : Bool :=
  match b with
  | .lck => rel == Reg.lckSrcPhase.off || rel == Reg.lckPasymAsym.off || rel == Reg.lckPpsloadSeed.off
  | .pwr => rel == Reg.pwrCapCap.off || rel == Reg.pwrGearCmd.off
  | .hlt => rel == Reg.hltCtlService.off
  | .tpx => rel == Reg.tpLinkctlHold.off || rel == Reg.tpExphash0Hash.off || rel == Reg.tpExphash1Hash.off ||
      rel == Reg.tpExphash2Hash.off || rel == Reg.tpExphash3Hash.off || rel == Reg.tpExpidValid.off
  | _ => false

/-- A host write reaches a register (R8). A write to an unassigned offset is ignored (R284); PPSSEED acts apart from the rest of
LCK_SRC (R55). (Log 62 DESIGN CHOICE.) -/
def Wafer.regWrite (w : Wafer) (path off value lanes : Nat) : Wafer :=
  match blockOf off with
  | none => w
  | some (b, base) =>
    if lateRegister b (off - base) then
      if (regFields off).any fun d => d.ty == .rw && touched lanes d.fld then
        let seed := b == .lck && off - base == Reg.lckSrcPpsseed.off && bit lanes 0 && bit value 4
        let w := w.writeLate path off value lanes (if seed && w.armedOrRunning then some w.tick else none)
        if seed then w.writeSeed path value else w
      else w
    else w.regWriteAct path off value lanes (w.rd lckBase Reg.lckPdselPort)

/-- PPSSEED (R55): a write of LCK_SRC with the bit set. -/
def execPpsseed (write : SeedWrite) (s : State) : Host.Outcome State Fault Refusal :=
  s.upd fun w => w.regWrite write.path (lckBase + Reg.lckSrcPpsseed.off) ((write.value ||| 16#64).toNat) 0xFF

/-- REGISTER_WRITE. -/
def execRegisterWrite (path off : Nat) (value : BitVec 64) (lanes : Nat) (s : State) : Host.Outcome State Fault Refusal :=
  s.upd fun w => w.regWrite path off value.toNat lanes

/-- The port index of a TPx register. (Log 62 DESIGN CHOICE.) -/
def latePort (off : Nat) : Option Nat :=
  match blockOf off with
  | some (.tpx, base) => some ((base - 0x1000000) / 0x10000)
  | _ => none

/-- A write that waited acts; a PPSSEED bit of it that was refused when it came gets its KIND 3 entry after the KIND 2 entry of the
fields that take effect (R316), with the tick in which it was refused. -/
def Wafer.lateAct (w : Wafer) (x : LateWrite) : Wafer :=
  let full := w.tallyFull
  let old := w.reg64 x.off
  let w := w.regWriteAct x.path x.off x.value x.lanes x.sel
  match x.refused with
  | none => w
  | some t => if full then w else w.tallyAt t x.path 3 (x.off / 2 ^ 20) 0 x.off 0 old x.value

/-- Step 7 of a boundary: the writes that waited act, in order (R292); then the ports they touched follow their new expected entry
(R222) and their HOLD bit. (Log 31 DESIGN CHOICE, 62 DESIGN CHOICE.) -/
def Wafer.applyLate (w : Wafer) : Wafer :=
  let l := w.time.late
  let w := { w with time := { w.time with late := [] } }
  let w := l.foldl (fun w x => w.lateAct x) w
  let exp := l.filterMap fun x => if x.off % 0x1000 = Reg.tpLinkctlHold.off then none else latePort x.off
  let ctl := l.filterMap fun x => if x.off % 0x1000 = Reg.tpLinkctlHold.off then latePort x.off else none
  let w := (exp.foldl setInsert []).foldl (fun w i => w.expectApplied i) w
  (ctl.foldl setInsert []).foldl (fun w i => w.relight i) w

/-! ## JTAG (R392) -/

/-- JTAG_INSTRUCTION: boundary scan and reads are allowed at all times and change nothing; a built-in self-test of a unit that an
armed or running job holds is refused, with no effect. (Log 68 DESIGN CHOICE.) -/
def execJtagInstruction (op : JtagOp) (s : State) : Host.Outcome State Fault Refusal :=
  match op with
  | .boundaryScan => s.upd fun w => w
  | .readReg off => s.upd fun w => w.readReg off
  | .writeReg off value => s.upd fun w => w.regWrite 7 off value.toNat 0xFF
  | .bistField f =>
    if 112 ≤ f then .fault .noSuchUnit
    else if s.w.armedOrRunning && s.w.fieldHeld f then s.upd fun w => w else .refused .jtagUnspecified
  | .bistStack k =>
    if 32 ≤ k then .fault .noSuchUnit else if s.w.armedOrRunning then s.upd fun w => w else .refused .jtagUnspecified
  | .bistPort i =>
    if 176 ≤ i then .fault .noSuchUnit else if s.w.portInJob i then s.upd fun w => w else .refused .jtagUnspecified

end Sys2Proof.Machine
end

