-- ==== Sys2Proof/Machine/Reduce.lean ====
section
/-!
DEFINITION. Sys2Proof/Machine/Reduce.lean: what arrives for chains and collectives, and how they end (chapter 11). A frame that comes
before its chain or its step has begun waits in the hop receiver's buffer.
-/

namespace Sys2Proof.Machine

/-! ## Chains -/

/-- The entry of which a port is an input. -/
def Wafer.chainInto (w : Wafer) (chain port : Nat) : Option ChainEntry :=
  w.reduce.chains.find? fun e => e.chain == chain && e.inputs.contains port

/-- GRAD (R266, R267): a frame that comes before its chain starts stays in the buffer, and holds its credit (R274). -/
def execGrad (port : Nat) (fr : List Byte) (s : State) : Host.Outcome State Fault Refusal :=
  portStep port s fun w =>
    let chain := fieldAt fr 0 2
    if !laneOpen w port 1 then w.rxTook port 1 0 fr
    else match w.chainInto chain port with
      | none => (w.count (jncBase port) Reg.jncDropchain).rxTook port 1 0 fr
      | some _ =>
        match indexOf? (fun (r : ChainRun) => r.entry.chain == chain) w.reduce.runs with
        | none => w.rxKeep port 1 0 fr
        | some i =>
          match indexOf? (fun (x : ChainIn) => x.port == port) (w.reduce.runs.getD i default).ins with
          | none => w
          | some k => (w.gradInput i k fr).advanceChains

/-- The LAST frame of a run has left its output port. -/
def Wafer.runLeft (w : Wafer) (r : ChainRun) : Bool :=
  r.lastSent && !(w.port r.entry.out).egress.any fun f => f.requester == 5 && fieldAt f.payload 0 2 == r.entry.chain

/-- CHAIN_COMPLETE (R268). -/
def execChainComplete (port chain : Nat) (s : State) : Host.Outcome State Fault Refusal :=
  portStep port s fun w =>
    match w.reduce.runs.find? fun r => r.entry.chain == chain && r.entry.out == port with
    | none => w
    | some r =>
      if w.runLeft r then
        let w := { w with reduce := { w.reduce with runs := w.reduce.runs.filter fun x => x.entry.chain != chain } }
        (w.showRuns port).unitSignal (portRunit port) r.entry.nx r.entry.ny r.entry.sem
      else w

/-- A path's DELAY, in µs, plus 2 ticks has passed since a time (R269, R280). -/
def Wafer.delayPassed (w : Wafer) (delay since : Nat) : Bool := decide (since + 1250 * delay + 2 * w.period ≤ w.time.passed)

/-- CHAIN_STALL (R269). -/
def execChainStall (port chain : Nat) (s : State) : Host.Outcome State Fault Refusal :=
  portStep port s fun w =>
    match w.reduce.runs.find? fun r => r.entry.chain == chain && r.entry.out == port with
    | none => w
    | some r =>
      match r.ins.find? fun x => decide (x.next < r.entry.nelem) && w.delayPassed r.entry.delay x.lastAt with
      | none => w
      | some x => w.chainFault r.entry 3 x.next

/-- VERDICT (R273): taken by the tail of a primary chain, on its output port, while the job runs. -/
def execVerdict (port : Nat) (fr : List Byte) (s : State) : Host.Outcome State Fault Refusal :=
  portStep port s fun w =>
    let w := w.rxTook port 1 0 fr
    if linkState w port ≠ 6 ∨ w.portFenced port = true then w
    else
      let chain := fieldAt fr 0 2
      match w.reduce.chains.find? fun e => e.chain == chain && e.out == port && e.tail && !e.isShadow with
      | none => w.count (jncBase port) Reg.jncDropchain
      | some e =>
        if !w.running then w.count (jncBase port) Reg.jncDropchain
        else if fieldAt fr 12 1 = 0 then w.count (jncBase port) Reg.jncVerdicts
        else
          let w := (w.chainRecord e 6 (16384 * fieldAt fr 4 4)).raiseFence (fPort port) 0x0906 false
          w.jobFault 0x0906 (detailRunit (portRunit port))

/-! ## Collectives -/

/-- A COLL frame arrives. -/
def Wafer.collFrame (w : Wafer) (port : Nat) (isCount : Bool) (fr : List Byte) : Wafer :=
  if !laneOpen w port 1 then w.rxTook port 1 0 fr else (w.collOffer port isCount fr).collsGo

/-- COLL_COUNT (R277): the capacity pre-phase. -/
def execCollCount (port : Nat) (fr : List Byte) (s : State) : Host.Outcome State Fault Refusal :=
  portStep port s fun w => w.collFrame port true fr

/-- COLL_DATA (R278 to R280). -/
def execCollData (port : Nat) (fr : List Byte) (s : State) : Host.Outcome State Fault Refusal :=
  portStep port s fun w => w.collFrame port false fr

/-- COLL_STALL (R280). -/
def execCollStall (s : State) : Host.Outcome State Fault Refusal :=
  s.upd fun w =>
    match w.reduce.run with
    | none => w
    | some r =>
      match r.current with
      | none => w
      | some st =>
        match st.peer with
        | none => w
        | some p => if w.delayPassed r.entry.delay r.sentAt then w.collFault r 0x11 p st.num else w

end Sys2Proof.Machine
end

