-- ==== Sys2Proof/Machine/Streams.lean ====
section
/-!
DEFINITION. Sys2Proof/Machine/Streams.lean: what goes on when a port can send again: the trains' inputs that stall, the chains and
the running collective (R212, R249, R267, R278).
-/

namespace Sys2Proof.Machine

/-- Whatever waits on output credits goes on: inputs that relay or store (R249), chains (R267), the collective (R278). -/
def Wafer.streamsGo (w : Wafer) : Wafer := ((w.inputsGo).advanceChains).collsGo

/-- A port's queued frames leave as they can, and what waited behind them goes on. -/
def Wafer.portGo (w : Wafer) (i : Nat) : Wafer := (w.sendAll i).streamsGo

/-- Every port's queued frames leave as they can, and what waited behind them goes on. -/
def Wafer.portsGo (w : Wafer) : Wafer := ((List.range 176).foldl (fun w i => w.sendAll i) w).streamsGo

/-- CREDIT (R212): counts for all four lanes at once, never past what the receiver's buffer holds. -/
def execCredit (port : Nat) (counts : List Nat) (s : State) : Host.Outcome State Fault Refusal :=
  portStep port s fun w =>
    let full := fullCredits port
    let w := w.updPort port fun p =>
      { p with credits := (List.range 4).map fun v => min (full.getD v 0) (p.credits.getD v 0 + counts.getD v 0) }
    w.portGo port

/-- ACK (R214): frames up to and including SEQ are acknowledged; progress ends a run of resends. -/
def execAck (port : Nat) (seq : Nat) (s : State) : Host.Outcome State Fault Refusal :=
  portStep port s fun w =>
    let k := (w.port port).ackedCount seq
    if k = 0 then w
    else
      let w := w.updPort port fun p => { p with replay := p.replay.drop k, resends := 0 }
      w.portGo port

/-- LINK_WIDTH_CHANGED (R215): both ends run at the half width that excludes every retired lane; LINK_DEGRADED follows at
the next boundary. -/
def execLinkWidthChanged (port : Nat) (s : State) : Host.Outcome State Fault Refusal :=
  portStep port s fun w =>
    match (w.port port).widthTo with
    | none => w
    | some h =>
      let n := fullLanes port / 2
      let w := (w.updPort port fun p => { p with widthTo := none }).showWidth port n h ((2 ^ n - 1) * 2 ^ (h * n))
      (w.portGo port).notify 0x0705 (detailRunit (portRunit port))

end Sys2Proof.Machine
end

