-- ==== Sys2Proof/Machine/TickSteps.lean ====
section
/-!
DEFINITION. Sys2Proof/Machine/TickSteps.lean: the steps of Table 1-5 (R22): what happens at the boundary of a tick, in order.
-/

namespace Sys2Proof.Machine

/-- The row of Tables 12-9 and 12-12 for an opcode. -/
def cmdSpecs : List CmdSpec :=
  [nopSpec, identifySpec, seqResetSpec, placeSetSpec, quayWriteSpec, quayReadSpec,
   loadSpec, placeSpec, armSpec, startSpec, quiesceSpec, abortSpec, statusSpec,
   penQuotaSpec, admissionSpec, trainSetSpec, flipPlanSpec,
   portPlanSpec, fenceSpec, unfenceSpec, peerExpectSpec, routeLoadSpec, chainLoadSpec, memberLoadSpec, collLoadSpec,
   tickScheduleSpec, tickRateChangeSpec, timeSourceSpec, timeServersSpec, timeReadSpec,
   capSetSpec, brakeSpec, gearSetSpec, fieldStateSpec, powerReadSpec,
   snapReadSpec, mapReadSpec, floodTestSpec, marginSurveySpec, marginReadSpec, tallyReadSpec,
   fwWriteSpec, fwCommitSpec, fwActivateSpec, rootAddSpec, rootRemoveSpec, resetSpec]

def cmdSpec (opcode : Nat) : Option CmdSpec := cmdSpecs.find? fun sp => sp.opcode == opcode

/-! ## Step 1: the overrun (R42) -/

/-- The core has a part in the stage. -/
def Core.hasStage (c : Core) : Bool := c.logical.isSome && decide (0 < c.codeSize)

/-- Cores of the job that have not passed their stage mark, by site. (Log 19 DEDUCED.) -/
def Wafer.overruns (w : Wafer) : List Nat :=
  if w.running then w.jobSites.filter fun s => (w.core s).hasStage && !(w.core s).marked else []

/-- Cause and PORT of an overrun (Table 2-2): what the core waits on (R113). A core that waits on nothing beyond a busy unit, in a tick in
which the brake has held, was slowed under the brake. (Log 19 DEDUCED.) -/
def Wafer.overrunCause (w : Wafer) (s : Nat) : Nat × Nat :=
  let x := if w.rd (siteBase s) Reg.seqStatHeld = 0 then (0, 0xFF)
    else match (w.core s).wait with
      | some k => w.waitCause s k
      | none => (0, 0xFF)
  if x.1 = 0 ∧ (w.power.slowed || w.braking || w.power.releasing) = true then (7, 0xFF) else x

/-- Step 1: TICK_OVERRUN for each of them. LCK_OVRSTAT keeps the first of the boundary and their number. (Log 19 DEDUCED.) -/
def Wafer.closeTick (w : Wafer) : Wafer :=
  match w.overruns with
  | [] => w
  | s :: l =>
    let x := w.overrunCause s
    let n := (w.core s).logical.getD 0
    let w := if w.rd lckBase Reg.lckOvrstatValid = 1 then w
      else w.wrs lckBase [(Reg.lckOvrstatField, s / 20), (Reg.lckOvrstatCluster, s % 20 / 5), (Reg.lckOvrstatCore, n % 4),
        (Reg.lckOvrstatCause, x.1), (Reg.lckOvrstatPort, x.2), (Reg.lckOvrstatStage, w.rd (siteBase s) Reg.seqStatStage),
        (Reg.lckOvrstatCount, min (l.length + 1) 0xFFFF), (Reg.lckOvrstatValid, 1), (Reg.lckOvrtickTick, w.tick)]
    let causes := (s :: l).map fun k => (k, (w.overrunCause k).1)
    causes.foldl (fun w e => w.jobFault 0x0101 (detailOf (e.1 / 20) (e.1 % 20) 255 e.2)) w

/-! ## Step 2: the snapshot (R25) -/

def Wafer.snapshotDue (w : Wafer) : Wafer := if w.tick % 2 ^ w.rd 0 Reg.shpSnapctlInterval = 0 then w.snapshot else w

/-! ## The cap loop's decision (R340) -/

/-- The lowest gear the cap loop commands. -/
def Wafer.capFloor (w : Wafer) : Nat := let f := w.rd pwrBase Reg.pwrGearFloor; if f = 0 then 300 else f

/-- CAP_PRESSURE is set or cleared. -/
def Wafer.capPressure (w : Wafer) (on : Bool) : Wafer :=
  let was := w.rd pwrBase Reg.pwrStatCappress == 1
  let w := w.wr pwrBase Reg.pwrStatCappress (b2n on)
  let w := if on && !was then
      (({ w with power := { w.power with pressAt := w.time.passed } } : Wafer).powerEvent 1 0 0).notify 0x0A01 detailNone
    else w
  if on then w.count pwrBase Reg.pwrPressticks else w

/-- REF of an internal entry for a gear action. (Log 61 DESIGN CHOICE.) -/
def gearRef : Nat := 0x4010

/-- The cap gear moves one gear, recorded in the tally (R316). -/
def Wafer.capGear (w : Wafer) (mhz : Nat) : Wafer :=
  ((w.tallySelf gearRef).wr pwrBase Reg.pwrGearCapgear mhz).count pwrBase Reg.pwrGearsteps

def Wafer.setBelow (w : Wafer) (n : Nat) : Wafer := { w with power := { w.power with below := n } }

/-- The loop at a boundary: the 100 µs average against the cap of the tick that ends. (Log 18 DEDUCED, 51 DEDUCED.) -/
def Wafer.capLoop (w : Wafer) : Wafer :=
  let avg := w.power.avg100
  let cap := microwatts w.loopCap
  let g := w.rd pwrBase Reg.pwrGearCapgear
  if cap < avg then
    if w.capFloor < g then ((w.capGear (gearDown g)).setBelow 0).capPressure (w.rd pwrBase Reg.pwrStatCappress == 1)
    else (w.setBelow 0).capPressure true
  else
    let w := w.capPressure false
    if 100 * avg < 92 * cap then
      if w.power.below + 1 < 64 then w.setBelow (w.power.below + 1)
      else if g < w.rd pwrBase Reg.pwrGearCmd then (w.capGear (gearUp g)).setBelow 0
      else w.setBelow 64
    else w.setBelow 0

/-! ## Step 3: statuses and fences (R23, R295, R369) -/

def Wafer.postBoth (w : Wafer) (e : Event) : Wafer := (w.postTo 0 e).postTo 1 e

/-- The tags of a job that has faulted are cleared, and the event goes to the endpoint that armed the job. -/
def Wafer.clearFaultTags (w : Wafer) : Wafer :=
  match w.job.tagsDue with
  | none => w
  | some e =>
    let w := ({ w with job := { w.job with tagsDue := none } } : Wafer).clearTags true true
    match w.job.armOrigin with
    | none => w
    | some o => w.mlSend (o / 256 * 256 + 3) 1 ((⟨0xFFFF, e.code, 0, w.tick, 2, false, 0, 0, e.detail⟩ : Reply).bytes 0)

/-- Step 3. (Log 64 DESIGN CHOICE.) -/
def Wafer.postStatuses (w : Wafer) : Wafer :=
  let events := (w.raised.map fun r => (⟨0x0B10, fenceDetail r.1 r.2⟩ : Event)) ++ w.cmd.posts
  let w := { w with raised := [], cmd := { w.cmd with posts := [] } }
  (events.foldl (fun w e => w.postBoth e) w).clearFaultTags

/-- A pending TICK_RATE_CHANGE whose tick has come (R35). -/
def Wafer.rateChange (w : Wafer) : Wafer :=
  match w.pendingRate with
  | some (p, t) =>
    if tickFuture t w.tick then w else w.applyRate p t
  | none => w

/-! ## Commands due (R291, R395) -/

/-- The command is due at the boundary of tick n: its boundary has come, or the boundary of the T0 that it has set. -/
def Wafer.isDue (w : Wafer) (step n : Nat) (x : InFlight) : Bool :=
  if x.working then decide (step = 7) && x.opcode == 0x0104 && w.job.phase == .armed && !tickFuture w.job.t0 n
  else (cmdSpec x.opcode).any (fun sp => sp.step == step && (sp.duty == 0 || w.dutyUp sp.duty)) && !tickFuture x.due n

/-- How long before tick n a command's boundary came. -/
def Wafer.overdue (w : Wafer) (n : Nat) (x : InFlight) : Nat := tickDiff n (if x.working then w.job.t0 else x.due)

/-- The next command due at a step of the boundary of tick n: the earliest target tick, then acceptance order.
(Log 18 DEDUCED.) -/
def Wafer.nextDue (w : Wafer) (step n : Nat) : Option Nat :=
  let l := w.cmd.inflight.filter fun x => w.isDue step n x
  let most := l.foldl (fun m x => max m (w.overdue n x)) 0
  indexOf? (fun x => w.isDue step n x && w.overdue n x == most) w.cmd.inflight

/-- A command in flight takes effect. -/
def Wafer.dueEffect (w : Wafer) (i : Nat) : Wafer :=
  let fl := w.cmd.inflight.getD i default
  if fl.working then w.beginJob
  else match cmdSpec fl.opcode with
    | none => w
    | some sp => ({ w with cmd := { w.cmd with inflight := dropAt w.cmd.inflight i } } : Wafer).takeEffect sp fl

def Wafer.applyDue (w : Wafer) (step tick : Nat) : Nat → Wafer
  | 0 => w
  | n + 1 => match w.nextDue step tick with
    | none => w
    | some i => (w.dueEffect i).applyDue step tick n

/-- The commands of a step take effect: those due at the boundary of the tick that began, whatever number a TICK_SCHEDULE among them
gives it (R34, R395). (Log 57 DESIGN CHOICE.) -/
def Wafer.commandsDue (w : Wafer) (step : Nat) : Wafer := w.applyDue step w.tick w.cmd.inflight.length

/-! ## Step 4: gears (R22, R26, R45, R338, R343, R345) -/

/-- Pulse removal ends at the first boundary after the last source is released. -/
def Wafer.endBrake (w : Wafer) : Wafer :=
  if w.power.releasing && !w.braking then
    ({ w with power := { w.power with releasing := false } } : Wafer).wr pwrBase Reg.pwrBrakePulse 0
  else w

/-- The thermal gear of a field moves (R345). -/
def Wafer.thermalGear (w : Wafer) (f : Nat) : Wafer :=
  let p := w.fieldPower f
  let g := w.rd (fieldBase f) Reg.fpwGearThermal
  if w.fieldState f = 3 ∨ p.thermal = g then w
  else
    let w := (w.tallySelf gearRef).wr (fieldBase f) Reg.fpwGearThermal p.thermal
    if p.thermal < g then w.powerMgmt 0x0B f (detailOf f 64 255 0) else w.setFieldPower f { p with cool := 0 }

/-- A suspect contact derates its field by two gears (R332). (Log 54 DESIGN CHOICE.) -/
def Wafer.derateField (w : Wafer) (f : Nat) : Wafer :=
  if !(w.fieldPower f).derate then w
  else
    let w := w.setFieldPower f { w.fieldPower f with derate := false }
    let i := min (topIndex (w.marginRec f).top true) 5
    let w := w.updField f fun r => { r with derated := true, suspect := true, topGear := i }
    (w.wr (fieldBase f) Reg.fpwGearDerated 1).showPlan f

/-- What CANARY_WATCH has decided for the boundary (R364): a higher rail, or a lower top gear, each committed to the plan. -/
def Wafer.marginChange (w : Wafer) (f : Nat) : Wafer :=
  let p := w.fieldPower f
  let plan := fun (w : Wafer) (g : MarginRec → MarginRec) =>
    (w.commitPlan { w.plan with fields := mapUpd (fun _ => {}) w.plan.fields f g }).showPlan f
  let w := match p.offsetNew with
    | none => w
    | some (g, off) =>
      let w := plan w fun m => { m with offsets := listSet m.offsets g off }
      if w.fieldState f = 0 then w.setRail f (w.railFor f (w.applied f)) else w
  let w := match p.topNew with
    | none => w
    | some mhz =>
      let w := plan w fun m => { m with top := gearIdx mhz }
      w.updField f fun r => { r with topGear := min (topIndex (gearIdx mhz) r.derated) 5 }
  if p.offsetNew.isNone && p.topNew.isNone then w else w.setFieldPower f { w.fieldPower f with offsetNew := none, topNew := none }

/-- A field's limits change. One of the placement whose gear falls below the floor is posted as GEAR_BELOW_FLOOR (R45). -/
def Wafer.gearLimits (w : Wafer) (f : Nat) : Wafer :=
  let old := w.gearLimit f
  let w := ((w.thermalGear f).derateField f).marginChange f
  let floor := w.rd pwrBase Reg.pwrGearFloor
  if w.job.placement.contains f && decide (w.gearLimit f < floor ∧ floor ≤ old) then w.post ⟨0x0106, detailField f⟩ else w

/-- The gear of a RUN field for the coming tick: a fall at once; a raise whose rail is ready; no raise while the brake holds. -/
def Wafer.gearStep (w : Wafer) (f : Nat) : Wafer :=
  let t := w.gearTarget f
  let a := w.applied f
  let p := w.fieldPower f
  if t < a then ((w.tallySelf gearRef).dropRaise f).switchGear f t
  else if t = a then if p.raising.isSome then (w.dropRaise f).setRail f (w.railFor f a) else w
  else match p.raising with
    | some r => if p.railReady && !w.braking then ((w.tallySelf gearRef).dropRaise f).switchGear f (min r t) else w
    | none => w

/-- A field that wakes from REST reaches RUN. (Log 50 DESIGN CHOICE.) -/
def Wafer.restWake (w : Wafer) (f : Nat) : Wafer :=
  if w.fieldState f = 1 ∧ w.fieldTarget f = 0 ∧ w.fieldMoving f = true then w.enterRun f else w

/-- Step 4. -/
def Wafer.gearsDue (w : Wafer) : Wafer :=
  let w := (w.commandsDue 4).endBrake
  let w := (w.power.fields.map (·.1)).foldl (fun w f => w.gearLimits f) w
  let w := w.runFields.foldl (fun w f => w.gearStep f) w
  ((List.range 112).foldl (fun w f => w.restWake f) w).placeProgress

/-! ## Steps 5 to 7 -/

/-- Step 5: port plans (R230). -/
def Wafer.plansDue (w : Wafer) : Wafer := (w.commandsDue 5).relightAll

/-- Step 6: tables of the new epoch, and slot tables (R176). (Log 45 DESIGN CHOICE.) -/
def Wafer.tablesDue (w : Wafer) : Wafer := (w.commandsDue 6).applySwaps

/-- A place address committed before (R319). -/
def Wafer.placeDue (w : Wafer) : Wafer :=
  match w.shp.placeNew with
  | none => w
  | some _ => ({ w with shp := { w.shp with placeNew := none } } : Wafer).syncPlace

/-- Step 7: register writes that waited, then commands (R292), and with them the fences of a reset (R24). (Log 18 DEDUCED.) -/
def Wafer.effectsDue (w : Wafer) : Wafer := (((w.applyLate.applyClears).placeDue).liftsDue).commandsDue 7

/-! ## Step 8: the flip (R189, R190, R255) -/

/-- Pages of a source that are not readable in the next generation. -/
def Wafer.pagesMissing (w : Wafer) (s : Source) : List Nat :=
  let buf := w.ingest.nextBuf
  (rangeFrom s.firstPage s.pages).filter fun p => !(w.pageReady buf p && w.pageServed buf p)

/-- The first chunk of a source that is missing: the first of a page that is not readable and that has not passed, else the page's
first. -/
def Wafer.chunkMissing (w : Wafer) (s : SrcSt) : Nat :=
  let page := (w.pagesMissing s.src).getD 0 s.src.firstPage
  let first := s.src.srcFirst + 32 * (page - s.src.firstPage)
  ((rangeFrom first 32).find? fun c => !s.passedNext.contains c).getD first

/-- A source goes to its next generation. (Log 42 DESIGN CHOICE.) -/
def SrcSt.flip (s : SrcSt) : SrcSt :=
  { s with
    cur := s.next, keyCur := s.keyNext, passedCur := s.passedNext
    next := none, keyNext := none, passedNext := [], keyFetchAt := none
    expects := ((s.next.map (·.gen)).getD s.expects + 1) % 2 ^ 32 }

/-- Pages in order of T2 heat over the last four complete windows, then of number (R190). -/
def Wafer.pagesByHeat (w : Wafer) : List Nat :=
  let heat := fun p => ((mapGet (fun _ => ([] : List Nat)) w.reservoir.heat p).drop 1).foldl (· + ·) 0
  sortBy (fun a b => decide (heat b < heat a ∨ (heat a = heat b ∧ a ≤ b))) (List.range w.pageCount)

/-- A cluster's tier at the flip: frames of the new current generation that are filled or being filled stay; a GET keeps where its
pages of the freed buffer lie. (Log 42 DESIGN CHOICE.) -/
def Wafer.flipTier (w : Wafer) (t : Tier) (cur freed : Nat) : Tier :=
  let frames := (t.frames.filter fun f => f.buf == cur && (f.filled || f.filling)).map fun f => ({ f with pins := [] } : CacheFrame)
  { t with
    frames := frames
    gets := t.gets.map fun g =>
      if g.buf = freed ∧ g.kept = [] then
        { g with kept := (pagesOf g.ra g.len).map fun p => (p, (w.reservoir.placeIn freed).getD p (0, 0)) }
      else g
    prefetches := (t.prefetches.map fun (x : Nat × Nat × List Nat) =>
      (x.1, x.2.1, x.2.2.filter fun p => frames.any fun f => f.page == p && f.buf == x.2.1 && f.filling)).filter
        fun x => x.2.1 == cur && !x.2.2.isEmpty }

/-- Fetch requests whose generation is gone are refused (R254). (Log 42 DESIGN CHOICE.) -/
def Wafer.dropWaiting (w : Wafer) : Wafer :=
  let l := w.ingest.waiting
  let gone := fun (r : FetchIn) => match w.serveCase r with
    | .refuse k => some k
    | _ => none
  let w' := { w with ingest := { w.ingest with waiting := l.filter fun r => (gone r).isNone } }
  l.foldl (fun w' r => match gone r with
    | some k => w'.sendNakTo r k
    | none => w') w'

/-- The flip itself. (Log 42 DESIGN CHOICE.) -/
def Wafer.flip (w : Wafer) : Wafer :=
  let cur := w.ingest.nextBuf
  let freed := 1 - cur
  let g := w.ingest
  let gen := ((g.srcAt g.baseIdx).next.map (·.gen)).getD 0
  let clusters := w.tiers.map (·.1)
  let w : Wafer := { w with tiers := w.tiers.map fun (e : Nat × Tier) => (e.1, w.flipTier e.2 cur freed) }
  let srcs := g.sources.map SrcSt.flip
  let base := (srcs.getD g.baseIdx default).expects
  let w : Wafer := { w with
    ingest := { g with
      sources := srcs
      trains := g.trains.map fun t =>
        ({ t with readySent := false, readyFrom := t.readyFrom.filter fun r => r.2.2 == base } : Train)
      segments := g.segments.filter fun (h : HeldSegment) => (srcs.getD h.source default).cur.any fun (m : Manifest) => m.gen == h.gen
      chunks := [], fetches := [], current := true, nextBuf := freed }
    reservoir := (w.reservoir.setReady freed []).setPlace freed (dealPages w.pagesByHeat) }
  let w := (List.range 32).foldl (fun w s => w.wr (stkBase s) Reg.stkResvCur cur) w
  let w := w.wr tirmBase Reg.tirGenGen gen
  let w := clusters.foldl (fun w cl => w.settleTier cl) w
  (w.dropWaiting).syncIngest.showFlip

/-- Step 8: at the flip tick of a running job, the flip, or INGEST_LATE. -/
def Wafer.flipDue (w : Wafer) : Wafer :=
  match w.job.image with
  | none => w
  | some img =>
    let g := w.ingest
    if !w.running || w.rd wstBase Reg.wstFlipValid == 0 || !g.admitted || g.sources.isEmpty ||
        stageOf img w.job.t0 w.tick != w.rd wstBase Reg.wstFlipStage then w
    else match indexOf? (fun (s : SrcSt) => s.next.isNone || !(w.pagesMissing s.src).isEmpty) g.sources with
      | none => w.flip
      | some i => w.ingestFault 5 i (w.chunkMissing (g.srcAt i))

/-! ## The tick begins -/

/-- The stage begins on a core (R42, R126). -/
def Wafer.startCore (w : Wafer) (stage s : Nat) : Wafer :=
  let c := w.core s
  let w := w.setCore s { c with marked := false, q := 0, qr := 0 }
  w.wrs (siteBase s) [(Reg.seqPcPc, c.codeBase + c.entries.getD stage 0), (Reg.seqStatState, 1), (Reg.seqStatStage, stage),
    (Reg.seqStatHeld, 0), (Reg.seqStatCause, 0)]

/-- The stage of the tick begins: on every core of the job in a field whose replica counter reaches the start value (R38, R41), its
chains and its collectives (R267, R277). -/
def Wafer.startStage (w : Wafer) : Wafer :=
  match w.job.image with
  | none => w
  | some img =>
    if !w.running then w
    else
      let stage := stageOf img w.job.t0 w.tick
      let l := w.jobSites.filter fun s => (w.core s).hasStage && !w.coreFenced s && w.fieldFires (s / 20)
      let w := l.foldl (fun w s => w.startCore stage s) w
      ((w.startChains stage).startColls stage).showFlip

/-- Every field whose replica counter has come to its start value goes on to the tick after (R38, R39). -/
def Wafer.fieldsGoOn (w : Wafer) : Wafer :=
  { w with time := { w.time with fields := w.time.fields.map fun (e : Nat × FieldTime) => (e.1, if w.fieldFires e.1 then e.2.next else e.2) } }

/-- A port's heartbeat (R231, R232): the tick that ends may have brought none. -/
def Wafer.heartbeatOut (w : Wafer) (i : Nat) : Wafer :=
  if linkState w i ≠ 5 ∧ linkState w i ≠ 6 then w
  else
    let p := w.port i
    let w := if p.hbTick then w else w.count (portBase i) Reg.tpHbmiss
    let w := w.setPort i { p with hbTick := false, hbMissed := if p.hbTick || !p.hbSeen then p.hbMissed else p.hbMissed + 1 }
    let flags := b2n w.running + 2 * b2n w.braking + 4 * b2n (w.portFenced i) +
      8 * b2n (w.job.draining || w.job.quiesceTick == some w.tick)
    w.queueFrame i 0 3 5 (heartbeatBytes ⟨w.tick, w.period, w.rd (portBase i) Reg.tpTagCur, flags⟩)

def Wafer.heartbeats (w : Wafer) : Wafer := (List.range 176).foldl (fun w i => w.heartbeatOut i) w

/-- The ports' MSI-X vectors, once for the tick that ends, after its last entry (R293). (Log 18 DEDUCED.) -/
def Wafer.raiseMsix (w : Wafer) : Wafer :=
  [0, 1].foldl (fun w x =>
    let c := w.cmdPort x
    if c.irqDue then (w.setCmdPort x { c with irqDue := false }).emit (.msix x) else w) w

/-- The counter reaches the next start value, and the tick it begins is closed and opened in the order of Table 1-5 (R22).
(Log 17 DEDUCED, 18 DEDUCED.) -/
def Wafer.boundary (w : Wafer) : Wafer :=
  let w := (w.raiseMsix.elapse w.toNextStart).closeTick
  let w := w.wr lckBase Reg.lckTickTick (w.tickAt w.countNow)
  let w := ((w.snapshotDue.capLoop).postStatuses).rateChange
  let w := ((w.gearsDue.plansDue).tablesDue).effectsDue
  let w := w.flipDue.startStage.fieldsGoOn
  let w := { w with
    time := { w.time with boundaries := w.time.boundaries + 1 }
    power := { w.power with slowed := w.braking || w.power.releasing } }
  w.portsGo.heartbeats

end Sys2Proof.Machine
end

