-- ==== Sys2Proof/Machine/Boundary.lean ====
section
/-!
DEFINITION. Sys2Proof/Machine/Boundary.lean: the tick boundary (R22) and the interpreter's scan of the chambers in the tick that
it begins (R285 to R289).
-/

namespace Sys2Proof.Machine

/-! ## What a scan finds -/

/-- A packet that waits: in a slot of a CXL port's chamber, or in an inbox. -/
structure Found where
  slot : Option Nat
  opcode : Nat
  p : Packet
  deriving DecidableEq, Repr, Inhabited

/-- BAR2 offset of a slot: 4 KiB each. -/
def slotAddr (port slot : Nat) : Nat := chamberAddr port (4096 * slot)

/-- STATE of a slot. -/
def Wafer.slotState8 (w : Wafer) (port slot : Nat) : Nat := (w.chamber.get (slotAddr port slot)).toNat

def Wafer.freeSlot (w : Wafer) (port slot : Nat) : Wafer := { w with chamber := w.chamber.write (slotAddr port slot) [0#8] }

/-- Slots that a scan of a port reads, in order: those the last scan did not reach, its half, and those held (R287, R288). -/
def Wafer.scanSlots (w : Wafer) (port : Nat) : List Nat :=
  let c := w.cmdPort port
  let half := rangeFrom (512 * (w.tick % 2)) 512
  let l := c.first ++ half.filter fun k => !c.first.contains k
  l ++ c.heldSlots.filter fun k => !l.contains k

/-- The packet in a slot, read whole. -/
def Wafer.slotPacket (w : Wafer) (port slot : Nat) : Found :=
  let x := packetOf port 0 (w.chamber.read (slotAddr port slot) 4096)
  ⟨some slot, x.1, x.2⟩

/-! ## Taking packets -/

/-- Which of the packets found is next: the one whose sequence number its source expects; then a SEQ_RESET; then one to be freed. One
held stays. -/
def Wafer.nextFound (w : Wafer) (l : List Found) : Option Nat :=
  let cls := fun (f : Found) => seqClass (w.nextSeq f.p) f.p.seq
  match indexOf? (fun f => cls f == .take) l with
  | some i => some i
  | none => match indexOf? (fun (f : Found) => f.opcode == 0x0002) l with
    | some i => some i
    | none => indexOf? (fun f => cls f != .hold) l

/-- A packet leaves its slot and is taken, or freed with 0x0402 or 0x0403 (R286, R288). An opcode that is not assigned is refused
after it is taken (R290). -/
def Wafer.handle (w : Wafer) (f : Found) : Wafer :=
  let w := match f.slot with
    | some k => w.freeSlot f.p.path k
    | none => w
  match (if f.opcode = 0x0002 then SeqClass.take else seqClass (w.nextSeq f.p) f.p.seq) with
  | .duplicate => w.refusePacket f.opcode f.p 0x0402 0
  | .outside => w.refusePacket f.opcode f.p 0x0403 0
  | _ => match cmdSpec f.opcode with
    | some sp => w.takePacket sp f.p
    | none => ((w.setNext f.p (f.p.seq + 1)).countPort f.p Reg.cmdTaken).refusePacket f.opcode f.p 0x0101 0

/-- How a source's scan ends: the module, packets that it may still take before the tick's time bound, and what stays. -/
structure ScanEnd where
  w : Wafer
  left : Nat
  rest : List Found
  /-- The bound came first: packets that could be taken stay. -/
  cut : Bool

/-- Take packets of one source until none is left that can go, 4,096 are in flight (R289), or the bound comes (R287).
(Log 57 DESIGN CHOICE.) -/
def scanLoop (w : Wafer) (left : Nat) (l : List Found) : Nat → ScanEnd
  | 0 => ⟨w, left, l, false⟩
  | n + 1 => match w.nextFound l with
    | none => ⟨w, left, l, false⟩
    | some i =>
      if 4096 ≤ w.inflightTotal then ⟨w.count cmdmBase Reg.cmdFullscans, left, l, false⟩
      else if left = 0 then ⟨w, 0, l, true⟩
      else scanLoop (w.handle (l.getD i default)) (left - 1) (dropAt l i) n

/-- A scan ends, at the time bound or ahead of it. -/
def Wafer.cutScan (w : Wafer) (cut : Bool) : Wafer :=
  if cut then { w with cmd := { w.cmd with scanCut := w.cmd.scanCut + 1 } } else w

/-- The scan of a CXL port: those that stay under R288 are held, those the time bound left come first in the next. A port with a reply held behind its ring takes nothing (R293).
(Log 57 DESIGN CHOICE.) -/
def Wafer.scanPort (w : Wafer) (port left : Nat) : Wafer × Nat :=
  let c := w.cmdPort port
  if !w.interprets port || !c.held.isEmpty then (w, left)
  else
    let slots := w.scanSlots port
    let other := countIf (fun k => w.slotState8 port k != 0 && w.slotState8 port k != 0xA5) slots
    let posted := slots.filter fun k => w.slotState8 port k == 0xA5
    let r := scanLoop (w.count (cmdBase port) Reg.cmdBadstate other) left (posted.map fun k => w.slotPacket port k) posted.length
    let w := r.w
    let held := (r.rest.filter fun f => seqClass (w.nextSeq f.p) f.p.seq == .hold).filterMap (·.slot)
    let w := w.setCmdPort port { w.cmdPort port with heldSlots := held, first := if r.cut then r.rest.filterMap (·.slot) else [] }
    let w := w.wr (cmdBase port) Reg.cmdSeqHeld held.length
    (w.cutScan r.cut, r.left)

/-- The scan of the management lane's inbox (path 2) or of MCTP's (path 3). -/
def Wafer.scanInbox (w : Wafer) (path left : Nat) : Wafer × Nat :=
  if !w.interprets path then (w, left)
  else
    let box := if path = 2 then w.cmd.inboxMl else w.cmd.inboxMctp
    let r := scanLoop w left (box.map fun x => ⟨none, x.1, x.2⟩) box.length
    let stay := r.rest.map fun f => (f.opcode, f.p)
    let w := r.w
    let w := { w with cmd := if path = 2 then { w.cmd with inboxMl := stay } else { w.cmd with inboxMctp := stay } }
    (w.cutScan r.cut, r.left)

/-- The scans of a tick (R287): ports A and B, the management lane, MCTP. (Log 57 DESIGN CHOICE.) -/
def Wafer.scan (w : Wafer) (takeLimit : Nat) : Wafer :=
  let (w, n) := w.scanPort 0 takeLimit
  let (w, n) := w.scanPort 1 n
  let (w, n) := w.scanInbox 2 n
  (w.scanInbox 3 n).1

/-! ## The rows -/

/-- TICK_BOUNDARY (R22, R287): the boundary, then the scans of the tick that begins. `takeLimit` is how many packets the scans reach
before 0.4 of the period has passed. -/
def execTickBoundary (takeLimit : Nat) (s : State) : Host.Outcome State Fault Refusal := s.upd fun w => w.boundary.scan takeLimit

/-- SCAN_TIME_BOUND (R287): scans stopped at the bound are counted. (Log 57 DESIGN CHOICE.) -/
def execScanTimeBound (s : State) : Host.Outcome State Fault Refusal :=
  s.upd fun w =>
    if w.cmd.scanCut = 0 then w
    else ({ w with cmd := { w.cmd with scanCut := 0 } } : Wafer).count cmdmBase Reg.cmdFullscans w.cmd.scanCut

end Sys2Proof.Machine
end

