-- ==== Sys2Proof/Machine/CanalSend.lean ====
section
/-!
DEFINITION. Sys2Proof/Machine/CanalSend.lean: the CNL class (R110, R156, R158, R161, R163, R180, R225): descriptors, checks and
injection.
-/

namespace Sys2Proof.Machine

/-- The canal descriptor (Table 7-4). -/
structure CanalDesc where
  src : Nat
  len : Nat
  daddr : Nat
  sspace : Nat
  dspace : Nat
  plane : Nat
  sem : Nat
  dx : Nat
  dy : Nat
  x1 : Nat
  y1 : Nat
  tag : Nat
  count : Nat
  lsem : Nat
  runit : Nat
  rop : Nat
  deriving DecidableEq, Repr, Inhabited

def canalDescOf (l : List Byte) : CanalDesc :=
  ⟨fieldAt l 0 4 % 2 ^ 25, fieldAt l 4 4, fieldAt l 8 8, fieldAt l 16 1, fieldAt l 17 1, fieldAt l 18 1, fieldAt l 19 1,
    fieldAt l 20 1, fieldAt l 21 1, fieldAt l 22 1, fieldAt l 23 1, fieldAt l 24 2, fieldAt l 26 2, fieldAt l 28 1,
    fieldAt l 29 1, fieldAt l 30 1⟩

/-- CNL operations: SEND, MCAST, CONF, POST. -/
inductive CnlOp where
  | send | mcast | conf | post
  deriving DecidableEq, Repr, Inhabited

def CanalDesc.isXfer (d : CanalDesc) : Bool := decide (32 ≤ d.runit ∧ d.runit < 208)
def CanalDesc.isRim (d : CanalDesc) : Bool := decide (d.runit < 32)
/-- Bytes a flit of the send carries from its source. (Log 24 DEDUCED.) -/
def CanalDesc.unit (d : CanalDesc) : Nat := if d.isXfer then 224 else 256
def CanalDesc.rect (d : CanalDesc) : Rect := ⟨d.dx, d.dy, d.x1, d.y1⟩

def semOk (s : Nat) : Bool := decide (s < 32 ∨ s = 0xFF)

/-- Whether the descriptor passes the checks of R156 and R225. A rim unit is addressed with DSPACE 2, a core with 0 or 1.
(Log 24 DEDUCED.) -/
def CanalDesc.ok (d : CanalDesc) (op : CnlOp) (w : Wafer) (site : Nat) : Bool :=
  let sx := siteX site
  let sy := siteY site
  let lim := if d.sspace = 0 then 2 ^ 24 else w.scratchLimit (siteCluster site)
  let core := d.runit == 255
  let range := decide (1 ≤ d.len ∧ d.len ≤ 65536 ∧ d.src + d.unit * d.len ≤ lim)
  let common := decide (d.plane ≤ 2 ∧ d.sspace ≤ 1 ∧ d.src % 32 = 0 ∧ d.rop < 4) && semOk d.sem && semOk d.lsem && decide (d.dspace ≤ 2) &&
    !decide (208 ≤ d.runit ∧ d.runit < 255) && ((d.dspace == 2) == !core)
  let aligned := decide (d.daddr % 2 ^ 40 % 32 = 0)
  common && match op with
    | .send =>
      range &&
        (if core then aligned && atSite d.dx d.dy
         else if d.isXfer then decide (d.daddr < 2 ^ 25 ∧ d.daddr % 32 = 0 ∧ bits d.rop 1 1 = 0 ∧ d.tag < 2 ^ 11)
         else aligned)
    | .mcast =>
      range && core && aligned && decide (d.dx ≤ d.x1 ∧ d.dy ≤ d.y1 ∧ d.x1 < 60 ∧ d.y1 < 48) &&
        (rectCarried 0 sx sy d.rect || rectCarried 1 sx sy d.rect)
    | .conf =>
      range && core && aligned && atSite d.dx d.dy && decide (d.sem < 32 ∧ 1 ≤ d.count ∧ d.count ≤ 4095)
    | .post => core && atSite d.dx d.dy && decide (d.sem < 32 ∧ 1 ≤ d.len % 2 ^ 16)

/-- CANAL_PARAM (R156): the core stops. -/
def canalRefuse (w : Wafer) (i : Issue) (addr : Nat) : Went :=
  let w := w.recordFirst (cnlBase i.site) Reg.cnlFaultValid [(Reg.cnlFaultCode, 1), (Reg.cnlFaultAddr, addr), (Reg.cnlFaultTag, 0)]
  .stopped ((w.coreStop i.site).jobFault 0x0501 (detailSite i.site))

/-- 64-bit words of a byte string. -/
def wordsOf (l : List Byte) (n : Nat) : List Word := (List.range n).map fun k => BitVec.ofNat 64 (fieldAt l (8 * k) 8)

/-- Flit i of a send. The source is read whole when the send issues: the spec leaves open when the interface reads it, up to the send's
completion (R106, R158). (Log 75 DESIGN CHOICE.) -/
def flitOf (op : CnlOp) (d : CanalDesc) (w : Wafer) (site src i : Nat) : Flit :=
  let sx := siteX site
  let sy := siteY site
  let n := if op = .post then 0 else d.unit
  let a := d.src + d.unit * i
  let mem := if d.sspace = 0 then w.coreMem else w.cluMem
  let at' := if d.sspace = 0 then coreAddr site a else cluAddr (siteCluster site) a
  let data := (wordsOf (mem.read at' n) (n / 8)) ++ List.replicate (32 - n / 8) 0#64
  let da := if op = .post then d.len % 2 ^ 16 else (d.daddr + d.unit * i) % 2 ^ 40
  let gates := runitGates d.runit
  let g := gates.getD (i % gates.length) (d.dx, d.dy)
  let dst := if d.runit = 255 then (d.dx, d.dy) else g
  let asked := if d.plane < 2 then d.plane else bits (d.daddr + d.unit * i) 8 1
  let plane := if op = .mcast then (if rectCarried asked sx sy d.rect then asked else 1 - asked)
    else planeFor asked sx sy dst.1 dst.2
  let f := blankFlit plane sx sy src (w.running && (w.core site).logical.isSome)
  { f with
    kind := match op with
      | .send => 0 | .mcast => 1 | .conf => 2 | .post => 3
    sem := if d.sem = 0xFF then none else some d.sem
    dx := dst.1
    dy := dst.2
    x1 := if op = .mcast then d.x1 else if d.isRim then sx else 0
    y1 := if op = .mcast then d.y1 else if d.isRim then sy else 0
    tag := d.tag
    carried := if op = .conf then 1 else 0
    short := d.isXfer
    daddr := da
    dspace := d.dspace
    count := if op = .conf then d.count else 0
    rop := d.rop % 4
    runit := d.runit
    resBits := decide (op = .send) && d.isRim && decide (2 ^ 40 ≤ d.daddr)
    data := data
    bad := if op = .post then [] else mem.badWords at' n }

/-- A CNL send (R110, R156, R158): the 17th outstanding send holds the sequencer. -/
def cnlInstr (op : CnlOp) (i : Issue) (s : State) : Host.Outcome State Fault Refusal :=
  coreInstr i s (decide (i.d ≠ 0 ∨ i.b ≠ 0 ∨ i.c ≠ 0)) fun w =>
    let c := w.core i.site
    let a := w.descAddr i
    if 16 ≤ c.sends.length then .hold .sends
    else if a % 16 ≠ 0 then .fault 2
    else withDesc w i a 32 fun l =>
      let d := canalDescOf l
      if !d.ok op w i.site then canalRefuse w i a
      else if d.sspace == 1 && decide (op ≠ .post) && w.groupsShut (siteCluster i.site) d.src (d.unit * d.len) then .hold .banks
      else
        let n := if op = .post then 1 else d.len
        let src := i.site + 4096 * (c.serial + 1)
        let w' := w.addFlits ((List.range n).map fun k => flitOf op d w i.site src k)
        let w' := w'.setCore i.site { c with sends := c.sends ++ [⟨c.serial + 1, d.lsem⟩], serial := c.serial + 1 }
        .ok (w'.wr (cnlBase i.site) Reg.cnlStatSends (c.sends.length + 1))

/-- CNL.SEND (R156, R180, R225). -/
def execCnlSend (i : Issue) (s : State) : Host.Outcome State Fault Refusal := cnlInstr .send i s
/-- CNL.MCAST (R161). -/
def execCnlMcast (i : Issue) (s : State) : Host.Outcome State Fault Refusal := cnlInstr .mcast i s
/-- CNL.CONF (R163, R166): CARRIED is 1. -/
def execCnlConf (i : Issue) (s : State) : Host.Outcome State Fault Refusal := cnlInstr .conf i s
/-- CNL.POST (R156): one SIGNAL flit adds VALUE to a remote semaphore. -/
def execCnlPost (i : Issue) (s : State) : Host.Outcome State Fault Refusal := cnlInstr .post i s

/-- CNL.WAIT (R110): at most IMM[3:0] sends outstanding. -/
def execCnlWait (i : Issue) (s : State) : Host.Outcome State Fault Refusal :=
  coreInstr i s (decide (i.d ≠ 0 ∨ i.a ≠ 0 ∨ i.b ≠ 0 ∨ i.c ≠ 0)) fun w =>
    if (w.core i.site).sends.length ≤ i.imm.toNat % 16 then .ok w else .hold .sends

/-- SEND_COMPLETE (R158): the last flit of the send has left the local port; LSEM is posted. Flits of the send that no command has moved
are then in the local input buffers of the core's routers: while those have no credits for them, the last has not left.
(Log 9 DESIGN CHOICE.) -/
def execSendComplete (site idx : Nat) (s : State) : Host.Outcome State Fault Refusal :=
  s.updIf (decide (site < 2240)) fun w =>
    let c := w.core site
    match c.sends[idx]? with
    | none => w
    | some x =>
      let src := site + 4096 * x.serial
      let mine := w.canal.flits.filter fun f => f.src == src && !f.left
      let room := fun (plane : Nat) =>
        let n := countIf (fun (f : Flit) => f.plane == plane) mine
        decide (n = 0) || (decide (w.buffered plane (siteX site) (siteY site) 4 0 + n ≤ 8) && !w.routerShut plane (siteX site) (siteY site))
      if !(room 0 && room 1) then w
      else
        let w := { w with canal := { w.canal with flits := w.canal.flits.map fun (f : Flit) => (if f.src = src then { f with left := true } else f : Flit) } }
        let w := (w.setCore site { c with sends := dropAt c.sends idx }).wr (cnlBase site) Reg.cnlStatSends (c.sends.length - 1)
        if x.lsem = 0xFF then w else w.semPost site x.lsem 1

end Sys2Proof.Machine
end

