-- ==== Sys2Proof/Machine/Faults.lean ====
section
/-!
DEFINITION. Sys2Proof/Machine/Faults.lean: reported errors (R366, R367), remaps in service (R129), job fault notices (R370) and the
re-placement proposal (R372).
-/

namespace Sys2Proof.Machine

/-- Poison the whole accumulator row that a location of kind 3 names. (Log 55 DESIGN CHOICE.) -/
def Wafer.poisonAccRow (w : Wafer) (l : ErrLoc) : Wafer :=
  let e := 2 * (l.field * 20 + l.unit) + l.index / 2048 % 2
  { w with accMem := w.accMem.poisonWords (accAddr e (l.index / 1024 % 2) (l.index % 1024)) (List.range 64) }

/-- ERROR_REPORT (R366, R367). An uncorrectable accumulator row is poisoned and is the engine fault 0x11 (Table 3-10).
Any other stored word that the decoder could not correct, `lost` by its number in the row, is poisoned (R201); a stack counts its errors in
STK_ERR. (Log 55 DESIGN CHOICE.) -/
def execErrorReport (loc : ErrLoc) (lost : Option Nat) (s : State) : Host.Outcome State Fault Refusal :=
  s.updIf (errLocOk loc) fun w =>
    let uncorrectable := lost.isSome
    let w :=
      if loc.kind = 3 ∧ uncorrectable = true then
        (w.poisonAccRow loc).engineFault (2 * (loc.field * 20 + loc.unit) + loc.index / 2048 % 2) 0x11 0 (loc.index % 1024)
          (loc.index / 1024 % 2)
      else match lost with
        | some word => w.poisonAt loc word
        | none => w
    let w := if loc.kind = 4 then w.stackErr loc.runit (loc.index / 2 ^ 17) uncorrectable else w
    w.classify loc uncorrectable

/-- SPARE_REMAP (R129): once no job holds the cluster's field. -/
def execSpareRemap (cluster : Nat) (s : State) : Host.Outcome State Fault Refusal :=
  s.updIf (decide (cluster < 448)) fun w => w.asDuty 2 fun w =>
    if w.fieldHeld (cluster / 4) then w else w.clusterDue cluster

/-- JOB_FAULT_NOTICE (R370): a notice of the module's armed or running job, which holds no fault yet; any other is dropped and
counted. -/
def execJobFaultNotice (port : Nat) (notice : Notice) (s : State) : Host.Outcome State Fault Refusal :=
  portStep port s fun w =>
    let w := w.rxTook port 3 0 (noticeBytes notice)
    if linkState w port ≠ 5 ∧ linkState w port ≠ 6 then w
    else if w.armedOrRunning && w.job.tag == notice.tag then w.jobFault 0x0C01 notice.detail (some (notice, port))
    else w.count hltBase Reg.hltNotices

/-- Canal hops between two fields. (Log 54 DESIGN CHOICE.) -/
def fieldHops (a b : Nat) : Nat :=
  5 * ((fieldCol a - fieldCol b) + (fieldCol b - fieldCol a)) + 4 * ((fieldRow a - fieldRow b) + (fieldRow b - fieldRow a))

/-- The usable field nearest to `old` among those not taken; the lower ID on a tie. -/
def Wafer.nearest (w : Wafer) (old : Nat) (taken : List Nat) : Option Nat :=
  match (List.range 112).filter fun f => w.fieldUsable f && !taken.contains f with
  | [] => none
  | x :: l => some (l.foldl (fun a b => if fieldHops old b < fieldHops old a then b else a) x)

/-- The proposal for the last placement (R372): physical fields, 0xFF where none was found. (Log 54 DESIGN CHOICE.) -/
def Wafer.proposal (w : Wafer) : List Nat :=
  let pl := w.job.placement
  (pl.foldl (fun (acc : List Nat × List Nat) f =>
    if w.fieldUsable f then (acc.1 ++ [f], acc.2)
    else match w.nearest f acc.2 with
      | some g => (acc.1 ++ [g], acc.2 ++ [g])
      | none => (acc.1 ++ [0xFF], acc.2)) ([], pl)).1

/-- REPLACE_READY (R372): Shepherd completes the proposal that a job fault made it compute. -/
def execReplaceReady (s : State) : Host.Outcome State Fault Refusal :=
  s.upd fun w => w.asDuty 2 fun w =>
    if w.rd hltBase Reg.hltReplaceState ≠ 1 then w
    else
      let pl := w.proposal
      let floorOk := match w.imageFloor w.period with
        | some f => w.topsReach pl f
        | none => false
      let ok := !pl.contains 0xFF && floorOk && w.routesOk pl
      let moved := countIf (fun (p : Nat × Nat) => p.1 != p.2) (pl.zip w.job.placement)
      let w := { w with health := { w.health with proposal := pl } }
      let w := w.wrs hltBase [(Reg.hltReplaceSeq, w.rd hltBase Reg.hltReplaceSeq + 1), (Reg.hltReplaceState, if ok then 2 else 3),
        (Reg.hltReplaceMoved, moved)]
      w.notify 0x0B12 detailNone

end Sys2Proof.Machine
end

