-- ==== Sys2Proof/Machine/FieldPower.lean ====
section
/-!
DEFINITION. Sys2Proof/Machine/FieldPower.lean: the entry into a field power state and the wake to RUN (R333 to R336).
-/

namespace Sys2Proof.Machine

/-- A field has latched a state other than RUN; in DOZE and FALLOW its routers are as fenced ones, and lose what they hold (R168, R333).
(Log 49 DESIGN CHOICE.) -/
def Wafer.latchState (w : Wafer) (f st : Nat) : Wafer :=
  let w := w.wrs (fieldBase f) [(Reg.fpwStateState, st), (Reg.fpwStateTrans, 0)]
  let w := if st = 3 then (w.setRail f 0) else if st = 2 then w.setRail f 420 else w
  ((if 2 ≤ st then (w.relight (64 + f)).loseRouters (unitRouters (fField f)) else w).stateReached f st).settleStandby

/-- FIELD_ENTRY_DONE (R336): the commit window closes. `level` is the level-type wake source still asserted then: 0 none, or
its code in Table 14-6. (Log 50 DESIGN CHOICE.) -/
def execFieldEntryDone (field level : Nat) (s : State) : Host.Outcome State Fault Refusal :=
  fieldStep field s fun w =>
    let t := w.fieldTarget field
    if w.fieldMoving field = false ∨ t = 0 then w
    else
      let w := w.latchState field t
      let goal := (w.fieldPower field).goal
      if (level = 1 ∨ level = 4) ∧ w.canWake field = true then w.beginWake field level
      else if goal.isSome && w.canWake field then
        let w := (w.beginWake field 1).emit (.signal (.wake field))
        w.setFieldPower field { w.fieldPower field with repeating := true, goal := if goal = some 0 then none else goal }
      else w

/-- FIELD_WAKE_EVENT (R336): a source of Table 14-6. A field held in FALLOW takes no wake (R334); an edge during an entry is
lost, and a level then counts when the window closes. -/
def execFieldWakeEvent (field source : Nat) (s : State) : Host.Outcome State Fault Refusal :=
  fieldStep field s fun w =>
    if w.fieldMoving field || w.fieldState field == 0 || !w.canWake field || source == 0 || decide (4 < source) then w
    else w.beginWake field source

/-- WAKE_REPEAT (R336): every 10 µs, until the field reports RUN or its state target changes. The message is an edge. -/
def execWakeRepeat (field : Nat) (s : State) : Host.Outcome State Fault Refusal :=
  fieldStep field s fun w =>
    let p := w.fieldPower field
    if !p.repeating || w.fieldState field == 0 then w.setFieldPower field { p with repeating := false }
    else
      let w := w.emit (.signal (.wake field))
      if w.fieldMoving field || !w.canWake field then w else w.beginWake field 2

/-- FIELD_WAKE_STEP_DONE (R335): steps 1 regulator, 2 PLL, 3 memory (from FALLOW), 4 logic. (Log 50 DESIGN CHOICE.) -/
def execFieldWakeStepDone (field : Nat) (s : State) : Host.Outcome State Fault Refusal :=
  fieldStep field s fun w =>
    let p := w.fieldPower field
    let next := fun (w : Wafer) k => w.setFieldPower field { w.fieldPower field with step := k }
    match p.step with
    | 1 => next (w.railGood field) 2
    | 2 => next w (if w.fieldState field = 3 then 3 else 4)
    | 3 => next (w.zeroField field) 4
    | 4 => (w.enterRun field).placeProgress
    | _ => w

/-- FIELD_WAKE_FAIL (R335): a step has taken more than twice its time. (Log 50 DESIGN CHOICE.) -/
def execFieldWakeFail (field : Nat) (s : State) : Host.Outcome State Fault Refusal :=
  fieldStep field s fun w =>
    let p := w.fieldPower field
    if p.step = 0 then w
    else
      let w := w.setFieldPower field { p with holds := p.holds ++ [0x10], step := 0, goal := none, repeating := false }
      let w := w.powerMgmt 0x10 field (detailOf field 64 255 0)
      let w := w.wrs (fieldBase field) [(Reg.fpwStateTarget, 3), (Reg.fpwStateTrans, 1)]
      let w := w.finishAll (fun x => (fieldStateOf field x).isSome) 0x0401 0x0A10
      (w.unusable field 2 2).placeProgress

end Sys2Proof.Machine
end

