-- ==== Sys2Proof/Machine/Flood.lean ====
section
/-!
DEFINITION. Sys2Proof/Machine/Flood.lean: the flood (R350 to R360): its steps, the record of each field, stack and port, the paths
it fixes, and its commit. The flood is pair 2's duty (R304).
-/

namespace Sys2Proof.Machine

/-- FLOOD_START (R350): the flood that is due begins. -/
def execFloodStart (kind : Nat) (step1 : Bool) (s : State) : Host.Outcome State Fault Refusal :=
  s.upd fun w => w.asDuty 2 fun w =>
    match w.health.floodDue with
    | some (full, commanded, s1) =>
      if w.powered && w.health.flood.isNone && b2n full == kind && s1 == step1 then w.beginFlood full commanded s1 else w
    | none => w

/-! ## Levels -/

/-- A field that a record keeps out of this flood's tests (R329, R356): its region is lost, or it was retired in service for its
supply, its contacts or its wake. A service flood tests it. -/
def Wafer.untested (w : Wafer) (fl : FloodRun) (f : Nat) : Bool :=
  let r := w.fieldRec f
  !fl.service && (w.regionLost f || bit w.map.regions (f / 7) || (r.retired && decide (r.cause = 2 ∨ r.cause = 9)))

/-- The tests of a level begin: each field wakes from FALLOW with source 3 (R352). -/
def Wafer.testFields (w : Wafer) (fl : FloodRun) (level : Nat) (fs : List Nat) : Wafer :=
  let w := { w with health := { w.health with flood := some { fl with step := if level = 0 then 3 else 4, level := level, testing := fs } } }
  let w := if fs.isEmpty then w else w.wr hltBase Reg.hltFloodLevel level
  fs.foldl (fun w f => (w.clearField f).wrs (fieldBase f)
    [(Reg.fpwStateTarget, 0), (Reg.fpwStateTrans, 1), (Reg.fpwStateLastwake, 3), (Reg.fpwStateWaketick, w.tick)]) w

/-- FLOOD_SERVICE_TEST_DONE: step 2 ends. The fields of row 0 are tested from the rim; with a service complex that fails there is
nothing to test from. (Log 53 DESIGN CHOICE.) -/
def execFloodServiceTestDone (passed : Bool) (s : State) : Host.Outcome State Fault Refusal :=
  s.upd fun w => w.asDuty 2 fun w =>
    match w.health.flood with
    | none => w
    | some fl =>
      if 3 ≤ fl.step then w
      else if !passed then w.abandonFlood
      else
        -- a failed wake holds its field until this flood (R334)
        let w := (List.range 112).foldl (fun w f =>
          let p := w.fieldPower f
          if p.holds.contains 0x10 then w.setFieldPower f { p with holds := p.holds.filter fun c => c != 0x10 } else w) w
        w.testFields fl 0 ((List.range 4).filter fun f => !w.untested fl f)

/-! ## What a field's tests show -/

/-- The record of a field in this flood. -/
def FloodRun.recAt (fl : FloodRun) (f : Nat) : FieldRec := mapGet (fun _ => {}) fl.fields f
/-- The field passed as a relay. -/
def FloodRun.relay (fl : FloodRun) (f : Nat) : Bool := decide ((fl.recAt f).status % 8 < 2)

/-- STATUS and CAUSE (R352, R354): the first failing test, or what the record of an earlier retirement says. A field whose test link
failed was not reached. (Log 53 DESIGN CHOICE.) -/
def Wafer.verdict (w : Wafer) (fl : FloodRun) (t : FieldTest) : Nat × Nat :=
  let old := w.fieldRec t.field
  let holds := (w.fieldPower t.field).holds
  let fail := fun (c : Nat) => bits ((2 ^ 20 - 1 - t.siteOk % 2 ^ 20) ||| t.rtrFail ||| (if fl.service then 0 else old.siteRet)) (5 * c) 5
  if holds.contains 0x0C then (2, 0x0C)
  else if holds.contains 0x0A && !fl.service then (2, 9)
  else if !t.relay then (if t.cause = 1 then (3, 1) else (2, t.cause))
  else if t.cause ≠ 0 then (1, t.cause)
  else if !fl.service && old.retired && old.status % 8 == 1 then (1, old.cause)
  else if (List.range 4).any fun c => !bit t.clusterOk c then (1, 5)
  else if (List.range 4).any fun c => coremapFor (fail c) == 2 ^ 16 then (1, 7)
  else if (w.marginRec t.field).top = 6 then (1, 0x0B)
  else (0, 0)

/-- Bits 4 and 3 of STATUS: crack suspect and derated. -/
def statusFlags (derated suspect : Bool) : Nat := 8 * b2n derated + 16 * b2n suspect

/-- Link code of the neighbour order south, west, east, north. -/
def linkOrder : List Nat := [3, 4, 2, 1]

/-- Primary and alternate of a field (R353). -/
def FloodRun.paths (fl : FloodRun) (f depth links : Nat) : Nat × Nat :=
  let at_ := fun (code d : Nat) => match fieldNeighbour f code with
    | some g => fl.relay g && (fl.recAt g).depth == d
    | none => false
  let first := if depth = 0 then 0 else (linkOrder.find? fun c => at_ c (depth - 1) && bit links (c - 1)).getD 7
  let others := linkOrder.filter fun c => c != first
  let up := if depth = 0 then none else others.find? fun c => at_ c (depth - 1)
  (first, (up.orElse fun _ => others.find? fun c => at_ c depth).getD 7)

/-- The record of a tested field. (Log 53 DESIGN CHOICE.) -/
def Wafer.recordOf (w : Wafer) (fl : FloodRun) (t : FieldTest) : FieldRec :=
  let old := w.fieldRec t.field
  let (st, cause) := w.verdict fl t
  let ret := if fl.service then 0 else old.siteRet
  let rtr := t.rtrFail % 2 ^ 20 ||| (if fl.service then 0 else old.rtrFail &&& old.siteRet)
  let fail := (2 ^ 20 - 1 - t.siteOk % 2 ^ 20) ||| ret ||| rtr
  { status := st + statusFlags old.derated old.suspect
    cause := cause, depth := fl.level, links := t.links, derated := old.derated, suspect := old.suspect
    topGear := min (topIndex (w.marginRec t.field).top old.derated) 5
    coremap := (List.range 4).map fun c => if bit t.clusterOk c then coremapFor (bits fail (5 * c) 5) else 2 ^ 16
    rtrFail := rtr, siteFail := fail, siteRet := ret
    retired := !fl.service && old.retired && st == 1
    wlat := t.wlat, wlatAlt := t.wlatAlt }

/-- The port record that failing lanes give (R354). -/
def portRecord (i : Nat) (old : PortRec) (lanes : Nat) (service : Bool) : PortRec :=
  let bad := (if service then 0 else old.retired) ||| lanes
  match widthFor i bad with
  | some (_, h, _) => ⟨if bad = 0 then 0 else 1 + h, bad⟩
  | none => ⟨3, bad⟩

/-- A tested field is left in REST when it passed as a relay, and made FALLOW again otherwise. (Log 53 DESIGN CHOICE.) -/
def Wafer.settleField (w : Wafer) (r : FieldRec) (f : Nat) : Wafer :=
  if r.status % 8 < 2 then
    let w := (w.zeroField f).wrs (fieldBase f) [(Reg.fpwStateState, 1), (Reg.fpwStateTarget, 1), (Reg.fpwStateTrans, 0)]
    let w := w.wrs (fieldBase f) [(Reg.fpwGearTop, topMHz r.topGear), (Reg.fpwGearDerated, b2n r.derated)]
    (w.wr (fieldBase f) Reg.fpwGearApplied (w.gearTarget f)).setRail f (w.railFor f (w.gearTarget f))
  else w.railOff f

/-- The level after this one: untested fields that a relay of this level reaches over a test link that passed. -/
def Wafer.nextLevel (w : Wafer) (fl : FloodRun) : List Nat :=
  (List.range 112).filter fun f =>
    (fl.recAt f).status == 3 && !fl.testing.contains f && !w.untested fl f &&
    linkOrder.any fun c => match fieldNeighbour f c with
      | some g => fl.testing.contains g && fl.relay g && bit (fl.recAt g).links ((if c ≤ 2 then c + 2 else c - 2) - 1)
      | none => false

/-- The test after a FIELD reset (Table 16-5): as in flood step 4, of that field alone; its paths stand. -/
def Wafer.retested (w : Wafer) (t : FieldTest) : Wafer :=
  let f := t.field
  if !w.health.retests.contains f then w
  else
    let w := { w with health := { w.health with retests := w.health.retests.filter fun g => g != f } }
    let old := w.fieldRec f
    let fl : FloodRun := ⟨false, false, true, 4, old.depth, [f], w.map.fields, [], [], []⟩
    let r := { w.recordOf fl t with links := old.links, ref := old.ref, refAlt := old.refAlt, wave := old.wave, waveAlt := old.waveAlt,
                                    wlat := old.wlat, wlatAlt := old.wlatAlt }
    let port := portRecord (64 + f) (portRec w (64 + f)) t.laneFail false
    let m := w.map
    let w := if w.health.map.current.isNone ∨ (r = old ∧ port = portRec w (64 + f)) then w
      else w.commitMap { m with fields := mapSet (fun _ => {}) m.fields f r, ports := mapSet (fun _ => {}) m.ports (64 + f) port }
    let w := (List.range 4).foldl (fun w c => w.setCoremap (4 * f + c) (r.coremap.getD c 0)) w
    ((w.settleField r f).wr (portBase (64 + f)) Reg.tpLinkstatRetired port.retired).relight (64 + f)

/-- FLOOD_LEVEL_DONE (R351 to R354): the results of the fields under test, by a flood or after a FIELD reset. -/
def execFloodLevelDone (results : List FieldTest) (s : State) : Host.Outcome State Fault Refusal :=
  s.upd fun w => w.asDuty 2 fun w =>
    match w.health.flood with
    | none => results.foldl (fun w t => w.retested t) w
    | some fl =>
      if fl.step < 3 ∨ fl.testing.isEmpty = true then w
      else
        let rs := results.filter fun (t : FieldTest) => fl.testing.contains t.field
        let fields := rs.foldl (fun l (t : FieldTest) => mapSet (fun _ => {}) l t.field (w.recordOf fl t)) fl.fields
        let fl1 : FloodRun := { fl with fields := fields }
        -- paths, once every record of the level stands
        let fields := rs.foldl (fun l (t : FieldTest) => mapUpd (fun _ => {}) l t.field fun (r : FieldRec) =>
          let (p, a) := fl1.paths t.field fl.level t.links
          { r with ref := p, refAlt := a, wave := p, waveAlt := a, wlatAlt := if a = 7 then 0xFFFF else r.wlatAlt }) fields
        let ports := rs.foldl (fun l (t : FieldTest) =>
          mapSet (fun _ => {}) l (64 + t.field) (portRecord (64 + t.field) (portRec w (64 + t.field)) t.laneFail fl.service)) fl.ports
        let base := if fl.full && fl.service then fl.base ++ rs.map fun (t : FieldTest) =>
          (t.field, t.baselines.map fun b => (b.group, b.res, b.cur)) else fl.base
        let fl2 : FloodRun := { fl with fields := fields, ports := ports, base := base }
        let w := fl.testing.foldl (fun w f => w.settleField (fl2.recAt f) f) w
        let tested := (fl2.fields.filter fun e => e.2.status % 8 != 3)
        let passed := countIf (fun (e : Nat × FieldRec) => e.2.status % 8 == 0) tested
        let w := w.wrs hltBase [(Reg.hltFloodPassed, passed), (Reg.hltFloodFailed, tested.length - passed)]
        w.testFields fl2 (fl.level + 1) (w.nextLevel fl2)

/-! ## Stacks -/

/-- The stack is tested: its attach field has passed. -/
def FloodRun.stackDue (fl : FloodRun) (stk : Nat) : Bool := fl.relay (stackAttach.getD stk 0)

/-- FLOOD_STACK_TEST_DONE (R354): channels and lanes that fail. -/
def execFloodStackTestDone (stack chanFail laneFail0 laneFail1 : Nat) (s : State) : Host.Outcome State Fault Refusal :=
  s.updIf (decide (stack < 32)) fun w => w.asDuty 2 fun w =>
    match w.health.flood with
    | none => w
    | some fl =>
      if !fl.stackDue stack then w
      else
        let old := mapGet (fun _ => ({} : StackRec)) w.map.stackRecs stack
        let was := if fl.service then 2 ^ 32 - 1 else old.active
        let left := maskOf 32 fun k => bit was k && !bit chanFail k
        let sr : StackRec := { active := left, marked := if fl.service then 0 else old.marked
                               status := if left = was then 0 else 1, rows := old.rows }
        let p := 2 * stack
        let ports := mapSet (fun _ => {}) fl.ports p (portRecord p (portRec w p) laneFail0 fl.service)
        let ports := mapSet (fun _ => {}) ports (p + 1) (portRecord (p + 1) (portRec w (p + 1)) laneFail1 fl.service)
        { w with health := { w.health with
          flood := some { fl with stackRecs := mapSet (fun _ => { status := 3 }) fl.stackRecs stack sr, ports := ports } } }

/-! ## The commit (R359, step 6) -/

/-- The stack's capacity follows its active channels (R178, R179); a quay that moves loses its contents. (Log 32 DEDUCED.) -/
def Wafer.setCapacity (w : Wafer) (stk active : Nat) : Wafer :=
  let n := countIf (fun k => bit active k) (List.range 32)
  if w.rd (stkBase stk) Reg.stkCapActive = active then w
  else
    let w := w.wrs (stkBase stk) [(Reg.stkCapCap, 1536 * n), (Reg.stkCapNact, n), (Reg.stkCapActive, active),
      (Reg.stkBasinQuay, 1536 * n - 2048)]
    { w with stkMem := w.stkMem.zero (stkAddr stk 0) (stkAddr (stk + 1) 0) }

/-- Bring the registers in line with the committed map and plan. (Log 53 DESIGN CHOICE.) -/
def Wafer.applyMap (w : Wafer) : Wafer :=
  let m := w.map
  let w := m.fields.foldl (fun w (e : Nat × FieldRec) =>
    let w := (List.range 4).foldl (fun w c => w.setCoremap (4 * e.1 + c) (e.2.coremap.getD c 0)) w
    let o := (w.marginRec e.1).offsets
    let w := w.wrs (agmBase e.1) [(Reg.agmVminOffset0, o.getD 0 0), (Reg.agmVminOffset1, o.getD 1 0), (Reg.agmVminOffset2, o.getD 2 0),
      (Reg.agmVminOffset3, o.getD 3 0), (Reg.agmVminOffset4, o.getD 4 0), (Reg.agmVminOffset5, o.getD 5 0)]
    w.wrs (fieldBase e.1) [(Reg.fpwGearTop, topMHz e.2.topGear), (Reg.fpwGearDerated, b2n e.2.derated),
      (Reg.fpwCrackSuspect, b2n e.2.suspect), (Reg.fpwCrackFailed, b2n (e.2.status % 8 == 2 && e.2.cause == 9))]) w
  let w := m.stackRecs.foldl (fun w (e : Nat × StackRec) => w.setCapacity e.1 e.2.active) w
  let w := m.stackRecs.foldl (fun w (e : Nat × StackRec) => w.setStack e.1 { w.stack e.1 with
    marked := (List.range 32).filter fun k => bit e.2.marked k }) w
  m.ports.foldl (fun w (e : Nat × PortRec) => w.wr (portBase e.1) Reg.tpLinkstatRetired e.2.retired) w

/-- Scribe and signal canal links as the map records them (Table 15-5): a link is tested when the field at either end passed as a relay,
and both records show the result. A row-0 field's link to the rim is tested from the rim. -/
def FloodRun.linksOf (fl : FloodRun) (f : Nat) : Nat :=
  maskOf 8 fun k =>
    let c := k % 4 + 1
    let own := bit (fl.recAt f).links k
    match fieldNeighbour f c with
    | some g => (fl.relay f && own) || (fl.relay g && bit (fl.recAt g).links (k / 4 * 4 + (if c ≤ 2 then c + 2 else c - 2) - 1))
    | none => c == 3 && fieldRow f == 0 && own

/-- The fenced rectangles after a flood (R168, R354): of the failed routers, the fields that did not pass, and the fences that stand. -/
def Wafer.floodRects (w : Wafer) (plane : Nat) : List Rect :=
  let fields := (List.range 112).filter fun f => decide (2 ≤ (w.fieldRec f).status % 8) || w.fieldFenced f
  let routers := (List.range 112).flatMap fun f =>
    if fields.contains f then []
    else (rangeFrom (20 * f) 20).filter fun s =>
      bit (w.fieldRec f).rtrFail (s % 20) || w.clusterFenced (siteCluster s) || w.fenced (fRouter (2 * s + plane))
  (fields.map fieldRect ++ routers.map fun s => (⟨siteX s, siteY s, siteX s, siteY s⟩ : Rect)).foldl addRect []

/-- The map a flood commits: lost regions stand unless a service flood has found all their fields to pass. -/
def Wafer.floodMap (w : Wafer) (fl : FloodRun) : WaferMap :=
  let old := w.map
  let lost := maskOf 16 fun r => (bit old.regions r || w.regionLost (7 * r)) &&
    !(fl.service && (rangeFrom (7 * r) 7).all fun f => fl.relay f)
  let fields := (List.range 112).foldl (fun l f =>
    let r := if bit lost (f / 7) then { w.fieldRec f with status := 4, cause := 0x0A, retired := true }
      else if w.untested fl f then w.fieldRec f else { fl.recAt f with links := fl.linksOf f }
    mapSet (fun _ => {}) l f r) []
  { old with
    kind := b2n fl.full + 128 * b2n fl.service
    depth := fields.foldl (fun d e => if e.2.status % 8 < 3 then max d e.2.depth else d) 0
    regions := lost, fields := fields
    stackRecs := (List.range 32).foldl (fun l s => mapSet (fun _ => {}) l s
      (if fl.stackDue s then mapGet (fun _ => {}) fl.stackRecs s else mapGet (fun _ => {}) old.stackRecs s)) []
    ports := (List.range 176).foldl (fun l i => mapSet (fun _ => {}) l i (mapGet (fun _ => { status := 4, retired := (portRec w i).retired }) fl.ports i)) [] }

/-- The margin plan with the new crack baselines. -/
def Wafer.floodPlan (w : Wafer) (fl : FloodRun) : MarginPlan :=
  let p := w.plan
  { p with fields := fl.base.foldl (fun l b => mapUpd (fun _ => {}) l b.1 fun (m : MarginRec) => { m with base := b.2 }) p.fields }

/-- Every quay line holds +0 with a valid code word (R179). -/
def Wafer.zeroQuay (w : Wafer) : Wafer :=
  (List.range 32).foldl (fun (w : Wafer) s =>
    { w with stkMem := w.stkMem.zero (stkAddr s (w.quayStart s)) (stkAddr s (w.rd (stkBase s) Reg.stkCapCap * 2 ^ 21)) })
    { w with health := { w.health with quayLost := false } }

/-- FLOOD_COMMIT (step 6): nothing is left to test. A full memory test has marched every stack line; a flood that follows a loss of the
stacks' contents writes the quay. -/
def execFloodCommit (s : State) : Host.Outcome State Fault Refusal :=
  s.upd fun w => w.asDuty 2 fun w =>
    match w.health.flood with
    | none => w
    | some fl =>
      let due := (List.range 32).any fun s => fl.stackDue s && !fl.stackRecs.any fun e => e.1 == s
      if fl.step < 3 || !fl.testing.isEmpty || due then w
      else
        let plan := w.floodPlan fl
        let w := (w.commitMap (w.floodMap fl)).commitPlan plan
        let w := { w with health := { w.health with flood := none, retireSites := [] } }
        let w := w.wr pwrBase Reg.pwrStatRegionlost w.map.regions
        -- a service flood clears the hold of a field that passes (R334, R357)
        let w := if fl.service then (List.range 112).foldl (fun w f =>
            if fl.relay f then w.setFieldPower f { w.fieldPower f with holds := [], suspects := [] } else w) w else w
        let w := if fl.full then w.stacksOff else w
        let w := w.applyMap
        let w := w.setRects (w.floodRects 0) (w.floodRects 1)
        let w := if w.health.quayLost then w.zeroQuay else w
        let w := w.wrs hltBase [(Reg.hltFloodState, 2), (Reg.hltCtlService, 0)]
        let w := (w.wr pwrBase Reg.pwrStatState 2).relightAll
        w.finishAll (fun x => x.opcode == 0x0603 && x.working) 0 0

end Sys2Proof.Machine
end

