-- ==== Sys2Proof/Machine/Gme.lean ====
section
/-!
DEFINITION. Sys2Proof/Machine/Gme.lean: the gather-merge engine (chapter 6): lanes (R138), the checks of Table 6-4 (R144),
the slots of R139, and faults (R145).
-/

namespace Sys2Proof.Machine

/-! ## Reading a sparse tensor (R132 to R134) -/

/-- Where a tensor lies: the memory, the key of its header and the first key past the memory. -/
structure SparseAt where
  mem : Mem
  base : Nat
  limit : Nat

/-- A byte of the tensor; past the end of its memory the spec gives it no value. (Log 5 DESIGN CHOICE.) -/
def SparseAt.byte (t : SparseAt) (off : Nat) : Byte :=
  if t.base + off < t.limit then t.mem.get (t.base + off) else BitVec.ofNat 8 (Config.freeValue (t.base + off))
def SparseAt.bytes (t : SparseAt) (off n : Nat) : List Byte := (List.range n).map fun i => t.byte (off + i)
def SparseAt.num (t : SparseAt) (off n : Nat) : Nat := leNat (t.bytes off n)
def SparseAt.bad (t : SparseAt) (off n : Nat) : Bool := t.mem.badIn (t.base + off) (min n (t.limit - (t.base + off)))

/-- The tensor a load descriptor names; cluster memory ends at the scratch limit (R191). -/
def sparseAt (w : Wafer) (site : Nat) (d : LoadDesc) : SparseAt :=
  let cl := siteCluster site
  if d.cluster then ⟨w.cluMem, cluAddr cl d.src, cluAddr cl (w.scratchLimit cl)⟩
  else ⟨w.coreMem, coreAddr site d.src, coreAddr site (2 ^ 24)⟩

/-- Header fields (Table 6-1). -/
def SparseAt.ktotal (t : SparseAt) : Nat := t.num 8 4
def SparseAt.ntotal (t : SparseAt) : Nat := t.num 12 4
def SparseAt.kt (t : SparseAt) : Nat := t.num 16 2
def SparseAt.nt (t : SparseAt) : Nat := t.num 18 2
def SparseAt.l2off (t : SparseAt) : Nat := t.num 20 4
def SparseAt.idxoff (t : SparseAt) : Nat := t.num 24 4
def SparseAt.size (t : SparseAt) : Nat := t.num 28 4

/-- Number of a region in the level-2 bitmap and the offset table. -/
def SparseAt.regionNo (t : SparseAt) (kt nt : Nat) : Nat := nt * t.kt + kt
def SparseAt.present (t : SparseAt) (r : Nat) : Bool := bit (t.num (t.l2off + r / 8) 1) (r % 8)
def SparseAt.record (t : SparseAt) (r : Nat) : Nat := t.num (t.idxoff + 4 * r) 4

/-- A set group of a region: column, group, level-0 byte, and the place of its first value. -/
structure SetGroup where
  col : Nat
  grp : Nat
  byte : Nat
  first : Nat
  deriving DecidableEq, Repr, Inhabited

def popcount8 (x : Nat) : Nat := countIf (fun i => bit x i) (List.range 8)

/-- Place of the i-th set bit of a byte. -/
def nthBit (x i : Nat) : Nat := ((List.range 8).filter fun j => bit x j).getD i 0

def pad32 (n : Nat) : Nat := ceilDiv n 32 * 32

/-- A region record: its offset, G, NNZ, L0LEN, VLEN. -/
structure RegionRec where
  off : Nat
  g : Nat
  nnz : Nat
  l0len : Nat
  vlen : Nat
  deriving DecidableEq, Repr, Inhabited

def SparseAt.region (t : SparseAt) (off g : Nat) : RegionRec := ⟨off, g, t.num off 4, t.num (off + 4) 4, t.num (off + 8) 4⟩

def RegionRec.l1 (r : RegionRec) : Nat := r.off + 32
def RegionRec.l0 (r : RegionRec) : Nat := r.l1 + 16 * r.g
def RegionRec.vals (r : RegionRec) : Nat := r.l0 + pad32 r.l0len
def RegionRec.last (r : RegionRec) : Nat := r.vals + pad32 r.vlen

/-- The set groups of a region in level-1 bit order. -/
def SparseAt.groups (t : SparseAt) (r : RegionRec) : List SetGroup :=
  let l1 := t.bytes r.l1 (16 * r.g)
  let set := (List.range (128 * r.g)).filter fun i => bit (l1.getD (i / 8) 0#8).toNat (i % 8)
  (set.foldl (fun (p : List SetGroup × Nat × Nat) i =>
    let b := t.num (r.l0 + p.2.1) 1
    (p.1 ++ [⟨i / r.g, i % r.g, b, p.2.2⟩], p.2.1 + 1, p.2.2 + popcount8 b)) ([], 0, 0)).1

/-! ## The checks (Table 6-4) -/

/-- Where a check fails: region within the tile, column, group. -/
structure SparseFail where
  code : Nat
  region : Nat := 0
  col : Nat := 0
  grp : Nat := 0
  deriving DecidableEq, Repr, Inhabited

def firstSome {α β : Type} (f : α → Option β) : List α → Option β
  | [] => none
  | x :: l => match f x with
    | some y => some y
    | none => firstSome f l

/-- The present regions of a tile with their place in it. -/
def SparseAt.tileRegions (t : SparseAt) (m : Mode) (d : LoadDesc) : List (Nat × RegionRec) :=
  ((List.range (d.regions m)).filter fun s => t.present (t.regionNo (d.kt0 + s) d.nti)).map fun s =>
    (s, t.region (t.record (t.regionNo (d.kt0 + s) d.nti)) (kMax m.wfmt / 8))

/-- Columns and depths beyond the tensor (code 7). -/
def SparseAt.beyond (t : SparseAt) (m : Mode) (d : LoadDesc) (s : Nat) (g : SetGroup) : Bool :=
  let depth := (d.kt0 + s) * kMax m.wfmt + 8 * g.grp
  decide (t.ntotal ≤ 128 * d.nti + g.col) || decide (t.ktotal ≤ depth) ||
  (List.range 8).any fun j => bit g.byte j && decide (t.ktotal ≤ depth + j)

/-- u, the slots of a tile (R139). -/
def SparseAt.slotCount (t : SparseAt) (m : Mode) (d : LoadDesc) : Nat :=
  ((t.tileRegions m d).map fun e =>
    let gs := (t.groups e.2).filter fun g => decide (g.col < d.n)
    ((List.range e.2.g).map fun g => (gs.filter fun x => x.grp == g).foldl (fun a x => max a (popcount8 x.byte)) 0).foldl (· + ·) 0).foldl (· + ·) 0

/-- The first check that fails, in table order (R144). The entry of a region whose level-2 bit is 0 is ignored (R133). -/
def sparseCheck (w : Wafer) (site : Nat) (m : Mode) (d : LoadDesc) : Option SparseFail :=
  let t := sparseAt w site d
  let sN := d.regions m
  if t.num 0 4 ≠ 0x50534D47 ∨ t.num 6 2 ≠ 1 ∨ t.num 4 1 ≠ m.wfmt ∨ t.kt < d.kt0 + sN ∨ t.nt ≤ d.nti then some ⟨0x01, 0, 0, 0⟩
  else
    let outside := fun (off n : Nat) => decide (t.size < off + n ∨ t.limit < t.base + off + n)
    let rs := t.tileRegions m d
    let gr := fun (e : Nat × RegionRec) => t.groups e.2
    let fail := fun (code : Nat) (p : Nat × RegionRec → Bool) =>
      firstSome (fun e => if p e then some (⟨code, e.1, 0, 0⟩ : SparseFail) else none) rs
    let failG := fun (code : Nat) (p : Nat → SetGroup → Bool) =>
      firstSome (fun (e : Nat × RegionRec) =>
        firstSome (fun g => if p e.1 g then some (⟨code, e.1, g.col, g.grp⟩ : SparseFail) else none) (gr e)) rs
    let entry := fun (s : Nat) => t.idxoff + 4 * t.regionNo (d.kt0 + s) d.nti
    let headBad := t.bad 0 64 || ((List.range sN).any fun s => t.bad (t.l2off + t.regionNo (d.kt0 + s) d.nti / 8) 1) ||
      rs.any fun e => t.bad (entry e.1) 4
    let db := if d.dbound = 0 then 256 else d.dbound
    firstSome id
      [fail 0x02 (fun e => outside (entry e.1) 4 || outside e.2.off 32 || outside e.2.off (e.2.last - e.2.off)),
       fail 0x03 (fun e => (gr e).isEmpty),
       fail 0x04 (fun e => e.2.l0len != (gr e).length),
       failG 0x05 (fun _ g => g.byte == 0),
       fail 0x06 (fun e => e.2.nnz != ((gr e).map fun g => popcount8 g.byte).foldl (· + ·) 0 ||
         e.2.vlen != ceilDiv (e.2.nnz * fmtBits m.wfmt) 8),
       failG 0x07 (fun s g => t.beyond m d s g),
       if headBad then some ⟨0x08, 0, 0, 0⟩ else fail 0x08 (fun e => t.bad e.2.off 32 || t.bad e.2.l1 (16 * e.2.g + e.2.l0len)),
       if db * d.k < 256 * t.slotCount m d then some ⟨0x10, 0, 0, 0⟩ else none]

/-! ## The slots (R139) -/

/-- The slot map of one region: rows of N entries, each the bit of the tensor at which its value begins, and its dense depth index in the
tile. -/
def SparseAt.slots (t : SparseAt) (m : Mode) (d : LoadDesc) (e : Nat × RegionRec) : List (List (Option (Nat × Nat))) :=
  let b := fmtBits m.wfmt
  let gs := (t.groups e.2).filter fun g => decide (g.col < d.n)
  (List.range e.2.g).flatMap fun g =>
    let here := gs.filter fun x => x.grp == g
    let h := here.foldl (fun a x => max a (popcount8 x.byte)) 0
    (List.range h).map fun i => (List.range d.n).map fun n =>
      match here.find? fun x => x.col == n with
      | none => none
      | some x => if i < popcount8 x.byte
          then some (8 * e.2.vals + b * (x.first + i), e.1 * kMax m.wfmt + 8 * g + nthBit x.byte i) else none

/-- The slot map of a tile, which setup forms (R138, R139). -/
def slotMap (w : Wafer) (site : Nat) (m : Mode) (d : LoadDesc) : List (List (Option (Nat × Nat))) :=
  let t := sparseAt w site d
  (t.tileRegions m d).flatMap fun e => t.slots m d e

/-- The value that begins at a bit of the tensor. -/
def SparseAt.valueAt (t : SparseAt) (m : Mode) (at_ : Nat) : Nat := bits (t.num (at_ / 8) (ceilDiv (at_ % 8 + fmtBits m.wfmt) 8)) (at_ % 8) (fmtBits m.wfmt)

/-- The tile that a lane emits: the values as it reads them now, each with its depth index + 2^16 (R138, R145). -/
def sparseTile (w : Wafer) (site : Nat) (m : Mode) (d : LoadDesc) (slots : List (List (Option (Nat × Nat)))) : Tile :=
  let t := sparseAt w site d
  let codes := slots.map fun r => r.map fun x => x.map fun v => t.valueAt m v.1 + 2 ^ 16 * v.2
  let bad := slots.any fun r => r.any fun x => match x with
    | some v => t.bad (v.1 / 8) 1
    | none => false
  ⟨m, true, d.k, d.n, d.regions m, d.dbound, codes, [], bad⟩

/-- The GME's reads from cluster memory wait for an arbiter that grants nothing (R138, R192): the tensor's whole SIZE. -/
def tensorShut (w : Wafer) (site : Nat) (d : LoadDesc) : Bool :=
  d.cluster && w.groupsShut (siteCluster site) d.src (max 64 (sparseAt w site d).size)

/-! ## Lanes (R138) -/

/-- Show lanes and queue in GME_STAT. -/
def Wafer.gmeSync (w : Wafer) (cl : Nat) (g : Gme) : Wafer :=
  (w.setGme cl g).wrs (gmeBase cl)
    [(Reg.gmeStatLanes, maskOf 4 fun i => g.lanes.any fun l => l.1 == i), (Reg.gmeStatQueue, g.queue.length)]

def gmeLaneOf (g : Gme) (lane : Nat) : Option GmeLane := (g.lanes.find? fun l => l.1 == lane).map (·.2)

/-- GME_LANE_TAKE (R138): a free lane takes the oldest request; a fenced cluster's GME is stopped (R146). -/
def execGmeLaneTake (cluster : Nat) (s : State) : Host.Outcome State Fault Refusal :=
  s.updIf (decide (cluster < 448)) fun w =>
    let g := w.gme cluster
    if w.clusterFenced cluster then w
    else match g.queue, (List.range 4).find? fun l => (gmeLaneOf g l).isNone with
      | e :: q, some l =>
        let x := w.engine e
        let w := w.setEngine e { x with pend := x.pend.map fun p => { p with gme := .lane } }
        w.gmeSync cluster { lanes := g.lanes ++ [(l, ⟨e, false⟩)], queue := q }
      | _, _ => w

/-- A tile ends with a GME fault (R144, R145). -/
def Wafer.gmeFault (w : Wafer) (cl e : Nat) (p : Pend) (f : SparseFail) : Wafer :=
  let b := gmeBase cl
  let valid := w.rd b Reg.gmeFaultValid
  let w := w.recordFirst b Reg.gmeFaultValid
    [(Reg.gmeFaultCode, f.code), (Reg.gmeFaultSite, e / 2 % 20 % 5), (Reg.gmeFaultEngine, e % 2), (Reg.gmeFaultRegion, f.region),
     (Reg.gmeFaultColumn, f.col), (Reg.gmeFaultGroup, f.grp)]
  let w := if valid = 1 then w else w.wrs b [(Reg.gmeFaddrSrc, p.desc.src), (Reg.gmeFaddrSpace, b2n p.desc.cluster)]
  let w := (w.engineDiscard e).coreStop (e / 2)
  let w := w.wr (matBase (e / 2) (e % 2)) Reg.matStatState 3
  w.jobFault (0x0400 + f.code) (detailOf (e / 2 / 20) (e / 2 % 20) 255 (e % 2))

/-- GME_SETUP_DONE (R138, R144): the checks and the slot map; then the lane begins to emit the tile. (Log 21 DEDUCED.) -/
def execGmeSetupDone (cluster lane : Nat) (s : State) : Host.Outcome State Fault Refusal :=
  s.updIf (decide (cluster < 448 ∧ lane < 4)) fun w =>
    let g := w.gme cluster
    match gmeLaneOf g lane with
    | none => w
    | some l =>
      let x := w.engine l.engine
      if l.emitting || w.clusterFenced cluster then w
      else match x.pend with
        | none => w
        | some p =>
          if tensorShut w (l.engine / 2) p.desc then w
          else match sparseCheck w (l.engine / 2) p.mode p.desc with
          | some f => w.gmeFault cluster l.engine p f
          | none =>
            let w := w.setEngine l.engine { x with pend := some { p with slots := some (slotMap w (l.engine / 2) p.mode p.desc) } }
            w.gmeSync cluster { g with lanes := g.lanes.map fun x => if x.1 = lane then (lane, ⟨l.engine, true⟩) else x }

/-- GME_EMISSION_DONE (R138, R146): 256 rows are in the feeder, with the values that the lane has read as it went, and the lane is free.
(Log 21 DEDUCED.) -/
def execGmeEmissionDone (cluster lane : Nat) (s : State) : Host.Outcome State Fault Refusal :=
  s.updIf (decide (cluster < 448 ∧ lane < 4)) fun w =>
    let g := w.gme cluster
    match gmeLaneOf g lane with
    | none => w
    | some l =>
      let x := w.engine l.engine
      if !l.emitting || w.clusterFenced cluster then w
      else match x.pend.bind fun p => p.slots.map fun m => (p, m) with
        | none => w
        | some (p, m) =>
          if tensorShut w (l.engine / 2) p.desc then w
          else
          let t := sparseTile w (l.engine / 2) p.mode p.desc m
          let w := w.setEngine l.engine { x with pend := some { p with gme := .emitted, fed := some t } }
          let w := w.gmeSync cluster { g with lanes := g.lanes.filter fun e => e.1 != lane }
          let empty := (t.w.map fun r => countIf Option.isNone r).foldl (· + ·) 0
          let b := gmeBase cluster
          (((w.count b Reg.gmeTiles).count b Reg.gmeRows 256).count b Reg.gmeSlots t.w.length).count b Reg.gmeEmpty empty

end Sys2Proof.Machine
end

