-- ==== Sys2Proof/Machine/Mov.lean ====
section
/-!
DEFINITION. Sys2Proof/Machine/Mov.lean: the copy engine (R109) and the completion of its copies.
-/

namespace Sys2Proof.Machine

/-- The copy descriptor (Table 5-5). (Log 11 DEDUCED.) -/
def copyOf (l : List Byte) (fill : Option Word) (serial : Nat) : Copy :=
  ⟨fieldAt l 0 4, fieldAt l 4 4, if fill.isSome then 0 else fieldAt l 8 1, fieldAt l 9 1, fieldAt l 10 1, fieldAt l 12 4,
    fieldAt l 16 4, fieldAt l 20 4, fieldAt l 24 4, fill, serial⟩

/-- A field outside Table 5-5. (Log 23 DEDUCED.) -/
def Copy.badParam (c : Copy) : Bool :=
  decide (2 < c.sspace ∨ 2 < c.dspace ∨ (31 < c.sem ∧ c.sem ≠ 0xFF) ∨ c.len % 32 ≠ 0 ∨ c.rows = 0 ∨ 65535 < c.rows ∨
    c.sstride % 32 ≠ 0 ∨ c.dstride % 32 ≠ 0) ||
  (decide (c.dspace = 2 ∨ (c.fill = none ∧ c.sspace = 2)) && c.len != 512)

/-- Rows of a copy lie within the memory a space names, aligned. In the accumulator store a stride moves whole rows.
(Log 20 DEDUCED.) -/
def spanOk (w : Wafer) (site space a stride rows len : Nat) : Bool :=
  if space = 2 then
    (rows == 1 || stride % 512 == 0) && decide (a + (rows - 1) * (stride / 512) < 4096)
  else
    let lim := if space = 0 then 2 ^ 24 else w.scratchLimit (siteCluster site)
    decide (a % 32 = 0 ∧ a + (rows - 1) * stride + len ≤ lim)

/-- The accumulator row `a` of a core's engines, as engine and key. -/
def accRowAddr (site a : Nat) : Nat := accAddr (2 * site + a / 2048) (a / 1024 % 2) (a % 1024)

/-- Accept a copy or a fill. (Log 23 DEDUCED.) -/
def movInstr (fill : Bool) (i : Issue) (w : Wafer) : Went :=
  let c := w.core i.site
  let a := w.descAddr i
  if 8 ≤ c.copies.length then .hold .copies
  else if a % 16 ≠ 0 then .fault 2
  else withDesc w i a 32 fun l =>
    let x := copyOf l (if fill then some (w.rb i) else none) c.serial
    if x.badParam then .fault 5
    else if !(fill || spanOk w i.site x.sspace x.src x.sstride x.rows x.len) ||
        !spanOk w i.site x.dspace x.dst x.dstride x.rows x.len then .fault 2
    else if x.dspace == 0 && (List.range x.rows).any fun r => c.inCode (x.dst + r * x.dstride) x.len then .fault 3
    else
      let banks := [(0, 0), (0, 1), (1, 0), (1, 1)].filter fun b => x.usesBank (2 * i.site + b.1) b.2
      match banks.find? fun b => w.bankHeld (2 * i.site + b.1) b.2 with
      | some b => .hold (.engine (2 * i.site + b.1))
      | none =>
        let w := banks.foldl (fun w b => w.matHold (2 * i.site + b.1) i.held) w
        .ok (w.setCore i.site { c with copies := c.copies ++ [x], serial := c.serial + 1 })

/-- MOV.COPY (R109). -/
def execMovCopy (i : Issue) (s : State) : Host.Outcome State Fault Refusal :=
  coreInstr i s (decide (i.d ≠ 0 ∨ i.b ≠ 0 ∨ i.c ≠ 0)) (movInstr false i)

/-- MOV.FILL (R109): the 64-bit value in sB, repeatedly. -/
def execMovFill (i : Issue) (s : State) : Host.Outcome State Fault Refusal :=
  coreInstr i s (decide (i.d ≠ 0 ∨ i.c ≠ 0)) (movInstr true i)

/-- MOV.WAIT (R109): at most IMM[2:0] copies outstanding. -/
def execMovWait (i : Issue) (s : State) : Host.Outcome State Fault Refusal :=
  coreInstr i s (decide (i.d ≠ 0 ∨ i.a ≠ 0 ∨ i.b ≠ 0 ∨ i.c ≠ 0)) fun w =>
    if (w.core i.site).copies.length ≤ i.imm.toNat % 8 then .ok w else .hold .copies

/-- Read row r of a copy's source: its bytes and its poisoned words. (Log 23 DEDUCED.) -/
def copyRead (w : Wafer) (site : Nat) (x : Copy) (r : Nat) : List Byte × List Nat :=
  match x.fill with
  | some v => ((List.range (x.len / 8)).flatMap fun _ => natLE 8 v.toNat, [])
  | none =>
    let get := fun (m : Mem) (a : Nat) => (m.read a x.len, m.badWords a x.len)
    match x.sspace with
    | 0 => get w.coreMem (coreAddr site (x.src + r * x.sstride))
    | 1 => get w.cluMem (cluAddr (siteCluster site) (x.src + r * x.sstride))
    | _ => get w.accMem (accRowAddr site (x.src + r * (x.sstride / 512)))

/-- Write row r of a copy's destination; poison moves with its words (R131, R202). (Log 23 DEDUCED.) -/
def copyWrite (w : Wafer) (site : Nat) (x : Copy) (r : Nat) (l : List Byte × List Nat) : Wafer :=
  match x.dspace with
  | 0 => { w with coreMem := w.coreMem.writeBad (coreAddr site (x.dst + r * x.dstride)) l.1 l.2 }
  | 1 => { w with cluMem := w.cluMem.writeBad (cluAddr (siteCluster site) (x.dst + r * x.dstride)) l.1 l.2 }
  | _ => { w with accMem := w.accMem.writeBad (accRowAddr site (x.dst + r * (x.dstride / 512))) l.1 l.2 }

/-- COPY_COMPLETE (R109): the rows have moved in increasing order, and the semaphore is posted. A copy that an arbiter does not grant
does not complete. (Log 9 DESIGN CHOICE.) -/
def execCopyComplete (site idx : Nat) (s : State) : Host.Outcome State Fault Refusal :=
  s.updIf (decide (site < 2240)) fun w =>
    let c := w.core site
    if idx < c.copies.length ∧ w.copyShut site (c.copies.getD idx default) = false then
      let x := c.copies.getD idx default
      let w := (List.range x.rows).foldl (fun w r => copyWrite w site x r (copyRead w site x r)) w
      let w := w.updCore site fun c => { c with copies := dropAt c.copies idx }
      let w := ((w.engineSync (2 * site)).engineSync (2 * site + 1)).count (veccBase site) Reg.movBytes (x.len * x.rows)
      if x.sem = 0xFF then w else w.semPost site x.sem 1
    else w

end Sys2Proof.Machine
end

