-- ==== Sys2Proof/Machine/Power.lean ====
section
/-!
DEFINITION. Sys2Proof/Machine/Power.lean: the input (R326, R327, R341, R347, R348), the power path (R328, R329), assist
regulators and droop (R330, R331), and contact cracks (R332).
-/

namespace Sys2Proof.Machine

/-- INPUT_UNDERVOLTAGE (R341): input below 38 V. -/
def execInputUndervoltage (s : State) : Host.Outcome State Fault Refusal :=
  s.upd fun w => if (w.power.levels.getD 2 none).isSome then w else w.setSource 2 (some (pctOf w.brkpct w.cap))

/-- INPUT_LOW (R26, R348): a job fault and the fences before the ports go dark, then every field fallow and standby. -/
def execInputLow (s : State) : Host.Outcome State Fault Refusal :=
  s.upd fun w =>
    if !w.powered then w
    else
      let used := (List.range 112).filter fun f => w.fieldInRun f
      let w := ((w.powerFault 4 0 0 detailNone w.armedOrRunning).fenceAll 0x0A04).cutPower
      ((List.range 112).foldl (fun w f => w.fallowField f 4 (used.contains f)) w).settleStandby

/-- INPUT_HIGH (Table 14-1, R347): above 52 V an event; above 54 V for 100 µs the ordered shutdown. -/
def execInputHigh (shutdown : Bool) (s : State) : Host.Outcome State Fault Refusal :=
  s.upd fun w => if shutdown then w.orderedShutdown 3 0 detailNone else w.powerMgmt 3 0 detailNone

/-- The low input no longer holds the fields. -/
def Wafer.releaseHold (w : Wafer) (f code : Nat) : Wafer :=
  let p := w.fieldPower f
  if p.holds.contains code then w.setFieldPower f { p with holds := p.holds.filter fun c => c != code } else w

/-- INPUT_RESTORED (R348, R350): at or above 40 V for 100 ms. The module powers its fields again, unless an ordered shutdown
holds it in standby; a cold flood that is due begins. -/
def execInputRestored (s : State) : Host.Outcome State Fault Refusal :=
  s.upd fun w =>
    if !w.power.standby || w.power.shutdown || w.rd pwrBase Reg.pwrStatState != 0 then w
    else
      let w := (List.range 112).foldl (fun w f => w.releaseHold f 4) w
      match w.health.floodDue with
      | some (full, commanded, step1) => (w.wr pwrBase Reg.pwrStatState 1).beginFlood full commanded step1
      | none => (w.wr pwrBase Reg.pwrStatState 2).relightAll

/-- INPUT_SAMPLE (R327, R341): every 1 µs, the input in mV and 0.1 A, and the coolant at its couplings in 0.01 °C.
(Log 51 DEDUCED.) -/
def execInputSample (volt curr tin tout : Nat) (s : State) : Host.Outcome State Fault Refusal :=
  s.upd fun w => (w.showCoolant tin tout).takeSample volt curr

/-- A field's own power supply fails it: fenced, unusable in the wafer map. -/
def Wafer.supplyFails (w : Wafer) (f code status cause : Nat) : Wafer :=
  let used := w.fieldInRun f
  let w := w.raiseFence (fField f) (0x0A00 + code) false
  (w.powerFault code f (f / 7) (detailOf f 64 255 0) used).unusable f status cause

/-- PHASE_FAIL (R328): the second failed phase of a group fences the field; a further one is only marked. -/
def execPhaseFail (field phase : Nat) (s : State) : Host.Outcome State Fault Refusal :=
  s.updIf (decide (field < 112 ∧ phase < 24)) fun w =>
    let m := w.rd (fieldBase field) Reg.fpwSupplyPhasefail
    if bit m phase then w
    else
      let w := w.wr (fieldBase field) Reg.fpwSupplyPhasefail (m + 2 ^ phase)
      match countIf (fun k => bit m k) (List.range 24) with
      | 0 => w.powerMgmt 7 field (detailOf field 64 255 0)
      | 1 => w.supplyFails field 7 2 2
      | _ => w

/-- POWER_REGION_LOST (R26, R329): the region's fields and their area ports are fenced, and the fields lost until a service flood. -/
def execPowerRegionLost (region : Nat) (s : State) : Host.Outcome State Fault Refusal :=
  s.updIf (decide (region < 16)) fun w =>
    let old := w.rd pwrBase Reg.pwrStatRegionlost
    if bit old region then w
    else
      let fs := rangeFrom (7 * region) 7
      let used := fs.any fun f => w.fieldInRun f
      let w := fs.foldl (fun w f => (w.raiseFence (fField f) 0x0A05 false).fenceOnce (fPort (64 + f)) 0x0A05) w
      let w := w.powerFault 5 (7 * region) region detailNone used
      let w := w.wr pwrBase Reg.pwrStatRegionlost (old + 2 ^ region)
      let w := fs.foldl (fun w f => (w.finishAll (fun x => (fieldStateOf f x).isSome) 0x0406 0).railOff f) w
      let m := w.map
      w.commitMap { m with
        regions := if bit m.regions region then m.regions else m.regions + 2 ^ region
        fields := fs.foldl (fun l f => mapUpd (fun _ => {}) l f fun r =>
          { r with status := r.status - r.status % 8 + 4, cause := 0x0A, retired := true }) m.fields }

/-- ASSIST_FAIL (R330): one or two failed regulators of a cluster give S = 4; the third fences and retires the cluster. -/
def execAssistFail (cluster reg : Nat) (s : State) : Host.Outcome State Fault Refusal :=
  s.updIf (decide (cluster < 448 ∧ reg < 8)) fun w =>
    let f := cluster / 4
    let c := cluster % 4
    let b := fieldBase f
    let m := w.rd b Reg.fpwSupplyAssistfail
    if bit m (8 * c + reg) then w
    else
      let n := countIf (fun k => bit m (8 * c + k)) (List.range 8) + 1
      let st := w.rd b Reg.fpwSupplyStagger
      let w := w.wrs b [(Reg.fpwSupplyAssistfail, m + 2 ^ (8 * c + reg)), (Reg.fpwSupplyStagger, if bit st c then st else st + 2 ^ c)]
      if n < 3 then w.powerMgmt 8 f (detailCluster cluster)
      else if n = 3 then (w.powerFault 8 f (f / 7) (detailCluster cluster) (w.fieldInRun f)).retireCluster cluster 8
      else w

/-- POWER_DROOP (R331): a rail below the hard floor for 5 ns, which is ten samples of the monitor below the soft level or
more. -/
def execPowerDroop (field : Nat) (s : State) : Host.Outcome State Fault Refusal :=
  fieldStep field s fun w =>
    if w.fieldState field = 3 then w
    else
      let b := fieldBase field
      let (n, w) := w.fresh
      let (v, w) := w.fresh
      let w := w.count b Reg.fpwDroop (10 + n)
      let low := v % (w.rd b Reg.fpwVoltVset - 100 + (if w.rd b Reg.fpwVoltVset ≤ 100 then 1 else 0))
      let w := w.wr b Reg.fpwVoltVmin (min low (w.rd b Reg.fpwVoltVmin))
      let used := w.fieldInRun field
      (w.raiseFence (fField field) 0x0A06 false).powerFault 6 field (field / 7) (detailOf field 64 255 0) used

/-! ## Contact cracks (R332) -/

/-- A group's rise, in nV: (R − R0) × I0, for a group at a quarter of its baseline current or more. -/
def crackRise (m : MarginRec) (r : CrackReading) : Option Nat :=
  match m.base.find? fun b => b.1 == r.group with
  | none => none
  | some (_, r0, i0) => if i0 ≤ 4 * r.cur then some ((r.res - r0) * i0) else none

/-- 12 mV in nV. -/
def crackLimit : Nat := 12000000

/-- CONTACT_FAILED: the field is fenced (R334), made fallow, and unusable until service. -/
def Wafer.contactFails (w : Wafer) (f : Nat) : Wafer :=
  let used := w.fieldInRun f
  let w := w.wr (fieldBase f) Reg.fpwCrackFailed 1
  let w := (w.fenceAway f 0x0A0A).powerFault 0x0A f (f / 7) (detailOf f 64 255 0) used
  (w.fallowField f 0x0A used).unusable f 2 9

/-- One group's reading. -/
def Wafer.crackOne (w : Wafer) (f : Nat) (r : CrackReading) : Wafer :=
  match crackRise (w.marginRec f) r with
  | none => w
  | some rise =>
    let p := w.fieldPower f
    if w.rd (fieldBase f) Reg.fpwCrackFailed = 1 then w
    else match p.suspects.find? fun x => x.1 == r.group with
      | some x => if x.2 + crackLimit < rise then w.contactFails f else w
      | none =>
        if rise ≤ crackLimit then w
        else
          let w := w.setFieldPower f { p with suspects := p.suspects ++ [(r.group, rise)], derate := true }
          let w := (w.wr (fieldBase f) Reg.fpwCrackSuspect 1).powerMgmt 9 f (detailOf f 64 255 0)
          if p.suspects.isEmpty then w else w.contactFails f

/-- FPW_CRACK shows the group with the largest rise of this second. -/
def Wafer.showCrack (w : Wafer) (f : Nat) (l : List CrackReading) : Wafer :=
  let rises := l.filterMap fun r => (crackRise (w.marginRec f) r).map fun x => (r.group, x)
  match rises with
  | [] => w
  | x :: xs =>
    let top := xs.foldl (fun a b => if a.2 < b.2 then b else a) x
    w.wrs (fieldBase f) [(Reg.fpwCrackGroup, top.1), (Reg.fpwCrackRise, min (top.2 / 1000000) 0xFFF)]

/-- CRACK_CHECK (R332): once per second, while the field is in RUN. -/
def execCrackCheck (field : Nat) (readings : List CrackReading) (s : State) : Host.Outcome State Fault Refusal :=
  fieldStep field s fun w =>
    if w.fieldState field ≠ 0 ∨ w.fieldMoving field = true then w
    else readings.foldl (fun w r => w.crackOne field r) (w.showCrack field readings)

end Sys2Proof.Machine
end

