-- ==== Sys2Proof/Machine/Resets.lean ====
section
/-!
DEFINITION. Sys2Proof/Machine/Resets.lean: resets from outside (R374, R386, Table 12-1), and the loss and return of all power
(R179, R317).
-/

namespace Sys2Proof.Machine

/-- STANDBY_POWER_UP (R374): the return of standby power is a COLD reset and a boot. -/
def execStandbyPowerUp (strap : Nat) (s : State) : Host.Outcome State Fault Refusal := s.upd fun w => w.cold strap 0

/-- RESET_N_ASSERT (R374): a COLD reset; a job that was armed or running is gone, and its partners see loss (R375). -/
def execResetNAssert (strap : Nat) (s : State) : Host.Outcome State Fault Refusal :=
  s.upd fun w => if w.power.standby then w.cold strap 2 else w

/-- PERST_N (R386): that port's link only. -/
def execPerstN (port : Nat) (s : State) : Host.Outcome State Fault Refusal :=
  s.updIf (decide (port < 2)) fun w => (w.cxlDown port).resetSeen 0 2

/-- CXL_HOT_RESET (Table 12-1): that port's link only. -/
def execCxlHotReset (port : Nat) (s : State) : Host.Outcome State Fault Refusal :=
  s.updIf (decide (port < 2)) fun w => (w.cxlDown port).resetSeen 0 3

/-- CXL_LINK_DOWN (R303). -/
def execCxlLinkDown (port : Nat) (s : State) : Host.Outcome State Fault Refusal :=
  s.updIf (decide (port < 2)) fun w => w.cxlDown port

/-- The tally after a loss of all power (R317): entries that never reached flash are lost, and the next INDEX and the chain
value go on from the tally head. The first boot's KIND 6 entry counts them. (Log 56 DESIGN CHOICE.) -/
def ShpSt.afterPowerLoss (s : ShpSt) : ShpSt :=
  let s' := s.afterCold 0
  { s' with
    tallyBuf := []
    gapDue := true
    tallyHash := (s.tallyHead.value.map (·.2)).getD 0
    tallyLost := s.tallyLost + s.tallyBuf.length
    tallyLostTick := match s.tallyBuf with
      | e :: _ => e.tick
      | [] => s.tallyLostTick }

/-- What the wafer map still says of a field's power after a loss of all power: a failed contact holds it until service (R334). -/
def FieldPower.afterPowerLoss (p : FieldPower) : FieldPower := { holds := p.holds.filter (· == 0x0A) }

/-- ALL_POWER_LOST (R179): what is left is what flash and the fuses hold. -/
def execAllPowerLost (s : State) : Host.Outcome State Fault Refusal :=
  s.upd fun w =>
    let next := ((w.shp.tallyHead.value.map fun h => h.1 + 1)).getD 0
    let w' : Wafer :=
      { fwMem := w.fwMem, shp := w.shp.afterPowerLoss
        time := { refclk := w.time.refclk }
        power := {
          standby := false
          fields := (w.power.fields.map fun (e : Nat × FieldPower) => (e.1, e.2.afterPowerLoss)).filter
            fun (e : Nat × FieldPower) => e.2 != ({} : FieldPower)
          levels := [(w.power.levels.getD 0 none).map fun _ => 0, none, none, none, none, none] }
        health := { map := w.health.map, plan := w.health.plan, floodDue := some (false, false, true) }
        out := w.out, free := w.free }
    let c := w'.shp.tallyHash
    w'.wrs secBase [(Reg.secTallyNext, next), (Reg.secTallyhash0Hash, c), (Reg.secTallyhash1Hash, c / 2 ^ 64),
      (Reg.secTallyhash2Hash, c / 2 ^ 128), (Reg.secTallyhash3Hash, c / 2 ^ 192)]

end Sys2Proof.Machine
end

