-- ==== Sys2Proof/Machine/Rim.lean ====
section
/-!
DEFINITION. Sys2Proof/Machine/Rim.lean: rim operations at the stack controllers (R180 to R186) and inter-module transfers at
the ports (R225 to R228).
-/

namespace Sys2Proof.Machine

/-! ## Rim operations -/

/-- The flit stands at a gateway of its rim unit. -/
def atRim (f : Flit) : Bool := decide (f.runit < 32) && f.x == f.dx && f.y == f.dy && f.kind == 0

/-- Regions a line operation may address (Table 8-3). -/
def Wafer.rimAllows (w : Wafer) (stk rop a : Nat) : Bool := w.inBasin stk a || (rop != 1 && w.inQuay stk a)

/-- Why the controller discards a flit over n lines (R184, R186): the code of STK_RIMFAULT. (Log 27 DESIGN CHOICE.) -/
def rimCheck (w : Wafer) (f : Flit) (n : Nat) : Option Nat :=
  let a := f.daddr
  if f.rop = 3 then some 2
  else if 2 ^ 37 ≤ a ∨ f.resBits = true ∨ a % 256 ≠ 0 then some 1
  else if !((List.range n).all fun i => w.rimAllows f.runit f.rop (a + 256 * i)) then some 1
  else if f.rop ≠ 2 ∧ w.inBasin f.runit a = true ∧ w.drainBegun f.runit a = true then some 3
  else none

/-- A discard at a stack controller: recorded and counted, and a job fault while a job runs. (Log 7 DEDUCED, 27 DESIGN CHOICE.) -/
def Wafer.rimDiscard (w : Wafer) (i : Nat) (f : Flit) (code : Nat) : Wafer :=
  let w := (w.dropFlit i).recordFirst (stkBase f.runit) Reg.stkRimfaultValid
    [(Reg.stkRimfaultCode, code), (Reg.stkRimfaultAddr, f.daddr), (Reg.stkRimfaultRop, f.rop)]
  let st := w.stack f.runit
  let w := w.setStack f.runit { st with discards := st.discards + 1 }
  if w.running then w.jobFault (0x0601 + code) (detailRunit f.runit) else w

/-- An acknowledgement SIGNAL leaves a stack (R183). -/
def Wafer.ackSignal (w : Wafer) (stk : Nat) (g : AckGather) : Wafer :=
  let st := w.stack stk
  let f : Flit := { unitFlit stk st.acks 4095 0 g.x g.y w.running with kind := 3, sem := some g.sem, daddr := g.count }
  let w := w.setStack stk { st with acks := st.acks + 1 }
  (w.addFlits [f]).count (stkBase stk) Reg.stkAcks

/-- Gather one acknowledgement; at 65,535 the SIGNAL goes at once. -/
def Wafer.ackGather (w : Wafer) (stk x y sem : Nat) : Wafer :=
  let st := w.stack stk
  match indexOf? (fun (g : AckGather) => g.x == x && g.y == y && g.sem == sem) st.gathers with
  | none => w.setStack stk { st with gathers := st.gathers ++ [⟨x, y, sem, 1⟩] }
  | some i =>
    let g := st.gathers.getD i default
    if g.count + 1 < 65535 then w.setStack stk { st with gathers := listSet st.gathers i { g with count := g.count + 1 } }
    else (w.setStack stk { st with gathers := dropAt st.gathers i }).ackSignal stk { g with count := g.count + 1 }

def Wafer.ackFlit (w : Wafer) (f : Flit) : Wafer :=
  match f.sem with
  | some k => w.ackGather f.runit f.x1 f.y1 k
  | none => w

/-- A meaning that serves a flit at a stack controller with the operation `rop`. A flit with ROP 3 is discarded by whichever
command meets it; a flit whose line lies in a fenced channel is not served. (Log 27 DESIGN CHOICE.) -/
def rimStep (rop idx : Nat) (s : State) (lines : Flit → Nat) (go : Wafer → Flit → Wafer) : Host.Outcome State Fault Refusal :=
  s.upd fun w =>
    match w.flitAt idx with
    | none => w
    | some f =>
      if atRim f = false ∨ (f.rop ≠ rop ∧ f.rop ≠ 3) then w
      else match rimCheck w f (lines f) with
        | some c => w.rimDiscard idx f c
        | none => if (List.range (lines f)).any fun i => w.lineFenced f.runit (f.daddr + 256 * i) then w else go (w.dropFlit idx) f

/-- RIM_WRITE (R180, R183, R184): the line takes the flit's 32 words. -/
def execRimWrite (idx : Nat) (s : State) : Host.Outcome State Fault Refusal :=
  rimStep 0 idx s (fun _ => 1) fun w f =>
    let w := { w with stkMem := w.stkMem.writeBad (stkAddr f.runit f.daddr) (wordsLE f.data) f.bad }
    (w.count (stkBase f.runit) Reg.stkWrites).ackFlit f

/-- RIM_ACC (R185): each of the 64 FP32 values of the line ← RNE(line value + flit value). -/
def execRimAcc (idx : Nat) (s : State) : Host.Outcome State Fault Refusal :=
  rimStep 1 idx s (fun _ => 1) fun w f =>
    let a := stkAddr f.runit f.daddr
    let old := wordsOf (w.stkMem.read a 256) 32
    let sum := (List.range 32).map fun i => addWord (old.getD i 0#64) (f.data.getD i 0#64)
    let bad := (w.stkMem.badWords a 256).foldl setInsert f.bad
    let w := { w with stkMem := w.stkMem.writeBad a (wordsLE sum) bad }
    (w.count (stkBase f.runit) Reg.stkAccs).ackFlit f

/-- Lines a READ asks for (Table 8-4). -/
def readLines (f : Flit) : Nat := bits (f.data.getD 1 0#64).toNat 0 12 + 1

/-- The reply flit of line i of a READ (R181). -/
def readReply (w : Wafer) (f : Flit) (i : Nat) : Flit :=
  let q := (f.data.getD 0 0#64).toNat
  let a := stkAddr f.runit (f.daddr + 256 * i)
  let dx := bits q 42 6
  let dy := bits q 48 6
  { unitFlit f.runit i 4095 f.plane dx dy f.job with
    sem := if bit q 59 then some (bits q 54 5) else none
    daddr := (bits q 0 40 + 256 * i) % 2 ^ 40
    dspace := bits q 40 2
    data := wordsOf (w.stkMem.read a 256) 32
    bad := w.stkMem.badWords a 256 }

/-- RIM_READ (R181, R182, R184): the lines as they stand go back as UNICAST flits. -/
def execRimRead (idx : Nat) (s : State) : Host.Outcome State Fault Refusal :=
  rimStep 2 idx s readLines fun w f =>
    let w := w.addFlits ((List.range (readLines f)).map fun i => readReply w f i)
    w.count (stkBase f.runit) Reg.stkReads (readLines f)

/-- RIM_ACK (R183): after 64 SMC cycles the gathered acknowledgements go as one SIGNAL. -/
def execRimAck (stack idx : Nat) (s : State) : Host.Outcome State Fault Refusal :=
  s.updIf (decide (stack < 32)) fun w =>
    let st := w.stack stack
    match st.gathers[idx]? with
    | none => w
    | some g => (w.setStack stack { st with gathers := dropAt st.gathers idx }).ackSignal stack g

/-! ## Transfers between modules -/

/-- An XFER record: the first since its VALID bit was cleared, and the job fault while one runs. (Log 7 DEDUCED.) -/
def Wafer.xferFault (w : Wafer) (i code dcore addr space : Nat) : Wafer :=
  let w := w.recordFirst (portBase i) Reg.tpXfaultValid
    [(Reg.tpXfaultCode, code), (Reg.tpXfaultDcore, dcore), (Reg.tpXfaultAddr, addr), (Reg.tpXfaultSpace, space)]
  w.jobFault (0x0705 + code) (detailRunit (portRunit i))

/-- The flit stands at a gate of its port. -/
def atPort (f : Flit) : Bool := decide (32 ≤ f.runit ∧ f.runit < 208) && f.x == f.dx && f.y == f.dy && f.kind == 0

/-- The payload of an XFER frame (Table 9-18): the flit's words 0 to 27 after the prefix. -/
def xferPayload (f : Flit) : List Byte :=
  natLE 2 (f.tag % 2 ^ 11 + (f.sem.getD 0) * 2 ^ 11) ++ [4#8] ++
  natLE 1 (b2n (f.bad.any fun k => decide (k < 28)) + 2 * b2n f.sem.isSome + 4 * (f.rop % 2)) ++
  natLE 4 (f.daddr / 32 % 2 ^ 20) ++ (wordsLE f.data).take 224

/-- XFER_FLIT_EGRESS (R224, R226). A flit for a port that cannot send yet waits. -/
def execXferFlitEgress (idx : Nat) (s : State) : Host.Outcome State Fault Refusal :=
  s.upd fun w =>
    match w.flitAt idx with
    | none => w
    | some f =>
      if atPort f = false then w
      else
        let i := f.runit - 32
        if w.portFenced i then (w.dropFlit idx).count (portBase i) Reg.tpDropfence
        else if !portCarries w i 1 || linkState w i != 6 then
          (w.dropFlit idx).xferFault i 1 (f.tag % 2 ^ 11) (f.daddr / 32) (f.rop % 2)
        else if w.fenced (fEgress i) = true ∨ (w.port i).credits.getD 1 0 = 0 ∨ replayRoom i ≤ (w.port i).replay.length ∨ (w.port i).widthTo.isSome = true then w
        else (w.dropFlit idx).queueFrame i 7 1 0 (xferPayload f)

/-- The flit that lands an XFER frame at a site (R227). -/
def xferFlit (w : Wafer) (i site : Nat) (l : List Byte) : Flit :=
  let fl := fieldAt l 3 1
  let a := fieldAt l 4 4 % 2 ^ 20 * 32
  { unitFlit (portRunit i) (w.port i).landed portSource (bits a 8 1) (siteX site) (siteY site) true with
    sem := if bit fl 1 then some (bits (fieldAt l 0 2) 11 5) else none
    short := true
    daddr := a
    dspace := bits fl 2 1
    data := wordsOf (bytesAt l 8 224) 28 ++ List.replicate 4 0#64
    bad := if bit fl 0 then List.range 28 else [] }

/-- XFER_FRAME (R223, R224, R227). (Log 34 DEDUCED.) -/
def execXferFrame (port : Nat) (fr : Frame) (s : State) : Host.Outcome State Fault Refusal :=
  portStep port s fun w =>
    let w := w.rxTook port 1 0 fr.payload
    if !isXfer fr then w.count (jncBase port) Reg.jncDropchain
    else if w.portFenced port || arrayShut w port fr then w.count (portBase port) Reg.tpDropfence
    else if !(tagOk w port fr.tag && w.running) then w.count (portBase port) Reg.tpDroptag
    else
      let dcore := fieldAt fr.payload 0 2 % 2 ^ 11
      let a := fieldAt fr.payload 4 4 % 2 ^ 20
      let space := bits (fieldAt fr.payload 3 1) 2 1
      let lf := dcore / 16
      let site := w.siteOf (w.job.placement.getD lf 0) (dcore / 4 % 4) (dcore % 4)
      if decide (w.job.placement.length ≤ lf) || !landingOk w site space (a * 32) 224 then
        w.xferFault port 2 dcore a space
      else
        (w.addFlits [xferFlit w port site fr.payload]).updPort port fun p => { p with landed := p.landed + 1 }

end Sys2Proof.Machine
end

