-- ==== Sys2Proof/Machine/Seq.lean ====
section
/-!
DEFINITION. Sys2Proof/Machine/Seq.lean: the SEQ class (Table 5-3, R107) and the SYN class (R112 to R115).
-/

namespace Sys2Proof.Machine

/-! ## Shared shapes -/

/-- sD ← f sA sB; C and IMM are not used. -/
def seqAlu (f : Word → Word → Word) (i : Issue) (s : State) : Host.Outcome State Fault Refusal :=
  coreInstr i s (decide (i.c ≠ 0 ∨ i.imm ≠ 0)) fun w => .ok (w.setD i (f (w.ra i) (w.rb i)))

/-- A conditional branch: the target is pc + 8 × IMM sign-extended. D and C are not used. -/
def seqBranch (p : Word → Word → Bool) (i : Issue) (s : State) : Host.Outcome State Fault Refusal :=
  coreInstr i s (decide (i.d ≠ 0 ∨ i.c ≠ 0)) fun w =>
    if p (w.ra i) (w.rb i) then
      let t := (BitVec.ofNat 64 (w.pcOf i.site) + 8 * simm i).toNat
      w.goTo i.site t
    else .ok w

/-! ## SEQ -/

/-- NOP: none. -/
def execSeqNop (i : Issue) (s : State) : Host.Outcome State Fault Refusal :=
  coreInstr i s (decide (i.d ≠ 0 ∨ i.a ≠ 0 ∨ i.b ≠ 0 ∨ i.c ≠ 0 ∨ i.imm ≠ 0)) fun w => .ok w

/-- LDI: sD ← IMM sign-extended. -/
def execSeqLdi (i : Issue) (s : State) : Host.Outcome State Fault Refusal :=
  coreInstr i s (decide (i.a ≠ 0 ∨ i.b ≠ 0 ∨ i.c ≠ 0)) fun w => .ok (w.setD i (simm i))

/-- LDIH: sD ← (sD and 0xFFFF_FFFF) or (IMM shifted left 32). -/
def execSeqLdih (i : Issue) (s : State) : Host.Outcome State Fault Refusal :=
  coreInstr i s (decide (i.a ≠ 0 ∨ i.b ≠ 0 ∨ i.c ≠ 0)) fun w =>
    .ok (w.setD i (((w.core i.site).sget i.d &&& 0xFFFFFFFF#64) ||| (i.imm.setWidth 64 <<< 32)))

def execSeqAdd (i : Issue) (s : State) : Host.Outcome State Fault Refusal := seqAlu (· + ·) i s

/-- ADDI uses IMM sign-extended for sB. -/
def execSeqAddi (i : Issue) (s : State) : Host.Outcome State Fault Refusal :=
  coreInstr i s (decide (i.b ≠ 0 ∨ i.c ≠ 0)) fun w => .ok (w.setD i (w.ra i + simm i))

def execSeqSub (i : Issue) (s : State) : Host.Outcome State Fault Refusal := seqAlu (· - ·) i s
/-- MUL keeps the low 64 bits. -/
def execSeqMul (i : Issue) (s : State) : Host.Outcome State Fault Refusal := seqAlu (· * ·) i s
def execSeqAnd (i : Issue) (s : State) : Host.Outcome State Fault Refusal := seqAlu (· &&& ·) i s
def execSeqOr (i : Issue) (s : State) : Host.Outcome State Fault Refusal := seqAlu (· ||| ·) i s
def execSeqXor (i : Issue) (s : State) : Host.Outcome State Fault Refusal := seqAlu (· ^^^ ·) i s
/-- Shifts take sB[5:0]. -/
def execSeqShl (i : Issue) (s : State) : Host.Outcome State Fault Refusal :=
  seqAlu (fun a b => a <<< (b.toNat % 64)) i s
def execSeqShr (i : Issue) (s : State) : Host.Outcome State Fault Refusal :=
  seqAlu (fun a b => a >>> (b.toNat % 64)) i s
def execSeqSra (i : Issue) (s : State) : Host.Outcome State Fault Refusal :=
  seqAlu (fun a b => a.sshiftRight (b.toNat % 64)) i s

/-- LD: 8 bytes at sA + IMM sign-extended; a poisoned word stops the core at once (R131) and is reported (R130). -/
def execSeqLd (i : Issue) (s : State) : Host.Outcome State Fault Refusal :=
  coreInstr i s (decide (i.b ≠ 0 ∨ i.c ≠ 0)) fun w =>
    let a := (w.ra i + simm i).toNat
    if a % 8 ≠ 0 ∨ 2 ^ 24 ≤ a then .fault 2
    else if w.coreMem.badAt (coreAddr i.site a) then
      .stopped ((w.classify (coreMemLoc i.site a) true).coreFault i.site 0x10 (w.pcOf i.site))
    else .ok (w.setD i (BitVec.ofNat 64 (w.coreMem.num (coreAddr i.site a) 8)))

/-- ST: sB stored as 8 bytes, never within the code region. D is not used. -/
def execSeqSt (i : Issue) (s : State) : Host.Outcome State Fault Refusal :=
  coreInstr i s (decide (i.d ≠ 0 ∨ i.c ≠ 0)) fun w =>
    let a := (w.ra i + simm i).toNat
    if a % 8 ≠ 0 ∨ 2 ^ 24 ≤ a then .fault 2
    else if (w.core i.site).inCode a 8 then .fault 3
    else if w.scaleHeld i.site a 8 then .hold (w.scaleWait i.site a 8)
    else .ok { w with coreMem := w.coreMem.write (coreAddr i.site a) (natLE 8 (w.rb i).toNat) }

def execSeqBeq (i : Issue) (s : State) : Host.Outcome State Fault Refusal := seqBranch (fun a b => a == b) i s
def execSeqBne (i : Issue) (s : State) : Host.Outcome State Fault Refusal := seqBranch (fun a b => a != b) i s
def execSeqBlt (i : Issue) (s : State) : Host.Outcome State Fault Refusal := seqBranch (fun a b => a.slt b) i s
def execSeqBge (i : Issue) (s : State) : Host.Outcome State Fault Refusal := seqBranch (fun a b => !a.slt b) i s
def execSeqBltu (i : Issue) (s : State) : Host.Outcome State Fault Refusal := seqBranch (fun a b => a.ult b) i s
def execSeqBgeu (i : Issue) (s : State) : Host.Outcome State Fault Refusal := seqBranch (fun a b => !a.ult b) i s

/-- JAL: sD ← pc + 8; pc ← pc + 8 × IMM sign-extended. -/
def execSeqJal (i : Issue) (s : State) : Host.Outcome State Fault Refusal :=
  coreInstr i s (decide (i.a ≠ 0 ∨ i.b ≠ 0 ∨ i.c ≠ 0)) fun w =>
    let pc := w.pcOf i.site
    let t := (BitVec.ofNat 64 pc + 8 * simm i).toNat
    match (w.core i.site).targetFault t with
    | some c => .fault c
    | none => .jump (w.setD i (BitVec.ofNat 64 (pc + 8))) t

/-- JR: pc ← sA. -/
def execSeqJr (i : Issue) (s : State) : Host.Outcome State Fault Refusal :=
  coreInstr i s (decide (i.d ≠ 0 ∨ i.b ≠ 0 ∨ i.c ≠ 0 ∨ i.imm ≠ 0)) fun w =>
    w.goTo i.site (w.ra i).toNat

/-- System values (Table 5-4); `none` for a reserved selector. (Log 15 DEDUCED.) -/
def Wafer.sysValue (w : Wafer) (s sel : Nat) : Option Nat :=
  let l := (w.core s).logical.getD 0
  match sel with
  | 0 => some (l / 16)
  | 1 => some (l / 4 % 4)
  | 2 => some (l % 4)
  | 3 => some (w.rd (siteBase s) Reg.seqStatStage)
  | 4 => some (tickDiff w.tick w.job.t0)
  | 5 => some w.tick
  | 6 => some (w.replicaNow (s / 20))
  | 7 => some ((w.countNow + 2 ^ 64 - w.tickStart) % 2 ^ 64)
  | 8 => some (w.rd (fieldBase (s / 20)) Reg.fpwGearApplied)
  | 9 => some w.job.tag
  | _ => none

/-- RDSYS: sD ← the system value that IMM selects. A reserved selector is CORE_ILLEGAL (notes/assumptions/15.md).
(Log 15 DEDUCED.) -/
def execSeqRdsys (i : Issue) (s : State) : Host.Outcome State Fault Refusal :=
  coreInstr i s (decide (i.a ≠ 0 ∨ i.b ≠ 0 ∨ i.c ≠ 0)) fun w =>
    match w.sysValue i.site i.imm.toNat with
    | some v => .ok (w.setD i (BitVec.ofNat 64 v))
    | none => .fault 1

/-! ## SYN -/

/-- VEC cycles in counts of 0.8 ns at the field's gear; VEC runs at twice ENG. (Log 8 DESIGN CHOICE.) -/
def Wafer.vecCounts (w : Wafer) (s cycles : Nat) : Nat :=
  let f := w.rd (fieldBase (s / 20)) Reg.fpwGearApplied
  cycles * 1250 / (2 * (if f = 0 then 600 else f))

/-- What a core's units still have to complete (R112): engine 0, engine 1, copies, sends. A tile stays an engine's accepted work until
it has been swapped in, its shadow load done or not: the spec does not say when a load is complete. (Log 75 DESIGN CHOICE.) -/
def Wafer.busyUnits (w : Wafer) (s : Nat) : Nat :=
  b2n (!(w.engine (2 * s)).passes.isEmpty || (w.engine (2 * s)).pend.isSome) +
  2 * b2n (!(w.engine (2 * s + 1)).passes.isEmpty || (w.engine (2 * s + 1)).pend.isSome) +
  4 * b2n (!(w.core s).copies.isEmpty) + 8 * b2n (!(w.core s).sends.isEmpty)

/-- MARK: ends the stage once every unit whose carry bit is 0 has completed its work; the margin to the boundary is kept in
ENG cycles at 600 MHz (Table 5-16): 0.8 ns counts × 0.48. D, A, B and C are not used; IMM[31:4] is part of a field that is used, and
may be anything. (Log 75 DESIGN CHOICE.) -/
def execSynMark (i : Issue) (s : State) : Host.Outcome State Fault Refusal :=
  coreInstr i s (decide (i.d ≠ 0 ∨ i.a ≠ 0 ∨ i.b ≠ 0 ∨ i.c ≠ 0)) fun w =>
    let b := siteBase i.site
    let busy := w.busyUnits i.site
    let carry := i.imm.toNat % 16
    if (15 - carry) &&& busy ≠ 0 then .hold (.units ((15 - carry) &&& busy))
    else
      let left := ((w.tickStart + w.period + 2 ^ 64 - w.countNow) % 2 ^ 64 - w.vecCounts i.site i.held) * 12 / 25
      let w := (w.wr b Reg.seqStatState 2).count b Reg.seqMarks
      let w := if carry &&& busy ≠ 0 then w.count b Reg.seqCarry else w
      let w := w.updCore i.site fun c => { c with marked := true }
      .ok (if left < w.rd b Reg.seqMarginMin then
        w.wrs b [(Reg.seqMarginMin, left), (Reg.seqMarginStage, w.rd b Reg.seqStatStage)] else w)

/-- SEMWAIT: holds until semaphore D is at least v = IMM[15:0], then subtracts v; v = 0 does nothing. -/
def execSynSemwait (i : Issue) (s : State) : Host.Outcome State Fault Refusal :=
  coreInstr i s (decide (i.a ≠ 0 ∨ i.b ≠ 0 ∨ i.c ≠ 0)) fun w =>
    let v := i.imm.toNat % 2 ^ 16
    let x := (w.core i.site).semGet i.d
    if v = 0 then .ok w
    else if v ≤ x then .ok (w.updCore i.site fun c => c.semSet i.d (x - v))
    else .hold (.sem i.d)

/-- SEMPOST: adds IMM[15:0] to semaphore D. -/
def execSynSempost (i : Issue) (s : State) : Host.Outcome State Fault Refusal :=
  coreInstr i s (decide (i.a ≠ 0 ∨ i.b ≠ 0 ∨ i.c ≠ 0)) fun w =>
    let v := (w.core i.site).semGet i.d + i.imm.toNat % 2 ^ 16
    if v ≤ 65535 then .ok (w.updCore i.site fun c => c.semSet i.d v) else .fault 4

/-- SEMREAD: copies semaphore A into sD. -/
def execSynSemread (i : Issue) (s : State) : Host.Outcome State Fault Refusal :=
  coreInstr i s (decide (i.b ≠ 0 ∨ i.c ≠ 0 ∨ i.imm ≠ 0)) fun w =>
    .ok (w.setD i (BitVec.ofNat 64 ((w.core i.site).semGet i.a)))

/-- ATTIME: holds until system value 7 reaches sA + IMM. The cycles the instruction was held bring the time on from the
block's last event. IMM is taken as unsigned: the spec does not say. (Log 75 DESIGN CHOICE.) -/
def execSynAttime (i : Issue) (s : State) : Host.Outcome State Fault Refusal :=
  coreInstr i s (decide (i.d ≠ 0 ∨ i.b ≠ 0 ∨ i.c ≠ 0)) fun w =>
    if (w.ra i + i.imm.setWidth 64).toNat ≤ (w.countNow + 2 ^ 64 - w.tickStart) % 2 ^ 64 + w.vecCounts i.site i.held then .ok w
    else .hold .time

end Sys2Proof.Machine
end

