-- ==== Sys2Proof/Machine/Shepherd.lean ====
section
/-!
DEFINITION. Sys2Proof/Machine/Shepherd.lean: the lockstep pairs (R305, R306), the boot and its fuses (R311), the tally's way to
flash (R317) and the nonce of R308.
-/

namespace Sys2Proof.Machine

/-- PAIR_LOCKSTEP_MISMATCH (R305): the two cores disagree. -/
def execPairLockstepMismatch (pair : Nat) (s : State) : Host.Outcome State Fault Refusal :=
  s.updIf (decide (pair < 4)) fun w => w.pairRestart pair

/-- PAIR_SHEEPDOG_EXPIRY (R305): no service for 100 ms. -/
def execPairSheepdogExpiry (pair : Nat) (s : State) : Host.Outcome State Fault Refusal :=
  s.updIf (decide (pair < 4)) fun w => w.pairRestart pair

/-- Events that waited for Shepherd reach it, oldest first (R306). (Log 14 DEDUCED.) -/
def Wafer.drainEvents (w : Wafer) : Wafer :=
  if w.shpDown then w
  else
    let l := w.shp.evq
    let w := ({ w with shp := { w.shp with evq := [] } } : Wafer).wr 0 Reg.shpEvqQueued 0
    l.foldl (fun w e => w.emit (.mgmtEvent e)) w

/-- Work that waited for a pair's duties goes on (R304, R306). -/
def Wafer.dutiesResume (w : Wafer) : Wafer :=
  let w := if w.dutyUp 0 then w.sendReplies else w
  (if w.dutyUp 2 then w.freeCap else w).commitDue

/-- PAIR_RESTART_DONE (R305): the pair resumes its duties. -/
def execPairRestartDone (pair : Nat) (s : State) : Host.Outcome State Fault Refusal :=
  s.updIf (decide (pair < 4)) fun w =>
    let x := w.pair pair
    if x.up || x.retired then w
    else
      let w := w.setPair pair { x with up := true }
      (w.wr 0 Reg.shpStatPairup (maskOf 4 fun i => (w.pair i).up)).drainEvents.dutiesResume

/-- BOOT (R311). -/
def execBoot (s : State) : Host.Outcome State Fault Refusal := s.upd fun w => w.boot

/-- FUSE_BURN (R311, R317): fuses up to the running image's SVN; the burn waits for room in the tally and for pair 3.
(Log 60 PRESUMED.) -/
def execFuseBurn (s : State) : Host.Outcome State Fault Refusal :=
  s.upd fun w =>
    if !w.shp.fusePending || !w.canCommit then w
    else
      let n := max w.shp.otp (w.rd secBase Reg.secSvnRun)
      let w := w.tallySelf 0x3000
      ({ w with shp := { w.shp with otp := n, fusePending := false } } : Wafer).wr secBase Reg.secSvnOtp n

/-- The chain value after some entries. (Log 61 DESIGN CHOICE.) -/
def chainOver (c : Nat) (l : List TallyEntry) : Nat := l.foldl (fun c e => sha3 (natLE 32 c ++ e.bytes)) c

/-- TALLY_FLUSH (R316, R317): the oldest `count` buffered entries are in flash, a ring of 1,048,576 entries, and the tally head
names the last of them. It is pair 3's duty (R304). -/
def execTallyFlush (count : Nat) (s : State) : Host.Outcome State Fault Refusal :=
  s.upd fun w =>
    let l := if w.dutyUp 3 then w.shp.tallyBuf.take count else []
    match l.getLast? with
    | none => w
    | some e =>
      let c := chainOver ((w.shp.tallyHead.value.map (·.2)).getD 0) l
      let rest := w.shp.tallyBuf.drop count
      let w := { w with shp := { w.shp with
        tallyBuf := rest
        tallyFlash := (l.reverse ++ w.shp.tallyFlash).take 1048576
        tallyHead := w.shp.tallyHead.commit (e.index, c) } }
      (w.wr 0 Reg.shpStatTallyfull (b2n w.tallyFull)).tallyGap.commitDue

/-- SEC_NONCE_READ (R308): a read of word 0 draws a new nonce. -/
def execSecNonceRead (s : State) : Host.Outcome State Fault Refusal :=
  s.upd fun w =>
    let (n, w) := w.fresh
    let w := { w with shp := { w.shp with nonceAt := some w.countNow } }
    let w := w.wrs secBase [(Reg.secNonce0Nonce, n), (Reg.secNonce1Nonce, n / 2 ^ 64), (Reg.secNonce2Nonce, n / 2 ^ 128),
      (Reg.secNonce3Nonce, n / 2 ^ 192)]
    w.emit (.readData (natLE 8 n) false)

end Sys2Proof.Machine
end

