-- ==== Sys2Proof/Machine/Survey.lean ====
section
/-!
DEFINITION. Sys2Proof/Machine/Survey.lean: margin surveys and canary watches (R362 to R364), pair 2's duty (R304).
-/

namespace Sys2Proof.Machine

/-- A field's last survey is older than HLT_CTL.PERIOD hours. Without wall times the event's word is taken.
(Log 54 DESIGN CHOICE.) -/
def Wafer.surveyOld (w : Wafer) (f : Nat) : Bool :=
  let t := (w.marginRec f).wall
  t == 0 || w.wall == 0 || decide (t + 3600000000000 * w.rd hltBase Reg.hltCtlPeriod < w.wall)

/-- SURVEY_PERIOD_EXPIRY (R363, R364): a field of a placed, armed or running job is overdue; any other is surveyed. -/
def execSurveyPeriodExpiry (field : Nat) (s : State) : Host.Outcome State Fault Refusal :=
  fieldStep field s fun w => w.asDuty 2 fun w =>
    if !w.surveyOld field then w
    else if w.fieldHeld field then (w.wr (agmBase field) Reg.agmVminOverdue 1).syncSurvey else w.surveyFields [field]

/-- SURVEY_FIELD_DONE (R362): a field's survey ends. -/
def execSurveyFieldDone (field : Nat) (meas : SurveyMeas) (s : State) : Host.Outcome State Fault Refusal :=
  fieldStep field s fun w => w.asDuty 2 fun w =>
    match w.health.surveyPlan with
    | none => w
    | some plan =>
      if !w.health.surveying.contains field then w
      else
        let old := mapGet (fun _ => ({} : MarginRec)) plan.fields field
        let top := topIndex old.top (w.fieldRec field).derated
        let (offs, excluded) := surveyGears meas top 6 old.offsets
        let newTop := match excluded with
          | some g => max old.top (g + 1)
          | none => old.top
        let at_ := min (topIndex newTop (w.fieldRec field).derated) 5
        let new : MarginRec := { old with
          offsets := offs, top := newTop, vmin := meas.vmin, wear := meas.wear.foldl max 0, tick := w.tick, wall := w.wall
          slack := slackAt meas at_ (gearRail.getD at_ 480 + 5 * offs.getD at_ 0) }
        let w := { w with health := { w.health with
          surveying := w.health.surveying.filter fun f => f != field
          surveyPlan := some { plan with fields := mapSet (fun _ => {}) plan.fields field new } } }
        let w := w.wrs (agmBase field) [(Reg.agmVminVmin, meas.vmin), (Reg.agmVminOverdue, 0),
          (Reg.agmWearWear0, meas.wear.getD 0 0), (Reg.agmWearWear1, meas.wear.getD 1 0), (Reg.agmWearWear2, meas.wear.getD 2 0),
          (Reg.agmWearWear3, meas.wear.getD 3 0)]
        let w := match excluded with
          | some 5 => (w.marginEvent 3 field 5).unusable field 1 0x0B
          | some g => w.marginEvent 2 field g
          | none => match raisedGear old.offsets offs with
            | some g => w.marginEvent 1 field g
            | none => w
        w.surveyNext

/-- CANARY_WATCH (R364): every 1 s, a field of a running job; the smallest slack of each cluster, ps. Its step is taken at the
next boundary. -/
def execCanaryWatch (field : Nat) (slacks : List Nat) (s : State) : Host.Outcome State Fault Refusal :=
  fieldStep field s fun w => w.asDuty 2 fun w =>
    if !w.fieldInRun field || w.fieldState field != 0 then w
    else
      let at_ := fun k => min (slacks.getD k 0xFFFF) 0xFFFF
      let w := w.wrs (agmBase field) [(Reg.agmSlackSlack0, at_ 0), (Reg.agmSlackSlack1, at_ 1), (Reg.agmSlackSlack2, at_ 2),
        (Reg.agmSlackSlack3, at_ 3)]
      if 20 ≤ min (min (at_ 0) (at_ 1)) (min (at_ 2) (at_ 3)) then w
      else
        let g := gearIdx (w.applied field)
        let off := (w.marginRec field).offsets.getD g 0
        let p := w.fieldPower field
        if gearRail.getD g 480 + 5 * (off + 1) ≤ 750 then
          (w.setFieldPower field { p with offsetNew := some (g, off + 1) }).marginEvent 1 field g
        else
          let top := gearIdx (w.rd (fieldBase field) Reg.fpwGearTop)
          if top = 5 then w
          else (w.setFieldPower field { p with topNew := some (gearMHz.getD (top + 1) 300) }).marginEvent 2 field top

end Sys2Proof.Machine
end

