-- ==== Sys2Proof/Machine/Thermal.lean ====
section
/-!
DEFINITION. Sys2Proof/Machine/Thermal.lean: junction temperatures and coolant (R344 to R347).
-/

namespace Sys2Proof.Machine

/-- One field's reading, which its sensors give in every power state (R345 to R347). -/
def Wafer.showTj (w : Wafer) (t : FieldTemps) : Wafer :=
  w.wrs (fieldBase t.field) [(Reg.fpwTjTj0, min t.t0 255), (Reg.fpwTjTj1, min t.t1 255), (Reg.fpwTjTj2, min t.t2 255),
    (Reg.fpwTjTj3, min t.t3 255)]

/-- A field's thermal gear by its reading (R345). At or above 95 °C the thermal gear falls at the next boundary; after ten readings in a row
below 90 °C it rises. (Log 51 DEDUCED.) -/
def Wafer.pollField (w : Wafer) (t : FieldTemps) : Wafer :=
  let f := t.field
  let hot := max (max t.t0 t.t1) (max t.t2 t.t3)
  let p := w.fieldPower f
  let g := w.rd (fieldBase f) Reg.fpwGearThermal
  if 95 ≤ hot then w.setFieldPower f { p with thermal := gearDown g, cool := 0 }
  else if 90 ≤ hot then w.setFieldPower f { p with cool := 0 }
  else if p.cool + 1 < 10 ∨ g = 600 then w.setFieldPower f { p with cool := min (p.cool + 1) 10 }
  else w.setFieldPower f { p with thermal := gearUp g, cool := min (p.cool + 1) 10 }

/-- THERMAL_POLL (R345): every 1 ms, by Shepherd pair 2; the thermal gear holds while the pair is down (R306). -/
def execThermalPoll (temps : List FieldTemps) (s : State) : Host.Outcome State Fault Refusal :=
  s.updIf (temps.all fun t => decide (t.field < 112)) fun w =>
    if !w.dutyUp 2 then w else temps.foldl (fun w t => if w.fieldState t.field = 3 then w.showTj t else (w.showTj t).pollField t) w

/-- THERMAL_FALLOW (R346): 105 °C, by the field's own hardware; the fence comes first (R334). -/
def execThermalFallow (field cluster : Nat) (s : State) : Host.Outcome State Fault Refusal :=
  s.updIf (decide (field < 112 ∧ cluster < 4)) fun w =>
    if w.fieldTarget field = 3 then w
    else
      let used := w.fieldInRun field
      ((w.fenceAway field 0x0A0C).powerFault 0x0C field (field / 7) (detailCluster (4 * field + cluster)) used).fallowField field 0x0C used

/-- THERMAL_COOLDOWN (R346): Tj below 85 °C for 1 s. -/
def execThermalCooldown (field : Nat) (s : State) : Host.Outcome State Fault Refusal :=
  s.updIf (decide (field < 112)) fun w =>
    let p := w.fieldPower field
    w.setFieldPower field { p with holds := p.holds.filter fun c => c != 0x0C }

/-- THERMAL_SHUTDOWN (R347): 115 °C in any cluster. -/
def execThermalShutdown (field cluster : Nat) (s : State) : Host.Outcome State Fault Refusal :=
  s.updIf (decide (field < 112 ∧ cluster < 4)) fun w =>
    w.orderedShutdown 0x0D field (detailCluster (4 * field + cluster))

/-- COOLANT_DT (R347): the outlet as last measured has stood above the inlet by more than 18 K for 1 s. (Log 51 DEDUCED.) -/
def execCoolantDt (s : State) : Host.Outcome State Fault Refusal :=
  s.upd fun w =>
    if w.rd pwrBase Reg.pwrCoolTin + 1800 < w.rd pwrBase Reg.pwrCoolTout then w.orderedShutdown 0x0E 0 detailNone else w

/-- COOLANT_WARM (Table 14-7): an inlet above 35 °C. -/
def execCoolantWarm (tin : Nat) (s : State) : Host.Outcome State Fault Refusal :=
  s.upd fun w =>
    let w := w.showCoolant tin (w.rd pwrBase Reg.pwrCoolTout)
    if 3500 < tin then w.powerMgmt 0x0F 0 detailNone else w

end Sys2Proof.Machine
end

