-- ==== Sys2Proof/Machine/Sfu.lean ====
section
/-!
DEFINITION. Sys2Proof/Machine/Sfu.lean: the special functions within the bounds of Table 5-9 (R121). The exact result is enclosed by
integer arithmetic at 160 fraction bits, far finer than any bound; the FP32 result is free within the bound.
-/

namespace Sys2Proof.Machine

/-! ## Fixed-point arithmetic: an integer n stands for n × 2^−160 -/

def fixOne : Int := 2 ^ 160
def fixMul (a b : Int) : Int := a * b / fixOne
def fixDiv (a b : Int) : Int := a * fixOne / b

/-- z + z^3/3 + z^5/5 + … over n terms, from the term of degree 2k + 1, whose power is p. -/
def atanhSum (z2 : Int) : Nat → Nat → Int → Int
  | 0, _, _ => 0
  | n + 1, k, p => p / (2 * k + 1 : Nat) + atanhSum z2 n (k + 1) (fixMul p z2)

def fixAtanh (z : Int) : Int := atanhSum (fixMul z z) 70 0 z
def fixLn2 : Int := 2 * fixAtanh (fixOne / 3)

/-- 1 + r + r^2/2 + … over n terms, from the term t of degree k. -/
def expSum (r : Int) : Nat → Nat → Int → Int
  | 0, _, _ => 0
  | n + 1, k, t => t + expSum r n (k + 1) (fixMul t r / (k + 1 : Nat))

/-- e^v as a fixed-point number times 2^n. -/
def fixExp (v : Int) : Int × Int :=
  let n := (2 * v + fixLn2) / (2 * fixLn2)
  (expSum (v - n * fixLn2) 50 0 fixOne, n)

/-- e^v for v not above 0, as a fixed-point number. -/
def fixExpNeg (v : Int) : Int :=
  if v < -200 * fixOne then 0
  else
    let x := fixExp v
    if x.2 ≤ 0 then x.1 / 2 ^ (-x.2).toNat else x.1 * 2 ^ x.2.toNat

def fixAbs (v : Int) : Int := if v < 0 then -v else v

/-- tanh v = (1 − e^(−2|v|)) / (1 + e^(−2|v|)) with the sign of v. -/
def fixTanh (v : Int) : Int :=
  let u := fixExpNeg (-2 * fixAbs v)
  let t := fixDiv (fixOne - u) (fixOne + u)
  if v < 0 then -t else t

/-- Σ (−1)^k x^(2k+1) / (k! (2k + 1)) over n terms, from the term whose x^(2k+1) / k! is t. -/
def erfSum (x2 : Int) : Nat → Nat → Int → Int
  | 0, _, _ => 0
  | n + 1, k, t => t / (2 * k + 1 : Nat) - erfSum x2 n (k + 1) (fixMul t x2 / (k + 1 : Nat))

/-- 2 / √π and √(2 / π), to 60 decimal places. -/
def twoOverRootPi : Int := 1128379167095512573896158903121545171688101258657997713688171 * fixOne / 10 ^ 60
def rootTwoOverPi : Int := 797884560802865355879892119868763736951717262329869315331851 * fixOne / 10 ^ 60
/-- 1 / √2. -/
def rootHalf : Int := (Nat.sqrt (2 ^ 319) : Nat)

/-- erf v; from 7 on it is 1 to within 2^−70. -/
def fixErf (v : Int) : Int :=
  if 7 * fixOne ≤ v then fixOne
  else if v ≤ -7 * fixOne then -fixOne
  else fixMul twoOverRootPi (erfSum (fixMul v v) 220 0 v)

/-! ## The exact results: n × 2^e -/

/-- A finite FP32 value as a fixed-point number. -/
def fixOf (neg : Bool) (m : Nat) (e : Int) : Int :=
  let a : Int := (m * 2 ^ (160 + e).toNat : Nat)
  if neg then -a else a

/-- log x for x = m × 2^e above 0. -/
def fixLog (m : Nat) (e : Int) : Int :=
  let k := Nat.log2 m
  -- 1 ≤ f < 2; above 3/2 it is halved, and the exponent is one more
  let f : Int := (m : Int) * fixOne / (2 ^ k : Nat)
  let (f, n) := if 3 * fixOne ≤ 2 * f then (f / 2, (k : Int) + e + 1) else (f, (k : Int) + e)
  n * fixLn2 + 2 * fixAtanh (fixDiv (f - fixOne) (f + fixOne))

/-- The exact result of a special function (Table 5-9) at a finite value, to far more bits than its bound. GELUT is
x/2 × (1 + tanh(√(2/π) (x + 0.044715 x³))): the spec names the tanh form and does not write it out. (Log 70 DESIGN CHOICE.) -/
def sfuExact (op : Nat) (neg : Bool) (m : Nat) (e : Int) : Int × Int :=
  let v := fixOf neg m e
  let sign := fun (n : Nat) => if neg then -(n : Int) else (n : Int)
  match op with
  | 0x10 => if v < -200 * fixOne then (0, -149) else let x := fixExp v; (x.1, x.2 - 160)
  | 0x11 => (fixLog m e, -160)
  | 0x12 => (sign (2 ^ 400 / m), -400 - e)
  | 0x13 =>
    let odd := e % 2 != 0
    let m := if odd then 2 * m else m
    let e := if odd then e - 1 else e
    (Nat.sqrt (2 ^ 400 / m), -200 - e / 2)
  | 0x14 => (fixTanh v, -160)
  | 0x15 => (fixErf v, -160)
  | 0x16 => (fixMul v (fixOne + fixErf (fixMul v rootHalf)) / 2, -160)
  | 0x17 =>
    let u := fixExpNeg (-fixAbs v)
    (if neg then fixDiv u (fixOne + u) else fixDiv fixOne (fixOne + u), -160)
  | _ =>
    let t := if 16 * fixOne ≤ fixAbs v then (if neg then -fixOne else fixOne)
      else fixTanh (fixMul rootTwoOverPi (v + fixMul (fixMul v v) v * 44715 / 1000000))
    (fixMul v (fixOne + t) / 2, -160)

/-- The exponent of the spacing of FP32 values at n × 2^e. -/
def ulpExp (n e : Int) : Int := if n = 0 then -149 else max ((Nat.log2 n.natAbs : Int) + e - 23) (-149)

/-- The bound of Table 5-9 at an input v and an exact result x: how many times 2 to which power. -/
def sfuBound (op : Nat) (v : Int) (x : Int × Int) : Nat × Int :=
  let u := ulpExp x.1 x.2
  match op with
  | 0x12 => (1, u)
  | 0x10 | 0x11 | 0x13 => (2, u)
  | 0x14 => if u + 1 < -24 then (1, -24) else (2, u)
  | 0x15 => (1, -23)
  | 0x17 => (1, -24)
  | _ => if fixOne < fixAbs v then ((fixAbs v).toNat, -182) else (1, -22)

/-! ## FP32 values in order -/

/-- The pattern of the largest FP32 value not above n × 2^e, or the smallest not below; past the largest it is the infinity. -/
def patNear (up : Bool) (n : Nat) (e : Int) : Nat :=
  if n = 0 then 0
  else
    let q := max ((Nat.log2 n : Int) + e - 23) (-149)
    let d := 2 ^ (q - e).toNat
    let k := if q ≤ e then n * 2 ^ (e - q).toNat else if up then ceilDiv n d else n / d
    min ((q + 149).toNat * 2 ^ 23 + k) fp32.infMag

/-- The place of FP32 values in rising order: the pattern, or its negative for a value below 0. -/
def placeNear (up : Bool) (n e : Int) : Int :=
  if 0 ≤ n then (patNear up n.toNat e : Nat) else -(patNear (!up) (-n).toNat e : Nat)

/-- The places that a result may take: within the bound of the exact result. -/
def sfuRange (op x : Nat) : Int × Int :=
  match val32 x with
  | .fin neg m e =>
    let r := sfuExact op neg m e
    let b := sfuBound op (fixOf neg m e) r
    -- one scale for both, 40 bits below the finer; the bound gives way by 2^−30 of itself to the enclosure's error
    let s := min r.2 b.2 - 40
    let n := r.1 * 2 ^ (r.2 - s).toNat
    let k : Int := (b.1 * 2 ^ (b.2 - s).toNat : Nat)
    let k := k + k / 2 ^ 30
    (placeNear true (n - k) s, placeNear false (n + k) s)
  | _ => (0, 0)

/-- A result that is free within its bound; so is the sign of a result of 0. (Log 70 DESIGN CHOICE.) -/
def sfuWithin (op x : Nat) : Nat :=
  let (lo, hi) := sfuRange op x
  let p := lo + ((Config.sfu op x % ((hi - lo).toNat + 1) : Nat) : Int)
  if p = 0 then 2 ^ 31 * (Config.sfu (op + 64) x % 2)
  else if p < 0 then 2 ^ 31 + (-p).toNat else p.toNat

end Sys2Proof.Machine
end

