-- ==== Sys2Proof/Machine/Vector.lean ====
section
/-!
DEFINITION. Sys2Proof/Machine/Vector.lean: the vector unit (R120 to R126, R131) and its loads and stores (R74, R117).
-/

namespace Sys2Proof.Machine

/-! ## The immediate (Table 5-7) -/

def vTy (i : Issue) : Nat := bits i.imm.toNat 0 2
def vStoch (i : Issue) : Bool := bit i.imm.toNat 2
def vMaskReg (i : Issue) : Nat := bits i.imm.toNat 3 3
def vMaskEn (i : Issue) : Bool := bit i.imm.toNat 6
def vOperand (i : Issue) : Nat := i.imm.toNat / 2 ^ 7

/-- Lanes an instruction acts on. -/
def vLanes (w : Wafer) (i : Issue) : Nat → Bool :=
  if vMaskEn i then fun l => bit ((w.core i.site).mget (vMaskReg i)) l else fun _ => true

/-- A vector instruction with a reserved TYPE is CORE_ILLEGAL. The parts of IMM that an OP does not use, OPERAND or RND, are parts of a
field that is used, and may be anything (R104). (Log 75 DESIGN CHOICE.) -/
def vecInstr (i : Issue) (s : State) (unused : Bool) (go : Wafer → Went) : Host.Outcome State Fault Refusal :=
  coreInstr i s unused fun w => if 2 ≤ vTy i then .fault 1 else go w

/-- Write lanes of vD under the mask, count the instruction, and stop the core if it consumed a poisoned lane. -/
def Wafer.vecWrite (w : Wafer) (i : Issue) (r : Nat) (lanes : List Nat) (bad : List Bool) : Wafer :=
  let on := vLanes w i
  w.updCore i.site fun c =>
    let old := c.vget r
    let c' := c.vset r ((List.range 128).map fun l => if on l then lanes.getD l 0 % 2 ^ 32 else old.getD l 0)
    c'.setVbad r ((List.range 128).map fun l => if on l then bad.getD l false else c.vbadAt r l)

/-- A vector instruction completes; one that consumed poison, at a location if the poison was read from a memory, stops the core. -/
def Wafer.vecDone (w : Wafer) (i : Issue) (poisoned : Bool) (loc : Option ErrLoc := none) : Went :=
  let w := w.count (veccBase i.site) Reg.vecOps
  if poisoned then .poisoned w loc else .ok w

/-! ## Elementwise operations -/

/-- Apply an operation of a format to each element of a 32-bit slot (Table 5-7). -/
def perElem (ty : Nat) (f : FpFmt → List Nat → Nat) (xs : List Nat) : Nat :=
  if ty = 0 then f fp32 xs
  else f bf16 (xs.map (· % 2 ^ 16)) % 2 ^ 16 + 2 ^ 16 * (f bf16 (xs.map (· / 2 ^ 16 % 2 ^ 16)) % 2 ^ 16)

/-- vD ← f over the source registers, lane by lane. -/
def vecMap (f : FpFmt → List Nat → Nat) (srcs : List Nat) (i : Issue) (w : Wafer) : Went :=
  let c := w.core i.site
  let lanes := (List.range 128).map fun l => perElem (vTy i) f (srcs.map fun r => (c.vget r).getD l 0)
  let bad := (List.range 128).map fun l => srcs.any fun r => c.vbadAt r l
  let on := vLanes w i
  (w.vecWrite i i.d lanes bad).vecDone i ((List.range 128).any fun l => on l && bad.getD l false)

def opAdd (f : FpFmt) (x : List Nat) : Nat := f.enc .near ((f.dec (x.getD 0 0)).add (f.dec (x.getD 1 0)))
def opSub (f : FpFmt) (x : List Nat) : Nat := f.enc .near ((f.dec (x.getD 0 0)).add (f.dec (x.getD 1 0)).neg)
def opMul (f : FpFmt) (x : List Nat) : Nat := f.enc .near ((f.dec (x.getD 0 0)).mul (f.dec (x.getD 1 0)))
/-- vA × vB + vC with one rounding. -/
def opFma (f : FpFmt) (x : List Nat) : Nat :=
  f.enc .near (((f.dec (x.getD 0 0)).mul (f.dec (x.getD 1 0))).add (f.dec (x.getD 2 0)))
/-- The larger (0) or the smaller (1) operand. The spec does not say which operand is the answer where just one is a NaN, nor for zeros
of unlike sign: it is free between the two, and a NaN answer is the NaN of R86. (Log 16 DESIGN CHOICE.) -/
def opMax (small : Nat) (f : FpFmt) (x : List Nat) : Nat :=
  let va := f.dec (x.getD 0 0)
  let vb := f.dec (x.getD 1 0)
  let a := f.enc .near va
  let b := f.enc .near vb
  if va.isNan || vb.isNan || (va.isZero && vb.isZero && a != b) then (if Config.maxOpen small a b % 2 = 0 then a else b)
  else if va.lt vb then (if small = 0 then b else a) else (if small = 0 then a else b)
def opAbs (f : FpFmt) (x : List Nat) : Nat := f.enc .near (f.dec (x.getD 0 0)).abs
def opNeg (f : FpFmt) (x : List Nat) : Nat := f.enc .near (f.dec (x.getD 0 0)).neg

def execVecAdd (i : Issue) (s : State) : Host.Outcome State Fault Refusal :=
  vecInstr i s (decide (i.c ≠ 0)) (vecMap opAdd [i.a, i.b] i)
def execVecSub (i : Issue) (s : State) : Host.Outcome State Fault Refusal :=
  vecInstr i s (decide (i.c ≠ 0)) (vecMap opSub [i.a, i.b] i)
def execVecMul (i : Issue) (s : State) : Host.Outcome State Fault Refusal :=
  vecInstr i s (decide (i.c ≠ 0)) (vecMap opMul [i.a, i.b] i)
def execVecFma (i : Issue) (s : State) : Host.Outcome State Fault Refusal :=
  vecInstr i s false (vecMap opFma [i.a, i.b, i.c] i)
def execVecMax (i : Issue) (s : State) : Host.Outcome State Fault Refusal :=
  vecInstr i s (decide (i.c ≠ 0)) (vecMap (opMax 0) [i.a, i.b] i)
def execVecMin (i : Issue) (s : State) : Host.Outcome State Fault Refusal :=
  vecInstr i s (decide (i.c ≠ 0)) (vecMap (opMax 1) [i.a, i.b] i)
def execVecAbs (i : Issue) (s : State) : Host.Outcome State Fault Refusal :=
  vecInstr i s (decide (i.b ≠ 0 ∨ i.c ≠ 0)) (vecMap opAbs [i.a] i)
def execVecNeg (i : Issue) (s : State) : Host.Outcome State Fault Refusal :=
  vecInstr i s (decide (i.b ≠ 0 ∨ i.c ≠ 0)) (vecMap opNeg [i.a] i)

/-- SEL: vA where the mask bit is 1, vB elsewhere; MASKEN is ignored. -/
def execVecSel (i : Issue) (s : State) : Host.Outcome State Fault Refusal :=
  vecInstr i s (decide (i.c ≠ 0)) fun w =>
    let c := w.core i.site
    let m := c.mget (vMaskReg i)
    let pick := fun l => if bit m l then i.a else i.b
    let bad := (List.range 128).map fun l => c.vbadAt (pick l) l
    let w := w.updCore i.site fun c => (c.vset i.d ((List.range 128).map fun l => (c.vget (pick l)).getD l 0)).setVbad i.d bad
    w.vecDone i (bad.any id)

/-- A compare into mask register D[2:0]: IEEE ordered, so a NaN gives 0; in BF16 mode both elements must hold. -/
def vecCmp (p : Ext → Ext → Bool) (i : Issue) (w : Wafer) : Went :=
  let c := w.core i.site
  let on := vLanes w i
  let q := fun (f : FpFmt) (x y : Nat) =>
    let a := f.dec x
    let b := f.dec y
    !a.isNan && !b.isNan && p a b
  let old := c.mget i.d
  let res := maskOf 128 fun l =>
    let x := (c.vget i.a).getD l 0
    let y := (c.vget i.b).getD l 0
    if !on l then bit old l
    else if vTy i = 0 then q fp32 x y
    else q bf16 (x % 2 ^ 16) (y % 2 ^ 16) && q bf16 (x / 2 ^ 16) (y / 2 ^ 16)
  (w.updCore i.site fun c => c.mset i.d res).vecDone i
    ((List.range 128).any fun l => on l && (c.vbadAt i.a l || c.vbadAt i.b l))

def execVecCmpgt (i : Issue) (s : State) : Host.Outcome State Fault Refusal :=
  vecInstr i s (decide (i.c ≠ 0 ∨ 8 ≤ i.d)) (vecCmp (fun a b => b.lt a) i)
def execVecCmpge (i : Issue) (s : State) : Host.Outcome State Fault Refusal :=
  vecInstr i s (decide (i.c ≠ 0 ∨ 8 ≤ i.d)) (vecCmp (fun a b => !a.lt b) i)
def execVecCmpeq (i : Issue) (s : State) : Host.Outcome State Fault Refusal :=
  vecInstr i s (decide (i.c ≠ 0 ∨ 8 ≤ i.d)) (vecCmp (fun a b => !a.lt b && !b.lt a) i)

/-- BCAST: every element ← the low 32 (FP32) or 16 (BF16) bits of sA. -/
def execVecBcast (i : Issue) (s : State) : Host.Outcome State Fault Refusal :=
  vecInstr i s (decide (i.b ≠ 0 ∨ i.c ≠ 0)) fun w =>
    let x := (w.ra i).toNat
    let v := if vTy i = 0 then x % 2 ^ 32 else x % 2 ^ 16 * (2 ^ 16 + 1)
    (w.vecWrite i i.d (List.replicate 128 v) []).vecDone i false

/-! ## Stochastic rounding (R98, R99) -/

/-- Bits r for output element j of this instruction. -/
def Wafer.stoR (w : Wafer) (i : Issue) (j : Nat) : Nat :=
  let c := w.core i.site
  stoBits ((w.job.image.map (·.seed)).getD 0) c.q (tickDiff w.tick w.job.t0) (c.logical.getD 0 + 2 * 2 ^ 11) j

def Wafer.rndFor (w : Wafer) (i : Issue) (j : Nat) : Rnd := if vStoch i then .sto (w.stoR i j) else .near

/-- An instruction that rounded stochastically: it is counted, and q advances (R99). One that rounds nothing (a widening CVT, a special
function in FP32 mode) is not counted, whatever its RND; a stream-out to FP32 with RND = 1 is. (Log 75 DESIGN CHOICE.) -/
def Wafer.stoDone (w : Wafer) (i : Issue) : Wafer :=
  if vStoch i then (w.updCore i.site fun c => { c with q := c.q + 1 }).count (veccBase i.site) Reg.vecSround else w

/-! ## Special functions (Table 5-9) -/

/-- The value a special function gives a special input, as an FP32 pattern; `none` for other inputs. (Log 70 DESIGN CHOICE.) -/
def sfuSpecial (op : Nat) (v : Ext) : Option Nat :=
  let one := 0x3F800000
  let negOne := 0xBF800000
  let pInf := fp32.infMag
  let nInf := 2 ^ 31 + fp32.infMag
  match v with
  | .nan => some fp32.nan
  | .inf neg =>
    match op with
    | 0x10 => some (if neg then 0 else pInf)
    | 0x11 => some (if neg then fp32.nan else pInf)
    | 0x12 => some (if neg then 2 ^ 31 else 0)
    | 0x13 => some (if neg then fp32.nan else 0)
    | 0x14 | 0x15 => some (if neg then negOne else one)
    | 0x17 => some (if neg then 0 else one)
    | _ => some (if neg then 2 ^ 31 else pInf)
  | .fin neg m e =>
    match op with
    | 0x10 => if Ext.lt (.fin false 887228 0) (.fin neg (m * 10000) e) then some pInf else none
    | 0x11 => if m = 0 then some nInf else if neg then some fp32.nan else none
    | 0x12 => if m = 0 then some (if neg then nInf else pInf) else none
    | 0x13 => if m = 0 then some (if neg then nInf else pInf) else if neg then some fp32.nan else none
    | _ => none

/-- A special function of an FP32 pattern: what Table 5-9 states, or a value that is free within its bound.
(Log 70 DESIGN CHOICE.) -/
def sfu32 (op x : Nat) : Nat := (sfuSpecial op (val32 x)).getD (sfuWithin op x)

/-- vD ← f(vA). In BF16 mode the function is computed as in FP32 and converted under RND (R121). (Log 70 DESIGN CHOICE.) -/
def vecSfu (op : Nat) (i : Issue) (w : Wafer) : Went :=
  let c := w.core i.site
  let on := vLanes w i
  let lanes := (List.range 128).map fun l =>
    let x := (c.vget i.a).getD l 0
    if vTy i = 0 then sfu32 op x
    else
      let h := fun j (y : Nat) => bf16.enc (w.rndFor i j) (val32 (sfu32 op (y * 2 ^ 16)))
      h (2 * l) (x % 2 ^ 16) + 2 ^ 16 * h (2 * l + 1) (x / 2 ^ 16 % 2 ^ 16)
  let bad := (List.range 128).map fun l => c.vbadAt i.a l
  let w := (w.vecWrite i i.d lanes bad).count (veccBase i.site) Reg.vecSfu
  let w := if vTy i = 1 then w.stoDone i else w
  w.vecDone i ((List.range 128).any fun l => on l && bad.getD l false)

def execVecExp (i : Issue) (s : State) : Host.Outcome State Fault Refusal :=
  vecInstr i s (decide (i.b ≠ 0 ∨ i.c ≠ 0)) (vecSfu 0x10 i)
def execVecLog (i : Issue) (s : State) : Host.Outcome State Fault Refusal :=
  vecInstr i s (decide (i.b ≠ 0 ∨ i.c ≠ 0)) (vecSfu 0x11 i)
def execVecRcp (i : Issue) (s : State) : Host.Outcome State Fault Refusal :=
  vecInstr i s (decide (i.b ≠ 0 ∨ i.c ≠ 0)) (vecSfu 0x12 i)
def execVecRsqrt (i : Issue) (s : State) : Host.Outcome State Fault Refusal :=
  vecInstr i s (decide (i.b ≠ 0 ∨ i.c ≠ 0)) (vecSfu 0x13 i)
def execVecTanh (i : Issue) (s : State) : Host.Outcome State Fault Refusal :=
  vecInstr i s (decide (i.b ≠ 0 ∨ i.c ≠ 0)) (vecSfu 0x14 i)
def execVecErf (i : Issue) (s : State) : Host.Outcome State Fault Refusal :=
  vecInstr i s (decide (i.b ≠ 0 ∨ i.c ≠ 0)) (vecSfu 0x15 i)
def execVecGelu (i : Issue) (s : State) : Host.Outcome State Fault Refusal :=
  vecInstr i s (decide (i.b ≠ 0 ∨ i.c ≠ 0)) (vecSfu 0x16 i)
def execVecSigmoid (i : Issue) (s : State) : Host.Outcome State Fault Refusal :=
  vecInstr i s (decide (i.b ≠ 0 ∨ i.c ≠ 0)) (vecSfu 0x17 i)
def execVecGelut (i : Issue) (s : State) : Host.Outcome State Fault Refusal :=
  vecInstr i s (decide (i.b ≠ 0 ∨ i.c ≠ 0)) (vecSfu 0x18 i)

/-! ## Reductions (R122) -/

/-- One level of the fixed tree: slot 2l + 1 is added to slot 2l; an excluded lane takes no part. -/
def treeLevel : List (Option Nat) → List (Option Nat)
  | a :: b :: l => (match a, b with
      | some x, some y => some (add32 x y)
      | some x, none => some x
      | none, y => y) :: treeLevel l
  | l => l

def treeSum (l : List (Option Nat)) : Option Nat :=
  ((treeLevel (treeLevel (treeLevel (treeLevel (treeLevel (treeLevel (treeLevel l))))))).getD 0 none)

/-- Lane values of a reduction: FP32, or both BF16 elements converted and added (RSUM). -/
def sumLane (ty x : Nat) : Nat :=
  if ty = 0 then x else add32 (x % 2 ^ 16 * 2 ^ 16) (x / 2 ^ 16 % 2 ^ 16 * 2 ^ 16)

/-- The elements that take part, with their indices. -/
def redElems (w : Wafer) (i : Issue) : List (Nat × Nat) :=
  let c := w.core i.site
  let on := vLanes w i
  ((List.range 128).filter on).flatMap fun l =>
    let x := (c.vget i.a).getD l 0
    if vTy i = 0 then [(l, x)] else [(2 * l, x % 2 ^ 16), (2 * l + 1, x / 2 ^ 16 % 2 ^ 16)]

/-- The best element under R77: the lowest index wins a tie. -/
def bestElem (f : FpFmt) (small : Bool) : List (Nat × Nat) → Option (Nat × Nat)
  | [] => none
  | e :: l =>
    match bestElem f small l with
    | none => some e
    | some b =>
      let better := if small then (f.dec b.2).lt (f.dec e.2) else (f.dec e.2).lt (f.dec b.2)
      some (if better then b else e)

/-- The result of a reduction: lane 0, lane 1 (its second output element, if it has one), and +0 elsewhere; poison goes to the elements
that depend on it (R131). -/
def redWrite (w : Wafer) (i : Issue) (l0 : Nat) (l1 : Option Nat) : Wafer :=
  let c := w.core i.site
  let on := vLanes w i
  let bad := (List.range 128).any fun l => on l && c.vbadAt i.a l
  w.updCore i.site fun c => (c.vset i.d (l0 :: l1.getD 0 :: List.replicate 126 0)).setVbad i.d [bad, bad && l1.isSome]

def redBad (w : Wafer) (i : Issue) : Bool :=
  (List.range 128).any fun l => vLanes w i l && (w.core i.site).vbadAt i.a l

/-- RSUM: the fixed tree; every other destination lane is set to +0. The sum over no lane is +0. (Log 16 DESIGN CHOICE.) -/
def execVecRsum (i : Issue) (s : State) : Host.Outcome State Fault Refusal :=
  vecInstr i s (decide (i.b ≠ 0 ∨ i.c ≠ 0)) fun w =>
    let c := w.core i.site
    let v := treeSum ((List.range 128).map fun l =>
      if vLanes w i l then some (sumLane (vTy i) ((c.vget i.a).getD l 0)) else none)
    (redWrite w i (rne (val32 (v.getD 0))) none).vecDone i (redBad w i)

/-- RMAX, RMIN (index not kept), RARGMAX, RARGMIN (index in lane 1). (Log 16 DESIGN CHOICE.) -/
def vecBest (small arg : Bool) (i : Issue) (w : Wafer) : Went :=
  let f := if vTy i = 0 then fp32 else bf16
  let (l0, l1) := match bestElem f small (redElems w i) with
    | some (k, x) => (f.enc .near (f.dec x), if arg then some k else none)
    | none => (Config.emptyReduction (b2n small) % 2 ^ 32, if arg then some (Config.emptyReduction 2 % 2 ^ 32) else none)
  (redWrite w i l0 l1).vecDone i (redBad w i)

def execVecRmax (i : Issue) (s : State) : Host.Outcome State Fault Refusal :=
  vecInstr i s (decide (i.b ≠ 0 ∨ i.c ≠ 0)) (vecBest false false i)
def execVecRmin (i : Issue) (s : State) : Host.Outcome State Fault Refusal :=
  vecInstr i s (decide (i.b ≠ 0 ∨ i.c ≠ 0)) (vecBest true false i)
def execVecRargmax (i : Issue) (s : State) : Host.Outcome State Fault Refusal :=
  vecInstr i s (decide (i.b ≠ 0 ∨ i.c ≠ 0)) (vecBest false true i)
def execVecRargmin (i : Issue) (s : State) : Host.Outcome State Fault Refusal :=
  vecInstr i s (decide (i.b ≠ 0 ∨ i.c ≠ 0)) (vecBest true true i)

/-! ## Top-k (R123, Table 5-10) -/

structure TopkDesc where
  src : Nat
  rows : Nat
  stride : Nat
  dst : Nat
  k : Nat
  glog2 : Nat
  rowwise : Bool
  smallest : Bool
  idxbase : Nat
  deriving DecidableEq, Repr, Inhabited

def topkOf (l : List Byte) : TopkDesc :=
  ⟨fieldAt l 0 4, fieldAt l 4 4, fieldAt l 8 4, fieldAt l 12 4, fieldAt l 16 1, fieldAt l 17 1, bit (fieldAt l 18 1) 0,
    bit (fieldAt l 18 1) 1, fieldAt l 20 4⟩

/-- Insert into a list kept best first; the earlier entry stays ahead of an equal one. -/
def topInsert (small : Bool) (e : Nat × Nat) : List (Nat × Nat) → List (Nat × Nat)
  | [] => [e]
  | x :: l =>
    let ahead := if small then (val32 e.1).lt (val32 x.1) else (val32 x.1).lt (val32 e.1)
    if ahead then e :: x :: l else x :: topInsert small e l

/-- The K best of candidates given in rising index order. -/
def topK (small : Bool) (k : Nat) (l : List (Nat × Nat)) : List (Nat × Nat) :=
  l.foldl (fun a e => (topInsert small e a).take k) []

/-- Bytes of one result set. -/
def topSet (d : TopkDesc) (l : List (Nat × Nat)) : List Byte :=
  let best := topK d.smallest d.k l
  let pad := d.k - best.length
  let vals := best.map (fun e => rne (val32 e.1)) ++ List.replicate pad (if d.smallest then 0x7F800000 else 0xFF800000)
  let idx := best.map (·.2) ++ List.replicate pad 0xFFFFFFFF
  let b := (vals ++ idx).flatMap (natLE 4)
  b ++ List.replicate (ceilDiv (8 * d.k) 32 * 32 - 8 * d.k) 0#8

/-- Candidates of group g over the given rows: value and index. -/
def topCands (w : Wafer) (s : Nat) (d : TopkDesc) (g : Nat) (rows : List Nat) : List (Nat × Nat) :=
  let n := 2 ^ d.glog2
  rows.flatMap fun r => (List.range n).map fun j =>
    let a := d.src + r * d.stride + 4 * (g * n + j)
    (w.coreMem.num (coreAddr s a) 4, (d.idxbase + (if d.rowwise then 0 else r * n) + j) % 2 ^ 32)

/-- The location of the first poisoned word of a range of core memory (R130). -/
def Wafer.firstBad (w : Wafer) (s a n : Nat) : ErrLoc :=
  coreMemLoc s (a + 8 * ((w.coreMem.badWords (coreAddr s a) n).headD 0))

/-- TOPK (R123, R131): an output that depends on a poisoned word is poisoned, and the core stops at that word's location. A store to a
scale byte that is yet to be read is held (R101). -/
def execVecTopk (i : Issue) (s : State) : Host.Outcome State Fault Refusal :=
  vecInstr i s (decide (i.b ≠ 0 ∨ i.c ≠ 0 ∨ i.d ≠ 0)) fun w =>
    let p := (w.ra i + BitVec.ofNat 64 (vOperand i)).toNat
    if 2 ^ 24 < p + 32 then .fault 2
    else
      let d := topkOf (w.coreBytes i.site p 32)
      -- a poisoned descriptor word: every output depends on it
      let dbad := w.coreMem.badIn (coreAddr i.site p) 32
      let refuse := fun (code : Nat) => if dbad then Went.poisoned w (some (w.firstBad i.site p 32)) else Went.fault code
      if d.rows = 0 ∨ 65535 < d.rows ∨ d.stride % 32 ≠ 0 ∨ d.src % 32 ≠ 0 ∨ d.dst % 32 ≠ 0 ∨ d.k = 0 ∨ 64 < d.k ∨ 7 < d.glog2 then
        refuse 5
      else
        let groups := 128 / 2 ^ d.glog2
        let setLen := ceilDiv (8 * d.k) 32 * 32
        let sets := if d.rowwise then (List.range d.rows).flatMap fun r => (List.range groups).map fun g => (g, [r])
          else (List.range groups).map fun g => (g, List.range d.rows)
        let len := sets.length * setLen
        if 2 ^ 24 < d.src + (d.rows - 1) * d.stride + 512 ∨ 2 ^ 24 < d.dst + len then refuse 2
        else if (w.core i.site).inCode d.dst len then refuse 3
        else if w.scaleHeld i.site d.dst len then .hold (w.scaleWait i.site d.dst len)
        else
          let n := 2 ^ d.glog2
          let badSet := fun (e : Nat × List Nat) => e.2.any fun r =>
            w.coreMem.badIn (coreAddr i.site (d.src + r * d.stride + 4 * (e.1 * n))) (4 * n)
          let out := sets.flatMap fun e => topSet d (topCands w i.site d e.1 e.2)
          let bad := ((List.range sets.length).filter fun k => dbad || badSet (sets.getD k (0, []))).flatMap fun k =>
            rangeFrom (k * (setLen / 8)) (setLen / 8)
          let row := (List.range d.rows).find? fun r => w.coreMem.badIn (coreAddr i.site (d.src + r * d.stride)) 512
          let loc := if dbad then some (w.firstBad i.site p 32)
            else row.map fun r => w.firstBad i.site (d.src + r * d.stride) 512
          let w := { w with coreMem := w.coreMem.writeBad (coreAddr i.site d.dst) out bad }
          w.vecDone i (!bad.isEmpty) loc

/-! ## Loads and stores -/

def laneBytes (l : List Nat) : List Byte := l.flatMap (natLE 4)
def lanesOf (l : List Byte) : List Nat := (List.range 128).map fun k => fieldAt l (4 * k) 4

/-- Write 128 lanes at an aligned address under the mask: words all of whose lanes are masked out are left alone, and a
word written in part keeps its poison. -/
def Mem.writeLanes (m : Mem) (a : Nat) (on : Nat → Bool) (lanes : List Nat) (bad : Nat → Bool) : Mem :=
  (List.range 64).foldl (fun m k =>
    let x := on (2 * k)
    let y := on (2 * k + 1)
    let at_ := a + 8 * k
    if !x && !y then m
    else
      let old := m.badAt at_
      let m := if x then m.setBytes at_ (natLE 4 (lanes.getD (2 * k) 0)) else m
      let m := if y then m.setBytes (at_ + 4) (natLE 4 (lanes.getD (2 * k + 1) 0)) else m
      m.mark at_ ((x && bad (2 * k)) || (y && bad (2 * k + 1)) || (!(x && y) && old))) m

/-- LD: 512 bytes at sA + OPERAND, aligned to 32. -/
def execVecLd (i : Issue) (s : State) : Host.Outcome State Fault Refusal :=
  vecInstr i s (decide (i.b ≠ 0 ∨ i.c ≠ 0)) fun w =>
    let a := (w.ra i + BitVec.ofNat 64 (vOperand i)).toNat
    if a % 32 ≠ 0 ∨ 2 ^ 24 < a + 512 then .fault 2
    else
      let on := vLanes w i
      let bad := (List.range 128).map fun l => w.coreMem.badAt (coreAddr i.site (a + 4 * l))
      let p := (List.range 128).find? fun l => on l && bad.getD l false
      (w.vecWrite i i.d (lanesOf (w.coreBytes i.site a 512)) bad).vecDone i p.isSome (p.map fun l => coreMemLoc i.site (a + 4 * l))

/-- ST: 512 bytes at sA + OPERAND ← vB; D and C are not used. -/
def execVecSt (i : Issue) (s : State) : Host.Outcome State Fault Refusal :=
  vecInstr i s (decide (i.d ≠ 0 ∨ i.c ≠ 0)) fun w =>
    let a := (w.ra i + BitVec.ofNat 64 (vOperand i)).toNat
    if a % 32 ≠ 0 ∨ 2 ^ 24 < a + 512 then .fault 2
    else if (w.core i.site).inCode a 512 then .fault 3
    else
      let c := w.core i.site
      let on := vLanes w i
      -- the lanes it stores, but for the masked ones
      match (List.range 128).find? fun l => on l && w.scaleHeld i.site (a + 4 * l) 4 with
      | some l => .hold (w.scaleWait i.site (a + 4 * l) 4)
      | none =>
      let w := { w with coreMem := w.coreMem.writeLanes (coreAddr i.site a) on (c.vget i.b) (c.vbadAt i.b) }
      w.vecDone i ((List.range 128).any fun l => on l && c.vbadAt i.b l)

/-- LDACC: vD ← accumulator row OPERAND[11:2] of bank OPERAND[1] of engine OPERAND[0]. -/
def execVecLdacc (i : Issue) (s : State) : Host.Outcome State Fault Refusal :=
  vecInstr i s (decide (i.a ≠ 0 ∨ i.b ≠ 0 ∨ i.c ≠ 0)) fun w =>
    let o := vOperand i
    let e := 2 * i.site + bits o 0 1
    let a := accAddr e (bits o 1 1) (bits o 2 10)
    if w.bankHeld e (bits o 1 1) then .hold (.engine e)
    else
      let w := w.matHold e i.held
      let on := vLanes w i
      let bad := (List.range 128).map fun l => w.accMem.badAt (a + 4 * l)
      (w.vecWrite i i.d (lanesOf (w.accMem.read a 512)) bad).vecDone i ((List.range 128).any fun l => on l && bad.getD l false)
        (some (accLoc i.site (bits o 0 1) (bits o 1 1) (bits o 2 10)))

/-- STACC: the same accumulator row ← vB. -/
def execVecStacc (i : Issue) (s : State) : Host.Outcome State Fault Refusal :=
  vecInstr i s (decide (i.d ≠ 0 ∨ i.a ≠ 0 ∨ i.c ≠ 0)) fun w =>
    let o := vOperand i
    let e := 2 * i.site + bits o 0 1
    let a := accAddr e (bits o 1 1) (bits o 2 10)
    if w.bankHeld e (bits o 1 1) then .hold (.engine e)
    else
      let w := w.matHold e i.held
      let c := w.core i.site
      let on := vLanes w i
      let w := { w with accMem := w.accMem.writeLanes a on (c.vget i.b) (c.vbadAt i.b) }
      w.vecDone i ((List.range 128).any fun l => on l && c.vbadAt i.b l)

/-! ## Conversions (R124, R125) and random bits (R126) -/

/-- Bits of a CVT format code. -/
def cvtBits (c : Nat) : Nat := if c ≤ 2 then 16 else if c ≤ 5 then 8 else 4
/-- The element format code of Table 3-3 for a CVT code 1 to 6. -/
def cvtFmt (c : Nat) : Nat :=
  match c with
  | 1 => 0 | 2 => 1 | 3 => 2 | 4 => 3 | 5 => 11 | _ => 12

/-- Element j of the registers from r: lane j mod 128 of register r + ⌊j / 128⌋. -/
def Core.elem (c : Core) (r j : Nat) : Nat := (c.vget (r + j / 128)).getD (j % 128) 0

/-- Write a whole register under the mask and say whether poison was consumed. -/
def execVecCvt (i : Issue) (s : State) : Host.Outcome State Fault Refusal :=
  vecInstr i s (decide (i.b ≠ 0 ∨ i.c ≠ 0)) fun w =>
    let src := bits (vOperand i) 0 4
    let tgt := bits (vOperand i) 4 4
    if 6 < src ∨ 6 < tgt ∨ (src = 0 ∧ tgt = 0) ∨ (src ≠ 0 ∧ tgt ≠ 0) then .fault 1
    else if src = 0 then
      let n := 32 / cvtBits tgt
      if 32 < i.a + n then .fault 1
      else
        let c := w.core i.site
        let codes := (List.range (128 * n)).map fun j =>
          fmtEnc (cvtFmt tgt) (w.rndFor i j) (val32 (c.elem i.a j))
        let bad := (List.range 128).map fun l => (List.range n).any fun t =>
          let j := l * n + t
          c.vbadAt (i.a + j / 128) (j % 128)
        let w := (w.vecWrite i i.d (lanesOf (packElems (cvtBits tgt) codes)) bad).stoDone i
        w.vecDone i ((List.range 128).any fun l => vLanes w i l && bad.getD l false)
    else
      let n := 32 / cvtBits src
      if 32 < i.d + n then .fault 1
      else
        let c := w.core i.site
        let packed := laneBytes (c.vget i.a)
        let badSrc := fun j => c.vbadAt i.a (j / n)
        let w' := (List.range n).foldl (fun w k => w.vecWrite i (i.d + k)
          ((List.range 128).map fun l => rne (fmtVal (cvtFmt src) (packedElem packed (cvtBits src) (128 * k + l))))
          ((List.range 128).map fun l => badSrc (128 * k + l))) w
        w'.vecDone i ((List.range (128 * n)).any fun j => vLanes w i (j % 128) && badSrc j)

/-- QMX: 512 FP32 values of vA to vA + 3 into 16 MX blocks; elements to vD, scale bytes to vD + 1. -/
def execVecQmx (i : Issue) (s : State) : Host.Outcome State Fault Refusal :=
  vecInstr i s (decide (i.b ≠ 0 ∨ i.c ≠ 0)) fun w =>
    let f := bits (vOperand i) 0 4
    if f < 4 ∨ 9 < f ∨ 32 < i.a + 4 ∨ 32 < i.d + 2 then .fault 1
    else
      let c := w.core i.site
      let blocks := (List.range 16).map fun b =>
        mxBlock f ((List.range 32).map fun k => c.elem i.a (32 * b + k)) fun k => w.rndFor i (32 * b + k)
      let elems := packElems (fmtBits f) (blocks.flatMap (·.2))
      let badBlk := (List.range 16).map fun b => (List.range 32).any fun k =>
        let j := 32 * b + k
        c.vbadAt (i.a + j / 128) (j % 128)
      let perBlk := 4 * fmtBits f
      let bad := (List.range 128).map fun l => badBlk.getD (4 * l / perBlk) false && decide (4 * l < 16 * perBlk)
      let w' := w.vecWrite i i.d (lanesOf (elems ++ List.replicate (512 - elems.length) 0#8)) bad
      let w' := w'.vecWrite i (i.d + 1) (lanesOf (blocks.map (fun b => BitVec.ofNat 8 b.1) ++ List.replicate 496 0#8))
        ((List.range 4).map fun l => (List.range 4).any fun k => badBlk.getD (4 * l + k) false)
      (w'.stoDone i).vecDone i (badBlk.any id)

/-- RAND: 128 words of the core's generator; it advances q_r, not q. -/
def execVecRand (i : Issue) (s : State) : Host.Outcome State Fault Refusal :=
  vecInstr i s (decide (i.a ≠ 0 ∨ i.b ≠ 0 ∨ i.c ≠ 0)) fun w =>
    let c := w.core i.site
    let key := (w.job.image.map (·.seed)).getD 0
    let lanes := (List.range 128).map fun l =>
      philox key (l / 4) (2 ^ 31 + c.qr) (tickDiff w.tick w.job.t0) (c.logical.getD 0 + 3 * 2 ^ 11) (l % 4)
    let w := w.vecWrite i i.d lanes []
    (w.updCore i.site fun c => { c with qr := c.qr + 1 }).vecDone i false

end Sys2Proof.Machine
end

