-- ==== Sys2Proof/Machine/Dispatch.lean ====
section
/-!
DEFINITION. Sys2Proof/Machine/Dispatch.lean: one arm per command, each a direct call of its meaning.
-/

namespace Sys2Proof.Machine

def exec (i : Instr) (s : State) : Host.Outcome State Fault Refusal :=
  match i with
  | .tickBoundary takeLimit => Sys2Proof.Machine.execTickBoundary takeLimit s
  | .scanTimeBound => Sys2Proof.Machine.execScanTimeBound s
  | .registerWrite path off value lanes => Sys2Proof.Machine.execRegisterWrite path off value lanes s
  | .referenceSwitch field => Sys2Proof.Machine.execReferenceSwitch field s
  | .tickSchedule p => Sys2Proof.Machine.execTickSchedule p s
  | .tickRateChange p => Sys2Proof.Machine.execTickRateChange p s
  | .heartbeat port hb => Sys2Proof.Machine.execHeartbeat port hb s
  | .tickWaveSend => Sys2Proof.Machine.execTickWaveSend s
  | .tickWave field => Sys2Proof.Machine.execTickWave field s
  | .tickWaveReroot parent => Sys2Proof.Machine.execTickWaveReroot parent s
  | .tickWaveLost field => Sys2Proof.Machine.execTickWaveLost field s
  | .timingFrame port msg dt eighth => Sys2Proof.Machine.execTimingFrame port msg dt eighth s
  | .upstreamLost => Sys2Proof.Machine.execUpstreamLost s
  | .timeLost reacquired => Sys2Proof.Machine.execTimeLost reacquired s
  | .ppsseed write => Sys2Proof.Machine.execPpsseed write s
  | .ppsEdge dt => Sys2Proof.Machine.execPpsEdge dt s
  | .lckWallRead dt => Sys2Proof.Machine.execLckWallRead dt s
  | .ntpPacket server offsetNs => Sys2Proof.Machine.execNtpPacket server offsetNs s
  | .matMode q => Sys2Proof.Machine.execMatMode q s
  | .matLoad q => Sys2Proof.Machine.execMatLoad q s
  | .matStream q => Sys2Proof.Machine.execMatStream q s
  | .matWait q => Sys2Proof.Machine.execMatWait q s
  | .shadowLoadStart site e => Sys2Proof.Machine.execShadowLoadStart site e s
  | .passIssue site e paused => Sys2Proof.Machine.execPassIssue site e paused s
  | .passComplete site e paused => Sys2Proof.Machine.execPassComplete site e paused s
  | .matClear path site e => Sys2Proof.Machine.execMatClear path site e s
  | .seqNop q => Sys2Proof.Machine.execSeqNop q s
  | .seqLdi q => Sys2Proof.Machine.execSeqLdi q s
  | .seqLdih q => Sys2Proof.Machine.execSeqLdih q s
  | .seqAdd q => Sys2Proof.Machine.execSeqAdd q s
  | .seqAddi q => Sys2Proof.Machine.execSeqAddi q s
  | .seqSub q => Sys2Proof.Machine.execSeqSub q s
  | .seqMul q => Sys2Proof.Machine.execSeqMul q s
  | .seqAnd q => Sys2Proof.Machine.execSeqAnd q s
  | .seqOr q => Sys2Proof.Machine.execSeqOr q s
  | .seqXor q => Sys2Proof.Machine.execSeqXor q s
  | .seqShl q => Sys2Proof.Machine.execSeqShl q s
  | .seqShr q => Sys2Proof.Machine.execSeqShr q s
  | .seqSra q => Sys2Proof.Machine.execSeqSra q s
  | .seqLd q => Sys2Proof.Machine.execSeqLd q s
  | .seqSt q => Sys2Proof.Machine.execSeqSt q s
  | .seqBeq q => Sys2Proof.Machine.execSeqBeq q s
  | .seqBne q => Sys2Proof.Machine.execSeqBne q s
  | .seqBlt q => Sys2Proof.Machine.execSeqBlt q s
  | .seqBge q => Sys2Proof.Machine.execSeqBge q s
  | .seqBltu q => Sys2Proof.Machine.execSeqBltu q s
  | .seqBgeu q => Sys2Proof.Machine.execSeqBgeu q s
  | .seqJal q => Sys2Proof.Machine.execSeqJal q s
  | .seqJr q => Sys2Proof.Machine.execSeqJr q s
  | .seqRdsys q => Sys2Proof.Machine.execSeqRdsys q s
  | .movCopy q => Sys2Proof.Machine.execMovCopy q s
  | .movFill q => Sys2Proof.Machine.execMovFill q s
  | .movWait q => Sys2Proof.Machine.execMovWait q s
  | .copyComplete site idx => Sys2Proof.Machine.execCopyComplete site idx s
  | .cnlSend q => Sys2Proof.Machine.execCnlSend q s
  | .cnlMcast q => Sys2Proof.Machine.execCnlMcast q s
  | .cnlConf q => Sys2Proof.Machine.execCnlConf q s
  | .cnlPost q => Sys2Proof.Machine.execCnlPost q s
  | .cnlWait q => Sys2Proof.Machine.execCnlWait q s
  | .sendComplete site idx => Sys2Proof.Machine.execSendComplete site idx s
  | .synMark q => Sys2Proof.Machine.execSynMark q s
  | .synSemwait q => Sys2Proof.Machine.execSynSemwait q s
  | .synSempost q => Sys2Proof.Machine.execSynSempost q s
  | .synSemread q => Sys2Proof.Machine.execSynSemread q s
  | .synAttime q => Sys2Proof.Machine.execSynAttime q s
  | .vecAdd q => Sys2Proof.Machine.execVecAdd q s
  | .vecSub q => Sys2Proof.Machine.execVecSub q s
  | .vecMul q => Sys2Proof.Machine.execVecMul q s
  | .vecFma q => Sys2Proof.Machine.execVecFma q s
  | .vecMax q => Sys2Proof.Machine.execVecMax q s
  | .vecMin q => Sys2Proof.Machine.execVecMin q s
  | .vecAbs q => Sys2Proof.Machine.execVecAbs q s
  | .vecNeg q => Sys2Proof.Machine.execVecNeg q s
  | .vecSel q => Sys2Proof.Machine.execVecSel q s
  | .vecCmpgt q => Sys2Proof.Machine.execVecCmpgt q s
  | .vecCmpge q => Sys2Proof.Machine.execVecCmpge q s
  | .vecCmpeq q => Sys2Proof.Machine.execVecCmpeq q s
  | .vecBcast q => Sys2Proof.Machine.execVecBcast q s
  | .vecExp q => Sys2Proof.Machine.execVecExp q s
  | .vecLog q => Sys2Proof.Machine.execVecLog q s
  | .vecRcp q => Sys2Proof.Machine.execVecRcp q s
  | .vecRsqrt q => Sys2Proof.Machine.execVecRsqrt q s
  | .vecTanh q => Sys2Proof.Machine.execVecTanh q s
  | .vecErf q => Sys2Proof.Machine.execVecErf q s
  | .vecGelu q => Sys2Proof.Machine.execVecGelu q s
  | .vecSigmoid q => Sys2Proof.Machine.execVecSigmoid q s
  | .vecGelut q => Sys2Proof.Machine.execVecGelut q s
  | .vecRsum q => Sys2Proof.Machine.execVecRsum q s
  | .vecRmax q => Sys2Proof.Machine.execVecRmax q s
  | .vecRmin q => Sys2Proof.Machine.execVecRmin q s
  | .vecRargmax q => Sys2Proof.Machine.execVecRargmax q s
  | .vecRargmin q => Sys2Proof.Machine.execVecRargmin q s
  | .vecTopk q => Sys2Proof.Machine.execVecTopk q s
  | .vecLd q => Sys2Proof.Machine.execVecLd q s
  | .vecSt q => Sys2Proof.Machine.execVecSt q s
  | .vecLdacc q => Sys2Proof.Machine.execVecLdacc q s
  | .vecStacc q => Sys2Proof.Machine.execVecStacc q s
  | .vecCvt q => Sys2Proof.Machine.execVecCvt q s
  | .vecQmx q => Sys2Proof.Machine.execVecQmx q s
  | .vecRand q => Sys2Proof.Machine.execVecRand q s
  | .seqClear path site => Sys2Proof.Machine.execSeqClear path site s
  | .spareRemap cluster => Sys2Proof.Machine.execSpareRemap cluster s
  | .gmeLaneTake cluster => Sys2Proof.Machine.execGmeLaneTake cluster s
  | .gmeSetupDone cluster lane => Sys2Proof.Machine.execGmeSetupDone cluster lane s
  | .gmeEmissionDone cluster lane => Sys2Proof.Machine.execGmeEmissionDone cluster lane s
  | .gmeClear path cluster => Sys2Proof.Machine.execGmeClear path cluster s
  | .canalFlitHop idx err => Sys2Proof.Machine.execCanalFlitHop idx err s
  | .canalFlitDeliver idx => Sys2Proof.Machine.execCanalFlitDeliver idx s
  | .confMerge idx => Sys2Proof.Machine.execConfMerge idx s
  | .confBufferTimeout router idx => Sys2Proof.Machine.execConfBufferTimeout router idx s
  | .confLanding idx => Sys2Proof.Machine.execConfLanding idx s
  | .canalLanding site idx => Sys2Proof.Machine.execCanalLanding site idx s
  | .fenceMessage msg news => Sys2Proof.Machine.execFenceMessage msg news s
  | .rect msg news => Sys2Proof.Machine.execRect msg news s
  | .jobFault msg news => Sys2Proof.Machine.execJobFault msg news s
  | .arbSheepdogBite base oldest => Sys2Proof.Machine.execArbSheepdogBite base oldest s
  | .arbSwap path base => Sys2Proof.Machine.execArbSwap path base s
  | .rtrClear path router => Sys2Proof.Machine.execRtrClear path router s
  | .rimWrite idx => Sys2Proof.Machine.execRimWrite idx s
  | .rimAcc idx => Sys2Proof.Machine.execRimAcc idx s
  | .rimRead idx => Sys2Proof.Machine.execRimRead idx s
  | .rimAck stack idx => Sys2Proof.Machine.execRimAck stack idx s
  | .cxlMemWrite port addr data enable => Sys2Proof.Machine.execCxlMemWrite port addr data enable s
  | .cxlMemRead port addr => Sys2Proof.Machine.execCxlMemRead port addr s
  | .chamberWrite port off data => Sys2Proof.Machine.execChamberWrite port off data s
  | .heatWindowEnd => Sys2Proof.Machine.execHeatWindowEnd s
  | .tirPrefetch q => Sys2Proof.Machine.execTirPrefetch q s
  | .tirRelease q => Sys2Proof.Machine.execTirRelease q s
  | .tirGet q => Sys2Proof.Machine.execTirGet q s
  | .frameFillDone cluster frame => Sys2Proof.Machine.execFrameFillDone cluster frame s
  | .pinExpiry cluster => Sys2Proof.Machine.execPinExpiry cluster s
  | .getDeadlineMiss cluster idx => Sys2Proof.Machine.execGetDeadlineMiss cluster idx s
  | .tirGetComplete cluster idx => Sys2Proof.Machine.execTirGetComplete cluster idx s
  | .patrolScrub mem addr flips => Sys2Proof.Machine.execPatrolScrub mem addr flips s
  | .stkClear path stack => Sys2Proof.Machine.execStkClear path stack s
  | .tirClear path cluster => Sys2Proof.Machine.execTirClear path cluster s
  | .linkTrainingDone port => Sys2Proof.Machine.execLinkTrainingDone port s
  | .ident port rec chains => Sys2Proof.Machine.execIdent port rec chains s
  | .keyx port msg => Sys2Proof.Machine.execKeyx port msg s
  | .quarantineRetry port => Sys2Proof.Machine.execQuarantineRetry port s
  | .hopFrameReceive port rx => Sys2Proof.Machine.execHopFrameReceive port rx s
  | .credit port counts => Sys2Proof.Machine.execCredit port counts s
  | .ack port seq => Sys2Proof.Machine.execAck port seq s
  | .nak port seq => Sys2Proof.Machine.execNak port seq s
  | .replayTimeout port => Sys2Proof.Machine.execReplayTimeout port s
  | .laneSerExceeded port lane => Sys2Proof.Machine.execLaneSerExceeded port lane s
  | .linkWidthChanged port => Sys2Proof.Machine.execLinkWidthChanged port s
  | .rekey port => Sys2Proof.Machine.execRekey port s
  | .oldKeyExpiry port => Sys2Proof.Machine.execOldKeyExpiry port s
  | .xferFlitEgress idx => Sys2Proof.Machine.execXferFlitEgress idx s
  | .xferFrame port fr => Sys2Proof.Machine.execXferFrame port fr s
  | .lossOfLight port => Sys2Proof.Machine.execLossOfLight port s
  | .partnerLost port => Sys2Proof.Machine.execPartnerLost port s
  | .tpxClear path port => Sys2Proof.Machine.execTpxClear path port s
  | .manifest m => Sys2Proof.Machine.execManifest m s
  | .barge m => Sys2Proof.Machine.execBarge m s
  | .segment m => Sys2Proof.Machine.execSegment m s
  | .keywrap m => Sys2Proof.Machine.execKeywrap m s
  | .keywrapHoldExpiry src => Sys2Proof.Machine.execKeywrapHoldExpiry src s
  | .keyFetch src => Sys2Proof.Machine.execKeyFetch src s
  | .ready m => Sys2Proof.Machine.execReady m s
  | .readySend train => Sys2Proof.Machine.execReadySend train s
  | .trainRelay port fr => Sys2Proof.Machine.execTrainRelay port fr s
  | .fetch m => Sys2Proof.Machine.execFetch m s
  | .fetchServe idx => Sys2Proof.Machine.execFetchServe idx s
  | .fetchNak m => Sys2Proof.Machine.execFetchNak m s
  | .adapterFetchSend src => Sys2Proof.Machine.execAdapterFetchSend src s
  | .fetchTimeout idx => Sys2Proof.Machine.execFetchTimeout idx s
  | .wstClear path => Sys2Proof.Machine.execWstClear path s
  | .grad port fr => Sys2Proof.Machine.execGrad port fr s
  | .chainComplete port chain => Sys2Proof.Machine.execChainComplete port chain s
  | .chainStall port chain => Sys2Proof.Machine.execChainStall port chain s
  | .verdict port fr => Sys2Proof.Machine.execVerdict port fr s
  | .collCount port fr => Sys2Proof.Machine.execCollCount port fr s
  | .collData port fr => Sys2Proof.Machine.execCollData port fr s
  | .collStall => Sys2Proof.Machine.execCollStall s
  | .jncClear path port => Sys2Proof.Machine.execJncClear path port s
  | .collClear path => Sys2Proof.Machine.execCollClear path s
  | .load p => Sys2Proof.Machine.execLoad p s
  | .place p => Sys2Proof.Machine.execPlace p s
  | .arm p => Sys2Proof.Machine.execArm p s
  | .armBasinZeroed => Sys2Proof.Machine.execArmBasinZeroed s
  | .armChildReply child status => Sys2Proof.Machine.execArmChildReply child status s
  | .armChildTimeout child => Sys2Proof.Machine.execArmChildTimeout child s
  | .armExpiry => Sys2Proof.Machine.execArmExpiry s
  | .start p => Sys2Proof.Machine.execStart p s
  | .quiesce p => Sys2Proof.Machine.execQuiesce p s
  | .quiesceDrained => Sys2Proof.Machine.execQuiesceDrained s
  | .abort p => Sys2Proof.Machine.execAbort p s
  | .status p => Sys2Proof.Machine.execStatus p s
  | .nop p => Sys2Proof.Machine.execNop p s
  | .identify p => Sys2Proof.Machine.execIdentify p s
  | .seqReset p => Sys2Proof.Machine.execSeqReset p s
  | .placeSet p => Sys2Proof.Machine.execPlaceSet p s
  | .quayWrite p => Sys2Proof.Machine.execQuayWrite p s
  | .quayRead p => Sys2Proof.Machine.execQuayRead p s
  | .penQuota p => Sys2Proof.Machine.execPenQuota p s
  | .admission p => Sys2Proof.Machine.execAdmission p s
  | .trainSet p => Sys2Proof.Machine.execTrainSet p s
  | .flipPlan p => Sys2Proof.Machine.execFlipPlan p s
  | .portPlan p => Sys2Proof.Machine.execPortPlan p s
  | .fence p => Sys2Proof.Machine.execFence p s
  | .unfence p => Sys2Proof.Machine.execUnfence p s
  | .peerExpect p => Sys2Proof.Machine.execPeerExpect p s
  | .routeLoad p => Sys2Proof.Machine.execRouteLoad p s
  | .chainLoad p => Sys2Proof.Machine.execChainLoad p s
  | .memberLoad p => Sys2Proof.Machine.execMemberLoad p s
  | .timeSource p => Sys2Proof.Machine.execTimeSource p s
  | .timeServers p => Sys2Proof.Machine.execTimeServers p s
  | .timeRead p => Sys2Proof.Machine.execTimeRead p s
  | .capSet p => Sys2Proof.Machine.execCapSet p s
  | .brake p => Sys2Proof.Machine.execBrake p s
  | .gearSet p => Sys2Proof.Machine.execGearSet p s
  | .fieldState p => Sys2Proof.Machine.execFieldState p s
  | .powerRead p => Sys2Proof.Machine.execPowerRead p s
  | .snapRead p => Sys2Proof.Machine.execSnapRead p s
  | .mapRead p => Sys2Proof.Machine.execMapRead p s
  | .floodTest p => Sys2Proof.Machine.execFloodTest p s
  | .marginSurvey p => Sys2Proof.Machine.execMarginSurvey p s
  | .marginRead p => Sys2Proof.Machine.execMarginRead p s
  | .tallyRead p => Sys2Proof.Machine.execTallyRead p s
  | .fwWrite p => Sys2Proof.Machine.execFwWrite p s
  | .fwCommit p => Sys2Proof.Machine.execFwCommit p s
  | .fwActivate p => Sys2Proof.Machine.execFwActivate p s
  | .rootAdd p => Sys2Proof.Machine.execRootAdd p s
  | .rootRemove p => Sys2Proof.Machine.execRootRemove p s
  | .reset p => Sys2Proof.Machine.execReset p s
  | .collLoad p => Sys2Proof.Machine.execCollLoad p s
  | .replyWrite port => Sys2Proof.Machine.execReplyWrite port s
  | .cmdRingtailWrite path port tail => Sys2Proof.Machine.execCmdRingtailWrite path port tail s
  | .ringEnable path port value => Sys2Proof.Machine.execRingEnable path port value s
  | .cmdClear path port => Sys2Proof.Machine.execCmdClear path port s
  | .mgmtFrame port fr => Sys2Proof.Machine.execMgmtFrame port fr s
  | .mctpMessage msg => Sys2Proof.Machine.execMctpMessage msg s
  | .setEndpointId eid => Sys2Proof.Machine.execSetEndpointId eid s
  | .pldmRequest msg => Sys2Proof.Machine.execPldmRequest msg s
  | .getVersion conn req => Sys2Proof.Machine.execGetVersion conn req s
  | .getCapabilities conn req => Sys2Proof.Machine.execGetCapabilities conn req s
  | .negotiateAlgorithms conn req => Sys2Proof.Machine.execNegotiateAlgorithms conn req s
  | .getDigests conn req => Sys2Proof.Machine.execGetDigests conn req s
  | .getCertificate conn req => Sys2Proof.Machine.execGetCertificate conn req s
  | .challenge conn req => Sys2Proof.Machine.execChallenge conn req s
  | .getMeasurements conn req => Sys2Proof.Machine.execGetMeasurements conn req s
  | .pqsig conn req => Sys2Proof.Machine.execPqsig conn req s
  | .pairLockstepMismatch pair => Sys2Proof.Machine.execPairLockstepMismatch pair s
  | .pairSheepdogExpiry pair => Sys2Proof.Machine.execPairSheepdogExpiry pair s
  | .pairRestartDone pair => Sys2Proof.Machine.execPairRestartDone pair s
  | .boot => Sys2Proof.Machine.execBoot s
  | .fuseBurn => Sys2Proof.Machine.execFuseBurn s
  | .tallyFlush count => Sys2Proof.Machine.execTallyFlush count s
  | .secNonceRead => Sys2Proof.Machine.execSecNonceRead s
  | .inputUndervoltage => Sys2Proof.Machine.execInputUndervoltage s
  | .inputLow => Sys2Proof.Machine.execInputLow s
  | .inputHigh shutdown => Sys2Proof.Machine.execInputHigh shutdown s
  | .inputRestored => Sys2Proof.Machine.execInputRestored s
  | .standbyPowerUp strap => Sys2Proof.Machine.execStandbyPowerUp strap s
  | .inputSample volt curr tin tout => Sys2Proof.Machine.execInputSample volt curr tin tout s
  | .phaseFail field phase => Sys2Proof.Machine.execPhaseFail field phase s
  | .powerRegionLost region => Sys2Proof.Machine.execPowerRegionLost region s
  | .assistFail cluster reg => Sys2Proof.Machine.execAssistFail cluster reg s
  | .powerDroop field => Sys2Proof.Machine.execPowerDroop field s
  | .crackCheck field readings => Sys2Proof.Machine.execCrackCheck field readings s
  | .fieldEntryDone field level => Sys2Proof.Machine.execFieldEntryDone field level s
  | .fieldWakeEvent field source => Sys2Proof.Machine.execFieldWakeEvent field source s
  | .wakeRepeat field => Sys2Proof.Machine.execWakeRepeat field s
  | .fieldWakeStepDone field => Sys2Proof.Machine.execFieldWakeStepDone field s
  | .fieldWakeFail field => Sys2Proof.Machine.execFieldWakeFail field s
  | .gearPrepare => Sys2Proof.Machine.execGearPrepare s
  | .railReady field => Sys2Proof.Machine.execRailReady field s
  | .capLoopSample volt curr => Sys2Proof.Machine.execCapLoopSample volt curr s
  | .capGraceExpiry => Sys2Proof.Machine.execCapGraceExpiry s
  | .brakeNAssert => Sys2Proof.Machine.execBrakeNAssert s
  | .brakeNDeassert => Sys2Proof.Machine.execBrakeNDeassert s
  | .brakeTrim dt => Sys2Proof.Machine.execBrakeTrim dt s
  | .brakeSourceRelease src => Sys2Proof.Machine.execBrakeSourceRelease src s
  | .pwrBrakeApply path apply level => Sys2Proof.Machine.execPwrBrakeApply path apply level s
  | .pwrBrakeLevel path level => Sys2Proof.Machine.execPwrBrakeLevel path level s
  | .pwrCapWrite path value => Sys2Proof.Machine.execPwrCapWrite path value s
  | .pwrClear path => Sys2Proof.Machine.execPwrClear path s
  | .fpwClear path field => Sys2Proof.Machine.execFpwClear path field s
  | .thermalPoll temps => Sys2Proof.Machine.execThermalPoll temps s
  | .thermalFallow field cluster => Sys2Proof.Machine.execThermalFallow field cluster s
  | .thermalCooldown field => Sys2Proof.Machine.execThermalCooldown field s
  | .thermalShutdown field cluster => Sys2Proof.Machine.execThermalShutdown field cluster s
  | .coolantDt => Sys2Proof.Machine.execCoolantDt s
  | .coolantWarm tin => Sys2Proof.Machine.execCoolantWarm tin s
  | .floodStart kind step1 => Sys2Proof.Machine.execFloodStart kind step1 s
  | .floodLevelDone results => Sys2Proof.Machine.execFloodLevelDone results s
  | .floodStackTestDone stack chanFail laneFail0 laneFail1 => Sys2Proof.Machine.execFloodStackTestDone stack chanFail laneFail0 laneFail1 s
  | .floodCommit => Sys2Proof.Machine.execFloodCommit s
  | .surveyPeriodExpiry field => Sys2Proof.Machine.execSurveyPeriodExpiry field s
  | .surveyFieldDone field meas => Sys2Proof.Machine.execSurveyFieldDone field meas s
  | .canaryWatch field slacks => Sys2Proof.Machine.execCanaryWatch field slacks s
  | .errorReport loc lost => Sys2Proof.Machine.execErrorReport loc lost s
  | .jobFaultNotice port notice => Sys2Proof.Machine.execJobFaultNotice port notice s
  | .replaceReady => Sys2Proof.Machine.execReplaceReady s
  | .hltFclear path => Sys2Proof.Machine.execHltFclear path s
  | .resetNAssert strap => Sys2Proof.Machine.execResetNAssert strap s
  | .perstN port => Sys2Proof.Machine.execPerstN port s
  | .cxlHotReset port => Sys2Proof.Machine.execCxlHotReset port s
  | .refclkLoss => Sys2Proof.Machine.execRefclkLoss s
  | .ppsOutPulse dt => Sys2Proof.Machine.execPpsOutPulse dt s
  | .jtagInstruction op => Sys2Proof.Machine.execJtagInstruction op s
  | .laneLossOfLock port lane => Sys2Proof.Machine.execLaneLossOfLock port lane s
  | .allPowerLost => Sys2Proof.Machine.execAllPowerLost s
  | .refclkPresent => Sys2Proof.Machine.execRefclkPresent s
  | .basinZeroed => Sys2Proof.Machine.execBasinZeroed s
  | .creditFrameSend port => Sys2Proof.Machine.execCreditFrameSend port s
  | .ackSend port => Sys2Proof.Machine.execAckSend port s
  | .cxlLinkDown port => Sys2Proof.Machine.execCxlLinkDown port s
  | .floodServiceTestDone passed => Sys2Proof.Machine.execFloodServiceTestDone passed s

end Sys2Proof.Machine
end

