-- ==== Sys2Proof/WellFormed.lean ====
section
/-!
DEFINITION. Sys2Proof/WellFormed.lean: which commands name units, fields and sizes that the part has: sites, engines,
fields, clusters, ports and stacks in range, instruction fields within Table 5-2, packet fields within Table 12-4.
-/

namespace Sys2Proof

/-- Fields within Table 5-2, on a site of R12. -/
def Issue.wf (i : Issue) : Bool := decide (i.site < 2240 ∧ i.d < 32 ∧ i.a < 32 ∧ i.b < 32 ∧ i.c < 32)

/-- Header fields within Table 12-4. -/
def Packet.wf (p : Packet) : Bool :=
  decide (p.path < 4 ∧ p.origin < 2 ^ 40 ∧ p.flags < 2 ^ 16 ∧ p.seq < 2 ^ 32 ∧ p.target < 2 ^ 48 ∧ p.jobTag < 2 ^ 32 ∧
    p.rdaddr < 2 ^ 64 ∧ p.rdlen < 2 ^ 32 ∧ p.cookie < 2 ^ 32)

/-- Fields within Table 12-12 FENCE. -/
def FenceUnit.wf (u : FenceUnit) : Bool := decide (u.field < 256 ∧ u.index < 2 ^ 16)

/-- Header fields within Table 9-3. -/
def Frame.wf (f : Frame) : Bool := decide (f.vl < 4 ∧ f.payload.length ≤ 232)

/-- Corners within R13, in order. -/
def Rect.wf (r : Rect) : Bool := decide (r.x0 ≤ r.x1 ∧ r.x1 < 60 ∧ r.y0 ≤ r.y1 ∧ r.y1 < 48)

/-- A command the part can be given. -/
def Instr.wf : Instr → Bool
  | .tickBoundary _ => true
  | .scanTimeBound => true
  | .registerWrite path off _ lanes => decide (path < 8) && decide (off < 0x10000000 ∧ off % 8 = 0) && decide (lanes < 256)
  | .referenceSwitch field => decide (field < 112)
  | .tickSchedule p => p.wf
  | .tickRateChange p => p.wf
  | .heartbeat port _ => decide (port < 176)
  | .tickWaveSend => true
  | .tickWave field => decide (field < 112)
  | .tickWaveReroot parent => decide (parent < 112)
  | .tickWaveLost field => decide (field < 112)
  | .timingFrame port _ _ _ => decide (port < 176)
  | .upstreamLost => true
  | .timeLost _ => true
  | .ppsseed x => decide (x.path < 8)
  | .ppsEdge _ => true
  | .lckWallRead _ => true
  | .ntpPacket _ _ => true
  | .matMode i => i.wf
  | .matLoad i => i.wf
  | .matStream i => i.wf
  | .matWait i => i.wf
  | .shadowLoadStart site e => decide (site < 2240) && decide (e < 2)
  | .passIssue site e _ => decide (site < 2240) && decide (e < 2)
  | .passComplete site e _ => decide (site < 2240) && decide (e < 2)
  | .matClear path site e => decide (path < 8) && decide (site < 2240) && decide (e < 2)
  | .seqNop i => i.wf
  | .seqLdi i => i.wf
  | .seqLdih i => i.wf
  | .seqAdd i => i.wf
  | .seqAddi i => i.wf
  | .seqSub i => i.wf
  | .seqMul i => i.wf
  | .seqAnd i => i.wf
  | .seqOr i => i.wf
  | .seqXor i => i.wf
  | .seqShl i => i.wf
  | .seqShr i => i.wf
  | .seqSra i => i.wf
  | .seqLd i => i.wf
  | .seqSt i => i.wf
  | .seqBeq i => i.wf
  | .seqBne i => i.wf
  | .seqBlt i => i.wf
  | .seqBge i => i.wf
  | .seqBltu i => i.wf
  | .seqBgeu i => i.wf
  | .seqJal i => i.wf
  | .seqJr i => i.wf
  | .seqRdsys i => i.wf
  | .movCopy i => i.wf
  | .movFill i => i.wf
  | .movWait i => i.wf
  | .copyComplete site _ => decide (site < 2240)
  | .cnlSend i => i.wf
  | .cnlMcast i => i.wf
  | .cnlConf i => i.wf
  | .cnlPost i => i.wf
  | .cnlWait i => i.wf
  | .sendComplete site _ => decide (site < 2240)
  | .synMark i => i.wf
  | .synSemwait i => i.wf
  | .synSempost i => i.wf
  | .synSemread i => i.wf
  | .synAttime i => i.wf
  | .vecAdd i => i.wf
  | .vecSub i => i.wf
  | .vecMul i => i.wf
  | .vecFma i => i.wf
  | .vecMax i => i.wf
  | .vecMin i => i.wf
  | .vecAbs i => i.wf
  | .vecNeg i => i.wf
  | .vecSel i => i.wf
  | .vecCmpgt i => i.wf
  | .vecCmpge i => i.wf
  | .vecCmpeq i => i.wf
  | .vecBcast i => i.wf
  | .vecExp i => i.wf
  | .vecLog i => i.wf
  | .vecRcp i => i.wf
  | .vecRsqrt i => i.wf
  | .vecTanh i => i.wf
  | .vecErf i => i.wf
  | .vecGelu i => i.wf
  | .vecSigmoid i => i.wf
  | .vecGelut i => i.wf
  | .vecRsum i => i.wf
  | .vecRmax i => i.wf
  | .vecRmin i => i.wf
  | .vecRargmax i => i.wf
  | .vecRargmin i => i.wf
  | .vecTopk i => i.wf
  | .vecLd i => i.wf
  | .vecSt i => i.wf
  | .vecLdacc i => i.wf
  | .vecStacc i => i.wf
  | .vecCvt i => i.wf
  | .vecQmx i => i.wf
  | .vecRand i => i.wf
  | .seqClear path site => decide (path < 8) && decide (site < 2240)
  | .spareRemap cluster => decide (cluster < 448)
  | .gmeLaneTake cluster => decide (cluster < 448)
  | .gmeSetupDone cluster _ => decide (cluster < 448)
  | .gmeEmissionDone cluster _ => decide (cluster < 448)
  | .gmeClear path cluster => decide (path < 8) && decide (cluster < 448)
  | .canalFlitHop _ _ => true
  | .canalFlitDeliver _ => true
  | .confMerge _ => true
  | .confBufferTimeout router _ => decide (router < 4480)
  | .confLanding _ => true
  | .canalLanding site _ => decide (site < 2240)
  | .fenceMessage msg news => decide (msg.source ≤ 112 ∧ msg.seq < 2 ^ 16) && news.unit.wf
  | .rect msg news => decide (msg.source ≤ 112 ∧ msg.seq < 2 ^ 16 ∧ news.plane < 2) && news.rect.wf
  | .jobFault msg _ => decide (msg.source ≤ 112 ∧ msg.seq < 2 ^ 16)
  | .arbSheepdogBite _ _ => true
  | .arbSwap path _ => decide (path < 8)
  | .rtrClear path router => decide (path < 8) && decide (router < 4480)
  | .rimWrite _ => true
  | .rimAcc _ => true
  | .rimRead _ => true
  | .rimAck stack _ => decide (stack < 32)
  | .cxlMemWrite port addr data enable => decide (port < 2) && decide (addr < 2 ^ 36 ∧ addr % 64 = 0) && decide (data.length = 64) && decide (enable.length = 64)
  | .cxlMemRead port addr => decide (port < 2) && decide (addr < 2 ^ 36 ∧ addr % 64 = 0)
  | .chamberWrite port off _ => decide (port < 2) && decide (off < 2 ^ 22)
  | .heatWindowEnd => true
  | .tirPrefetch i => i.wf
  | .tirRelease i => i.wf
  | .tirGet i => i.wf
  | .frameFillDone cluster _ => decide (cluster < 448)
  | .pinExpiry cluster => decide (cluster < 448)
  | .getDeadlineMiss cluster _ => decide (cluster < 448)
  | .tirGetComplete cluster _ => decide (cluster < 448)
  | .patrolScrub _ _ _ => true
  | .stkClear path stack => decide (path < 8) && decide (stack < 32)
  | .tirClear path cluster => decide (path < 8) && decide (cluster < 448)
  | .linkTrainingDone port => decide (port < 176)
  | .ident port _ _ => decide (port < 176)
  | .keyx port _ => decide (port < 176)
  | .quarantineRetry port => decide (port < 176)
  | .hopFrameReceive port rx => decide (port < 176 ∧ rx.bytes.length = 256)
  | .credit port _ => decide (port < 176)
  | .ack port _ => decide (port < 176)
  | .nak port _ => decide (port < 176)
  | .replayTimeout port => decide (port < 176)
  | .laneSerExceeded port _ => decide (port < 176)
  | .linkWidthChanged port => decide (port < 176)
  | .rekey port => decide (port < 176)
  | .oldKeyExpiry port => decide (port < 176)
  | .xferFlitEgress _ => true
  | .xferFrame port fr => decide (port < 176) && fr.wf
  | .lossOfLight port => decide (port < 176)
  | .partnerLost port => decide (port < 176)
  | .tpxClear path port => decide (path < 8) && decide (port < 176)
  | .manifest _ => true
  | .barge _ => true
  | .segment _ => true
  | .keywrap _ => true
  | .keywrapHoldExpiry _ => true
  | .keyFetch _ => true
  | .ready _ => true
  | .readySend _ => true
  | .trainRelay port fr => decide (port < 176) && fr.wf
  | .fetch _ => true
  | .fetchServe _ => true
  | .fetchNak _ => true
  | .adapterFetchSend _ => true
  | .fetchTimeout _ => true
  | .wstClear path => decide (path < 8)
  | .grad port _ => decide (port < 176)
  | .chainComplete port _ => decide (port < 176)
  | .chainStall port _ => decide (port < 176)
  | .verdict port _ => decide (port < 176)
  | .collCount port _ => decide (port < 176)
  | .collData port _ => decide (port < 176)
  | .collStall => true
  | .jncClear path port => decide (path < 8) && decide (port < 176)
  | .collClear path => decide (path < 8)
  | .load p => p.wf
  | .place p => p.wf
  | .arm p => p.wf
  | .armBasinZeroed => true
  | .armChildReply _ _ => true
  | .armChildTimeout _ => true
  | .armExpiry => true
  | .start p => p.wf
  | .quiesce p => p.wf
  | .quiesceDrained => true
  | .abort p => p.wf
  | .status p => p.wf
  | .nop p => p.wf
  | .identify p => p.wf
  | .seqReset p => p.wf
  | .placeSet p => p.wf
  | .quayWrite p => p.wf
  | .quayRead p => p.wf
  | .penQuota p => p.wf
  | .admission p => p.wf
  | .trainSet p => p.wf
  | .flipPlan p => p.wf
  | .portPlan p => p.wf
  | .fence p => p.wf
  | .unfence p => p.wf
  | .peerExpect p => p.wf
  | .routeLoad p => p.wf
  | .chainLoad p => p.wf
  | .memberLoad p => p.wf
  | .timeSource p => p.wf
  | .timeServers p => p.wf
  | .timeRead p => p.wf
  | .capSet p => p.wf
  | .brake p => p.wf
  | .gearSet p => p.wf
  | .fieldState p => p.wf
  | .powerRead p => p.wf
  | .snapRead p => p.wf
  | .mapRead p => p.wf
  | .floodTest p => p.wf
  | .marginSurvey p => p.wf
  | .marginRead p => p.wf
  | .tallyRead p => p.wf
  | .fwWrite p => p.wf
  | .fwCommit p => p.wf
  | .fwActivate p => p.wf
  | .rootAdd p => p.wf
  | .rootRemove p => p.wf
  | .reset p => p.wf
  | .collLoad p => p.wf
  | .replyWrite port => decide (port < 2)
  | .cmdRingtailWrite path port _ => decide (path < 8) && decide (port < 2)
  | .ringEnable path port _ => decide (path < 8) && decide (port < 2)
  | .cmdClear path port => decide (path < 8) && decide (port < 2)
  | .mgmtFrame port fr => decide (port < 176) && fr.wf
  | .mctpMessage _ => true
  | .setEndpointId _ => true
  | .pldmRequest _ => true
  | .getVersion _ _ => true
  | .getCapabilities _ _ => true
  | .negotiateAlgorithms _ _ => true
  | .getDigests _ _ => true
  | .getCertificate _ _ => true
  | .challenge _ _ => true
  | .getMeasurements _ _ => true
  | .pqsig _ _ => true
  | .pairLockstepMismatch pair => decide (pair < 4)
  | .pairSheepdogExpiry pair => decide (pair < 4)
  | .pairRestartDone pair => decide (pair < 4)
  | .boot => true
  | .fuseBurn => true
  | .tallyFlush _ => true
  | .secNonceRead => true
  | .inputUndervoltage => true
  | .inputLow => true
  | .inputHigh _ => true
  | .inputRestored => true
  | .standbyPowerUp _ => true
  | .inputSample volt curr _ _ => decide (volt < 2 ^ 16 ∧ curr < 2 ^ 16)
  | .phaseFail field phase => decide (field < 112) && decide (phase < 24)
  | .powerRegionLost region => decide (region < 16)
  | .assistFail cluster reg => decide (cluster < 448) && decide (reg < 8)
  | .powerDroop field => decide (field < 112)
  | .crackCheck field _ => decide (field < 112)
  | .fieldEntryDone field _ => decide (field < 112)
  | .fieldWakeEvent field source => decide (field < 112 ∧ 1 ≤ source ∧ source ≤ 4)
  | .wakeRepeat field => decide (field < 112)
  | .fieldWakeStepDone field => decide (field < 112)
  | .fieldWakeFail field => decide (field < 112)
  | .gearPrepare => true
  | .railReady field => decide (field < 112)
  | .capLoopSample volt curr => decide (volt < 2 ^ 16 ∧ curr < 2 ^ 16)
  | .capGraceExpiry => true
  | .brakeNAssert => true
  | .brakeNDeassert => true
  | .brakeTrim _ => true
  | .brakeSourceRelease src => decide (2 ≤ src ∧ src ≤ 4)
  | .pwrBrakeApply path _ _ => decide (path < 8)
  | .pwrBrakeLevel path _ => decide (path < 8)
  | .pwrCapWrite path _ => decide (path < 8)
  | .pwrClear path => decide (path < 8)
  | .fpwClear path field => decide (path < 8) && decide (field < 112)
  | .thermalPoll _ => true
  | .thermalFallow field cluster => decide (field < 112) && decide (cluster < 4)
  | .thermalCooldown field => decide (field < 112)
  | .thermalShutdown field cluster => decide (field < 112) && decide (cluster < 4)
  | .coolantDt => true
  | .coolantWarm _ => true
  | .floodStart _ _ => true
  | .floodLevelDone _ => true
  | .floodStackTestDone stack _ _ _ => decide (stack < 32)
  | .floodCommit => true
  | .surveyPeriodExpiry field => decide (field < 112)
  | .surveyFieldDone field _ => decide (field < 112)
  | .canaryWatch field _ => decide (field < 112)
  | .errorReport _ _ => true
  | .jobFaultNotice port _ => decide (port < 176)
  | .replaceReady => true
  | .hltFclear path => decide (path < 8)
  | .resetNAssert _ => true
  | .perstN port => decide (port < 2)
  | .cxlHotReset port => decide (port < 2)
  | .refclkLoss => true
  | .ppsOutPulse _ => true
  | .jtagInstruction _ => true
  | .laneLossOfLock port _ => decide (port < 176)
  | .allPowerLost => true
  | .refclkPresent => true
  | .basinZeroed => true
  | .creditFrameSend port => decide (port < 176)
  | .ackSend port => decide (port < 176)
  | .cxlLinkDown port => decide (port < 2)
  | .floodServiceTestDone _ => true

end Sys2Proof
end

