-- ==== Sys2Proof/Safety.lean ====
section
/-!
DEFINITION. Sys2Proof/Safety.lean: what counts as a well-formed module and a safe run, in the terms the statements use.
-/

namespace Sys2Proof.Machine

/-- Register file and memories in canonical form. -/
def Wafer.memOk (w : Wafer) : Bool :=
  mapWf fieldReset w.regs && Memory.wf w.coreMem && Memory.wf w.cluMem && Memory.wf w.accMem && Memory.wf w.stkMem &&
  Memory.wf w.chamber && Memory.wf w.fwMem

/-- A step is safe when it neither stops nor refuses. -/
def State.stepsOn (s : State) : Bool :=
  match step s with
  | .next _ => true
  | .fault _ => false
  | .refused _ => false

/-- Command `c` completes on `s` in a next state that keeps the queue and of which `P` holds. -/
def Runs (c : Instr) (s : State) (P : Wafer → Prop) : Prop :=
  ∃ t, exec c s = .next t ∧ t.pending = s.pending ∧ P t.w

/-- The memories of two modules are the same: core, cluster, accumulator, stack, chamber and firmware. -/
def Wafer.sameMemory (w t : Wafer) : Prop :=
  t.coreMem = w.coreMem ∧ t.cluMem = w.cluMem ∧ t.accMem = w.accMem ∧ t.stkMem = w.stkMem ∧ t.chamber = w.chamber ∧ t.fwMem = w.fwMem

/-- Every memory but core memory is the same. -/
def Wafer.sameButCoreMem (w t : Wafer) : Prop :=
  t.cluMem = w.cluMem ∧ t.accMem = w.accMem ∧ t.stkMem = w.stkMem ∧ t.chamber = w.chamber ∧ t.fwMem = w.fwMem

/-- The parts of the module that no core instruction of the SEQ and VEC classes reaches: engines, gather-merge engines, tiers,
canals, stacks, reservoir, ports, ingest, reduction, time, fences, jobs, power and health. -/
def Wafer.sameUnits (w t : Wafer) : Prop :=
  t.engines = w.engines ∧ t.gmes = w.gmes ∧ t.tiers = w.tiers ∧ t.canal = w.canal ∧ t.stackRecs = w.stackRecs ∧
  t.reservoir = w.reservoir ∧ t.ports = w.ports ∧ t.ingest = w.ingest ∧ t.reduce = w.reduce ∧ t.time = w.time ∧
  t.fences = w.fences ∧ t.job = w.job ∧ t.power = w.power ∧ t.health = w.health ∧ t.coresLost = w.coresLost

/-- Every core but one is the same. -/
def Wafer.sameOtherCores (w t : Wafer) (site : Nat) : Prop := ∀ j, j ≠ site → t.core j = w.core j

/-- Registers at offsets outside `p` read as before. -/
def Wafer.sameRegsBut (w t : Wafer) (p : Nat → Prop) : Prop :=
  ∀ (b : Nat) (f : Fld), f.lo < 64 → ¬ p (b + f.off) → t.rd b f = w.rd b f

/-- SHP_EVQ (which every saturating counter may write while Shepherd is down) and the SEQ block of a site. -/
def seqRegs (site off : Nat) : Prop := off = 0x18 ∨ (siteBase site ≤ off ∧ off < siteBase site + 0x48)

/-- The site exists, its core's stage is issuing (SEQ_STAT.STATE 1), and nothing stops its fetch at the pc. -/
def State.issuing (s : State) (i : Issue) : Prop :=
  i.site < 2240 ∧ s.w.rd (siteBase i.site) Reg.seqStatState = 1 ∧ s.w.fetchFault i.site (s.w.pcOf i.site) = none

/-- The instruction has issued: the pc, the held bit with its cause, and the state of the stage. -/
def Wafer.issuedAt (t : Wafer) (i : Issue) (pc : Nat) : Prop :=
  t.pcOf i.site = pc % 2 ^ 24 ∧ t.rd (siteBase i.site) Reg.seqStatHeld = 0 ∧ t.rd (siteBase i.site) Reg.seqStatCause = 0 ∧
  t.rd (siteBase i.site) Reg.seqStatState = 1

/-- The next instruction in memory. -/
def Wafer.pcNext (w : Wafer) (i : Issue) : Nat := w.pcOf i.site + 8

/-- Scalar register D takes `v` (register 0 stays 0) and the rest of the core is unchanged. -/
def Core.tookD (c d : Core) (r : Nat) (v : Word) : Prop :=
  (∀ k, d.sget k = if k = r ∧ k ≠ 0 then v else c.sget k) ∧ { d with s := c.s } = c

/-- Semaphore k takes `v` and the rest of the core is unchanged. -/
def Core.tookSem (c d : Core) (k v : Nat) : Prop :=
  (∀ j, d.semGet j = if j = k then v else c.semGet j) ∧ { d with sem := c.sem } = c

/-- The effect of an instruction that only writes sD: the register, the pc, and the frame. -/
def Wafer.wroteD (w t : Wafer) (i : Issue) (v : Word) : Prop :=
  t.issuedAt i (w.pcNext i) ∧ (w.core i.site).tookD (t.core i.site) i.d v ∧ w.sameOtherCores t i.site ∧ w.sameMemory t ∧
  w.sameUnits t ∧ w.sameRegsBut t (seqRegs i.site)

/-- The effect of an instruction that changes nothing but the pc. -/
def Wafer.wentTo (w t : Wafer) (i : Issue) (pc : Nat) : Prop :=
  t.issuedAt i pc ∧ t.core i.site = w.core i.site ∧ w.sameOtherCores t i.site ∧ w.sameMemory t ∧
  w.sameUnits t ∧ w.sameRegsBut t (seqRegs i.site)

/-! ### Vector instructions -/

/-- SHP_EVQ and the SEQ, VEC, MOV and MAT counter blocks of a site. -/
def vecRegs (site off : Nat) : Prop := off = 0x18 ∨ (siteBase site ≤ off ∧ off < siteBase site + 0x8000)

/-- No enabled lane of these registers is poisoned. -/
def Wafer.cleanLanes (w : Wafer) (i : Issue) (rs : List Nat) : Prop :=
  ∀ r ∈ rs, ∀ l, l < 128 → vLanes w i l = true → (w.core i.site).vbadAt r l = false

/-- Lane l of register r of the issuing core. -/
def Wafer.lane (w : Wafer) (i : Issue) (r l : Nat) : Nat := ((w.core i.site).vget r).getD l 0

/-- The parts of a core that a vector instruction leaves: scalar registers, semaphores, outstanding work, program and landings. -/
def Core.sameButVec (c d : Core) : Prop :=
  d.s = c.s ∧ d.sem = c.sem ∧ d.copies = c.copies ∧ d.sends = c.sends ∧ d.serial = c.serial ∧ d.logical = c.logical ∧
  d.codeBase = c.codeBase ∧ d.codeSize = c.codeSize ∧ d.entries = c.entries ∧ d.marked = c.marked ∧ d.landing = c.landing ∧
  d.waiting = c.waiting

/-- A vector instruction has issued: the pc, the other cores and units, the registers outside the site's window, and what is not the
vector unit's in the core. -/
def Wafer.vecIssued (w t : Wafer) (i : Issue) : Prop :=
  t.issuedAt i (w.pcNext i) ∧ w.sameOtherCores t i.site ∧ w.sameUnits t ∧ w.sameRegsBut t (vecRegs i.site) ∧
  (w.core i.site).sameButVec (t.core i.site)

/-- Register r takes `f l` in each enabled lane l, without poison; masked lanes and every other vector register keep theirs. -/
def Wafer.tookLanes (w t : Wafer) (i : Issue) (r : Nat) (f : Nat → Nat) : Prop :=
  (∀ l, l < 128 → t.lane i r l = if vLanes w i l then f l % 2 ^ 32 else w.lane i r l) ∧
  (∀ l, l < 128 → vLanes w i l = true → (t.core i.site).vbadAt r l = false) ∧
  (∀ k l, k ≠ r → l < 128 → t.lane i k l = w.lane i k l) ∧
  (t.core i.site).m = (w.core i.site).m

/-! ### Copies -/

/-- The memory a copy space names (Table 5-5): 0 core, 1 cluster, 2 the accumulator store. -/
def Wafer.spaceMem (w : Wafer) (space : Nat) : Mem := if space = 0 then w.coreMem else if space = 1 then w.cluMem else w.accMem

/-- The key of row r of a block that starts at `a` with a stride in a space. -/
def rowKey (site space a stride r : Nat) : Nat :=
  if space = 0 then coreAddr site (a + r * stride)
  else if space = 1 then cluAddr (siteCluster site) (a + r * stride)
  else accRowAddr site (a + r * (stride / 512))

def Copy.dstKey (x : Copy) (site r : Nat) : Nat := rowKey site x.dspace x.dst x.dstride r
def Copy.srcKey (x : Copy) (site r : Nat) : Nat := rowKey site x.sspace x.src x.sstride r

/-- No destination row meets another destination row or, within one memory, a source row. -/
def Copy.apart (x : Copy) (site : Nat) : Prop :=
  (∀ r q, r < x.rows → q < x.rows → r ≠ q → x.dstKey site r + x.len ≤ x.dstKey site q ∨ x.dstKey site q + x.len ≤ x.dstKey site r) ∧
  (x.fill = none → x.sspace = x.dspace → ∀ r q, r < x.rows → q < x.rows →
    x.dstKey site r + x.len ≤ x.srcKey site q ∨ x.srcKey site q + x.len ≤ x.dstKey site r)

/-! ### Frames of the module's other commands -/

/-- The module t with the registers, Shepherd's and the command plane's records, and the output of `w`: what counters, statuses and
the tally may touch. -/
def Wafer.unnoted (w t : Wafer) : Wafer := { t with regs := w.regs, shp := w.shp, cmd := w.cmd, out := w.out }

/-- Only counters, statuses and the tally differ. -/
def Wafer.onlyNotes (w t : Wafer) : Prop := w.unnoted t = w

/-- A 48-bit counter has gone up by n, unless it is about to saturate (R377). -/
def Wafer.countedBy (w t : Wafer) (base : Nat) (f : Fld) (n : Nat) : Prop :=
  w.rd base f + n < 2 ^ 48 - 1 → t.rd base f = w.rd base f + n

/-- Memory m' holds l from address a on, and what m holds elsewhere. -/
def Mem.holdsAt (m m' : Mem) (a : Nat) (l : List Byte) : Prop :=
  (∀ n, n < l.length → m'.get (a + n) = l.getD n 0#8) ∧ ∀ x, (x < a ∨ a + l.length ≤ x) → m'.get x = m.get x

/-- The key of byte a of a core's memory (DSPACE 0) or its cluster's. -/
def landKey (site dspace a : Nat) : Nat := if dspace = 0 then coreAddr site a else cluAddr (siteCluster site) a

/-! ### Command packets -/

/-- The command rows of Tables 12-9 and 12-12 that a packet carries. -/
def commandRows : List ((Packet → Instr) × CmdSpec) :=
  [(.nop, nopSpec), (.identify, identifySpec), (.seqReset, seqResetSpec), (.placeSet, placeSetSpec), (.quayWrite, quayWriteSpec),
   (.quayRead, quayReadSpec), (.load, loadSpec), (.place, placeSpec), (.arm, armSpec), (.start, startSpec), (.quiesce, quiesceSpec),
   (.abort, abortSpec), (.status, statusSpec), (.penQuota, penQuotaSpec), (.admission, admissionSpec), (.trainSet, trainSetSpec),
   (.flipPlan, flipPlanSpec), (.portPlan, portPlanSpec), (.fence, fenceSpec), (.unfence, unfenceSpec), (.peerExpect, peerExpectSpec),
   (.routeLoad, routeLoadSpec), (.chainLoad, chainLoadSpec), (.memberLoad, memberLoadSpec), (.collLoad, collLoadSpec)] ++
  [(.tickSchedule, tickScheduleSpec), (.tickRateChange, tickRateChangeSpec), (.timeSource, timeSourceSpec),
   (.timeServers, timeServersSpec), (.timeRead, timeReadSpec), (.capSet, capSetSpec), (.brake, brakeSpec), (.gearSet, gearSetSpec),
   (.fieldState, fieldStateSpec), (.powerRead, powerReadSpec), (.snapRead, snapReadSpec), (.mapRead, mapReadSpec),
   (.floodTest, floodTestSpec), (.marginSurvey, marginSurveySpec), (.marginRead, marginReadSpec), (.tallyRead, tallyReadSpec),
   (.fwWrite, fwWriteSpec), (.fwCommit, fwCommitSpec), (.fwActivate, fwActivateSpec), (.rootAdd, rootAddSpec),
   (.rootRemove, rootRemoveSpec), (.reset, resetSpec)]

/-- A packet taken: NEXT of its source has moved past it, and it is counted. -/
def Wafer.taken (w : Wafer) (p : Packet) : Wafer := (w.setNext p (p.seq + 1)).countPort p Reg.cmdTaken

/-- The interpreter gets to packets of the path: it serves the path, fewer than 4,096 packets are in flight, and no reply is held
behind the port's ring. -/
def Wafer.reaches (w : Wafer) (p : Packet) : Bool :=
  decide (p.path < 4) && w.interprets p.path && decide (w.inflightTotal < 4096) && (decide (2 ≤ p.path) || (w.cmdPort p.path).held.isEmpty)

/-- The packet's sequence number is the one expected, or it is a SEQ_RESET. -/
def Wafer.inTurn (w : Wafer) (sp : CmdSpec) (p : Packet) : Bool := sp.opcode == 2 || seqClass (w.nextSeq p) p.seq == .take

/-- The packet is taken and passes every check of its acceptance. -/
def Wafer.passes (w : Wafer) (sp : CmdSpec) (p : Packet) : Bool :=
  w.reaches p && w.inTurn sp p && ((w.taken p).headerStatus sp p).1 == 0

/-- The newest reply is this one to p: the last produced at an enabled ring, with its data cut to RDLEN; the last message on MCTP, with
up to 4,032 bytes; or, while pair 0 is not served, the last message that waits for it (R306). -/
def Wafer.replied (t : Wafer) (p : Packet) (opcode status kind detail : Nat) (data : List Byte) : Prop :=
  let tells := fun (e : Reply) => e.opcode = opcode ∧ e.status = status ∧ e.seq = p.seq ∧ e.kind = kind ∧ e.cookie = p.cookie ∧
    e.detail = detail
  (p.path < 2 → t.rd (cmdBase p.path) Reg.cmdRingcfgEn = 1 → ∃ x, (t.cmdPort p.path).outgoing.getLast? = some x ∧ tells x.entry ∧
    x.addr = p.rdaddr ∧ x.data = (if p.flags % 2 = 1 then data else []).take p.rdlen) ∧
  (p.path = 3 → t.dutyUp 0 = true → ∃ e, t.out.getLast? = some (.message p.origin e (data.take 4032)) ∧ tells e) ∧
  (2 ≤ p.path → t.dutyUp 0 = false → ∃ x, t.cmd.msgs.getLast? = some (p.path, p.origin, x) ∧ tells x.entry ∧ x.data = data.take 4032)

/-- Registers that taking and answering a packet may write: those of SHP and of the command ports, the tally's in SEC, and, where the
reply leaves on the management lane, those of the ports and their arbiters. -/
def replyRegs (p : Packet) (off : Nat) : Prop :=
  off < 0x200000 ∨ (secBase ≤ off ∧ off < secBase + 0x100) ∨ (p.path = 2 ∧ 0x1000000 ≤ off ∧ off < 0x2000000)

/-- No register beside those of an answer. -/
def noReg (_off : Nat) : Prop := False

/-- Beside what taking, tallying and answering a packet touch (its source's NEXT, its port's entries, events and counters, the tally,
packets in flight, what was sent), nothing but registers at offsets in `q` differs. -/
def Wafer.onlyAnswers (w t : Wafer) (p : Packet) (q : Nat → Prop) : Prop :=
  let shp : ShpSt := { t.shp with
    evq := w.shp.evq, tallyHash := w.shp.tallyHash, tallyBuf := w.shp.tallyBuf, tallyLost := w.shp.tallyLost
    tallyLostTick := w.shp.tallyLostTick, gapDue := w.shp.gapDue, mlMsgid := w.shp.mlMsgid }
  let cmd : CmdSt := { t.cmd with
    portA := if p.path = 0 then w.cmd.portA else t.cmd.portA, portB := if p.path = 1 then w.cmd.portB else t.cmd.portB
    next := w.cmd.next, posts := w.cmd.posts, inflight := w.cmd.inflight, msgs := w.cmd.msgs }
  { t with regs := w.regs, shp := shp, cmd := cmd, out := w.out, ports := if p.path = 2 then w.ports else t.ports } = w ∧
  w.sameRegsBut t (fun off => replyRegs p off ∨ q off)

/-- A command has been answered with its final reply: NEXT has moved past it, and nothing has joined or left the packets in flight. -/
def Wafer.finished (w t : Wafer) (sp : CmdSpec) (p : Packet) (status detail : Nat) (data : List Byte) : Prop :=
  t.nextSeq p = (p.seq + 1) % 2 ^ 32 ∧ t.cmd.inflight = w.cmd.inflight ∧ t.replied p sp.opcode status 0 detail data

/-- A command is at work: it stands last among the packets in flight, its work begun. -/
def Wafer.working (w t : Wafer) (sp : CmdSpec) (p : Packet) : Prop :=
  t.nextSeq p = (p.seq + 1) % 2 ^ 32 ∧ ∃ fl, t.cmd.inflight = w.cmd.inflight ++ [fl] ∧ fl.opcode = sp.opcode ∧ fl.p = p ∧ fl.working = true

/-- A packet of a command that is not marked "now" has been accepted (R291): NEXT has moved past it, it is answered ACCEPTED, and it
stands last among the packets in flight with its boundary, the next one where TARGET is 0. Nothing else has changed. -/
def Wafer.joined (w t : Wafer) (sp : CmdSpec) (p : Packet) : Prop :=
  t.nextSeq p = (p.seq + 1) % 2 ^ 32 ∧ t.replied p sp.opcode 1 1 0 [] ∧ w.onlyAnswers t p noReg ∧ t.cmd.inflight = w.cmd.inflight ++
    [⟨sp.opcode, p, w.tick, if p.target = 0 then (w.tick + 1) % 2 ^ 48 else p.target, false, w.fenceSerial⟩]

/-- A packet in flight of the row meets every check that its boundary makes again (R291): its target is not fenced, its state checks
hold, and it changes something. -/
def Wafer.due (v : Wafer) (sp : CmdSpec) (fl : InFlight) : Bool :=
  fl.opcode == sp.opcode && !sp.fenced v fl.p && (v.stateStatus sp fl.p).1 == 0 && !sp.idle v fl.p

/-- A command that took effect at its boundary has been answered with its final reply, and has left the packets in flight. -/
def Wafer.answered (v t : Wafer) (fl : InFlight) (status detail : Nat) : Prop :=
  t.cmd.inflight = v.cmd.inflight ∧ t.replied fl.p fl.opcode status 0 detail []

/-- A command that took effect at its boundary is at work: it stands last among the packets in flight. -/
def Wafer.atWork (v t : Wafer) (fl : InFlight) : Prop := t.cmd.inflight = v.cmd.inflight ++ [{ fl with working := true }]

/-- A command that is not marked "now" completes in two steps (R290, R291). Its packet, when it passes the checks of its acceptance, is
answered ACCEPTED and joins the packets in flight. At its boundary, from a module of which `pre` holds and where it is due, its effect
is `post`. -/
def TakesEffect (c : Packet → Instr) (sp : CmdSpec) (pre : Wafer → Packet → Prop) (post : Wafer → InFlight → Wafer → Prop) : Prop :=
  (∀ (p : Packet) (s : State), s.w.passes sp p = true → Runs (c p) s (fun t => s.w.joined t sp p)) ∧
  (∀ (v : Wafer) (fl : InFlight), v.due sp fl = true → pre v fl.p → post v fl (v.takeEffect sp fl))

/-- The first packet in flight that `sel` names has left with this status; with none, the packets in flight are as they were. -/
def Wafer.endedOne (w t : Wafer) (sel : InFlight → Bool) (status detail : Nat) : Prop :=
  match indexOf? sel w.cmd.inflight with
  | none => t.cmd.inflight = w.cmd.inflight
  | some i =>
    let fl := w.cmd.inflight.getD i default
    t.cmd.inflight = dropAt w.cmd.inflight i ∧ t.replied fl.p fl.opcode status 0 detail []

end Sys2Proof.Machine
end

