-- ==== Sys2Proof/Certificates/Slice0/Obligations.lean ====
section
/-!
DEFINITION. Sys2Proof/Certificates/Slice0/Obligations.lean: the statements, each a proposition about exec, step or the reset state.
-/

open Sys2Proof Sys2Proof.Machine

/-! ## The step and reset -/

/-- One step takes the command at the front of the queue.
For every command c and every state s with c at the front of its queue, a step is exec of c on s with the queue's rest. -/
def Obligations.StepRunsTheFrontCommand : Prop :=
  ∀ (c : Instr) (rest : List Instr) (s : State), s.pending = c :: rest → step s = exec c { s with pending := rest }

/-- No command touches the queue of waiting commands.
Whatever the command, when exec answers a next state its queue is the queue before.
On an empty queue the block idles. With no command waiting a step answers the state as it is (the model's choice, log entry 1). -/
def Obligations.CommandsKeepTheQueue : Prop :=
  ((
  ∀ (c : Instr) (s t : State), exec c s = .next t → t.pending = s.pending) : Prop) ∧
  ((
  ∀ s : State, s.pending = [] → step s = .next s) : Prop)

/-- Reset leaves the register values that the tables give.
P is 125,000 counts and epoch and base tick are 0 (R32); the cap is 44,000 W with brake 50 % and grace 100 ms (Table 14-9); every
field is FALLOW (Table 14-10); TIR_SPLIT.SCRATCH reads 16, a stack's capacity 0xC000 and a matrix engine's STATE 0; the job state is IDLE. -/
def Obligations.ResetLeavesTheStatedValues : Prop :=
  let w := State.reset.w
  w.period = 125000 ∧ w.rd lckBase Reg.lckEpochEpoch = 0 ∧ w.rd lckBase Reg.lckBasetickBase = 0 ∧
  w.rd pwrBase Reg.pwrCapCap = 44000 ∧ w.rd pwrBase Reg.pwrCapBrkpct = 50 ∧ w.rd pwrBase Reg.pwrCapGrace = 100 ∧
  (∀ f, f < 112 → w.fieldState f = 3) ∧ (∀ c, c < 448 → w.rd (tirBase c) Reg.tirSplitScratch = 16) ∧
  (∀ k, k < 32 → w.rd (stkBase k) Reg.stkCapCap = 0xC000) ∧
  (∀ s e, s < 2240 → e < 2 → w.rd (matBase s e) Reg.matStatState = 0) ∧ w.job.phase = .idle

/-- Registers and memories are canonical at reset, and nothing waits.
At reset no memory byte is listed and none is poisoned (what an unlisted byte reads as is the model's choice, log entry 6), the register file is in canonical form, and the queue of commands is empty. -/
def Obligations.ResetIsCanonical : Prop :=
  let w := State.reset.w
  w.memOk = true ∧ w.coreMem = {} ∧ w.cluMem = {} ∧ w.accMem = {} ∧ w.stkMem = {} ∧ w.chamber = {} ∧ w.fwMem = {} ∧
  State.reset.pending = []

/-! ## Scalar instructions (Table 5-3) -/

/-- The two-operand SEQ instructions write sD.
On an issuing core with unused fields zero, ADD, SUB, MUL, AND, OR, XOR, SHL, SHR and SRA complete: sD takes the result (s0 stays 0),
the pc moves on by 8, and nothing else of the core, no memory, no other unit and no register outside the core's SEQ block changes.
A fetch that fails and an unused field stop the core (R104, R131). On a core whose stage issues, a poisoned word at the pc is CORE_POISON (0x10), and a word there of reserved CLASS or OP CORE_ILLEGAL (0x01), whatever instruction of a class comes; on a core whose stage does not issue nothing happens. On an issuing
core, each of these forms with a used-nowhere field set is CORE_ILLEGAL at its pc: ADD with C or IMM, LDI with A, B or C, JR with D, B, C or IMM, SEMWAIT with A, B or C.
NOP, LDI, LDIH, ADDI, RDSYS and SYN.SEMREAD do what Tables 5-3 and 5-4 say. NOP changes nothing but the pc; LDI writes IMM sign-extended; LDIH keeps the low 32 bits of sD under IMM; ADDI adds IMM sign-extended;
RDSYS writes the core's place in its job for selectors 0 to 2, its stage for 3, the ticks since T0 for 4, the tick for 5, the field's replica
of LCK_COUNT for 6, the counts into the tick for 7, the field's frequency for 8 and the job tag for 9; SEMREAD copies a semaphore. All with the frame of a scalar instruction. -/
def Obligations.ScalarTwoOperandInstructionsWriteD : Prop :=
  ((
  ((
  ∀ (i : Issue) (s : State), s.issuing i → i.c = 0 → i.imm = 0 →
    let a := s.w.ra i
    let b := s.w.rb i
    Runs (.seqAdd i) s (fun t => s.w.wroteD t i (a + b)) ∧
    Runs (.seqSub i) s (fun t => s.w.wroteD t i (a - b)) ∧
    Runs (.seqMul i) s (fun t => s.w.wroteD t i (a * b)) ∧
    Runs (.seqAnd i) s (fun t => s.w.wroteD t i (a &&& b)) ∧
    Runs (.seqOr i) s (fun t => s.w.wroteD t i (a ||| b)) ∧
    Runs (.seqXor i) s (fun t => s.w.wroteD t i (a ^^^ b)) ∧
    Runs (.seqShl i) s (fun t => s.w.wroteD t i (a <<< (b.toNat % 64))) ∧
    Runs (.seqShr i) s (fun t => s.w.wroteD t i (a >>> (b.toNat % 64))) ∧
    Runs (.seqSra i) s (fun t => s.w.wroteD t i (a.sshiftRight (b.toNat % 64)))) : Prop) ∧
  ((
  (∀ (i : Issue) (s : State), s.issuing i →
    let ill := fun t => t = s.w.coreFault i.site 1 (s.w.pcOf i.site)
    ((i.c ≠ 0 ∨ i.imm ≠ 0) → Runs (.seqAdd i) s ill) ∧
    ((i.a ≠ 0 ∨ i.b ≠ 0 ∨ i.c ≠ 0) → Runs (.seqLdi i) s ill ∧ Runs (.synSemwait i) s ill) ∧
    ((i.d ≠ 0 ∨ i.b ≠ 0 ∨ i.c ≠ 0 ∨ i.imm ≠ 0) → Runs (.seqJr i) s ill)) ∧
  ∀ (i : Issue) (s : State), i.site < 2240 → ∀ c ∈ [Instr.seqAdd i, .matLoad i, .vecAdd i, .movCopy i, .cnlSend i, .synMark i, .tirGet i],
    let w := s.w
    let a := coreAddr i.site (w.pcOf i.site)
    let x := w.coreMem.num a 8
    let illegal := 7 * 2 ^ 60 ≤ x ∨ ∃ y, decodeWord (BitVec.ofNat 64 x) = .ok y ∧ opDefined y.cls y.op.toNat = false
    (w.rd (siteBase i.site) Reg.seqStatState ≠ 1 → Runs c s (fun t => t = w)) ∧
    (w.rd (siteBase i.site) Reg.seqStatState = 1 →
      (w.coreMem.badIn a 8 = true → Runs c s (fun t => t = (w.classify (coreMemLoc i.site (w.pcOf i.site)) true).coreFault i.site 0x10 (w.pcOf i.site))) ∧
      (w.coreMem.badIn a 8 = false → illegal → Runs c s (fun t => t = w.coreFault i.site 1 (w.pcOf i.site))))) : Prop)) : Prop) ∧
  ((
  ∀ (i : Issue) (s : State), s.issuing i →
    (i.d = 0 → i.a = 0 → i.b = 0 → i.c = 0 → i.imm = 0 → Runs (.seqNop i) s (fun t => s.w.wentTo t i (s.w.pcNext i))) ∧
    (i.a = 0 → i.b = 0 → i.c = 0 → Runs (.seqLdi i) s (fun t => s.w.wroteD t i (i.imm.signExtend 64))) ∧
    (i.a = 0 → i.b = 0 → i.c = 0 → Runs (.seqLdih i) s (fun t => s.w.wroteD t i
      (((s.w.core i.site).sget i.d &&& 0xFFFFFFFF#64) ||| (i.imm.setWidth 64 <<< 32)))) ∧
    (i.b = 0 → i.c = 0 → Runs (.seqAddi i) s (fun t => s.w.wroteD t i (s.w.ra i + i.imm.signExtend 64))) ∧
    (i.a = 0 → i.b = 0 → i.c = 0 → ∀ l v, (s.w.core i.site).logical = some l →
        (i.imm = 0 ∧ v = l / 16) ∨ (i.imm = 1 ∧ v = l / 4 % 4) ∨ (i.imm = 2 ∧ v = l % 4) →
      Runs (.seqRdsys i) s (fun t => s.w.wroteD t i (BitVec.ofNat 64 v))) ∧
    (i.a = 0 → i.b = 0 → i.c = 0 → ∀ v, (i.imm = 3 ∧ v = s.w.rd (siteBase i.site) Reg.seqStatStage) ∨
        (i.imm = 4 ∧ v = tickDiff s.w.tick s.w.job.t0) ∨ (i.imm = 5 ∧ v = s.w.tick) ∨ (i.imm = 6 ∧ v = s.w.replicaNow (i.site / 20)) ∨
        (i.imm = 7 ∧ v = (s.w.countNow + 2 ^ 64 - s.w.tickStart) % 2 ^ 64) ∨
        (i.imm = 8 ∧ v = s.w.rd (fieldBase (i.site / 20)) Reg.fpwGearApplied) ∨ (i.imm = 9 ∧ v = s.w.job.tag) →
      Runs (.seqRdsys i) s (fun t => s.w.wroteD t i (BitVec.ofNat 64 v))) ∧
    (i.b = 0 → i.c = 0 → i.imm = 0 →
      Runs (.synSemread i) s (fun t => s.w.wroteD t i (BitVec.ofNat 64 ((s.w.core i.site).semGet i.a))))) : Prop)

/-- A scalar load and store name an 8-byte-aligned address of core memory (R107).
At an aligned address below 2^24, LD writes the 8 bytes there into sD, and a poisoned word stops the core with CORE_POISON (0x10); ST stores sB
there outside the core's code region: every other byte of core memory reads as before. Where an engine has yet to read a scale byte there,
ST holds (R101). At any other address both fault with CORE_ADDR (0x02), and a store within the code region with CORE_CODEWRITE (0x03).
Vector loads and stores move 512 bytes (Table 5-8). LD reads 128 lanes at sA + OPERAND, a multiple of 32 within core memory, into the enabled lanes of vD. ST writes the enabled lanes of
vB there and leaves every other byte of core memory. LDACC and STACC do the same with the accumulator row that OPERAND names, and hold
while the bank is held (R74). A misaligned LD or ST is CORE_ADDR, and a store into the code region CORE_CODEWRITE. -/
def Obligations.ScalarLoadsAndStores : Prop :=
  ((
  ∀ (i : Issue) (s : State), s.issuing i →
    let a := (s.w.ra i + i.imm.signExtend 64).toNat
    let k := coreAddr i.site a
    (i.b = 0 → i.c = 0 → a % 8 = 0 → a < 2 ^ 24 → s.w.coreMem.badAt k = false →
      Runs (.seqLd i) s (fun t => s.w.wroteD t i (BitVec.ofNat 64 (s.w.coreMem.num k 8)))) ∧
    (i.d = 0 → i.c = 0 → a % 8 = 0 → a < 2 ^ 24 → (s.w.core i.site).inCode a 8 = false → s.w.scaleHeld i.site a 8 = false →
      Runs (.seqSt i) s (fun t => t.issuedAt i (s.w.pcNext i) ∧
        (∀ n, n < 8 → t.coreMem.get (k + n) = (natLE 8 (s.w.rb i).toNat).getD n 0#8) ∧
        (∀ x, (x < k ∨ k + 8 ≤ x) → t.coreMem.get x = s.w.coreMem.get x) ∧
        t.core i.site = s.w.core i.site ∧ s.w.sameOtherCores t i.site ∧ s.w.sameButCoreMem t ∧ s.w.sameUnits t ∧
        s.w.sameRegsBut t (seqRegs i.site))) ∧
    (i.d = 0 → i.c = 0 → a % 8 = 0 → a < 2 ^ 24 → (s.w.core i.site).inCode a 8 = false → s.w.scaleHeld i.site a 8 = true →
      Runs (.seqSt i) s (fun t => t.pcOf i.site = s.w.pcOf i.site ∧ t.rd (siteBase i.site) Reg.seqStatHeld = 1 ∧ s.w.sameMemory t)) ∧
    (i.b = 0 → i.c = 0 → a % 8 = 0 → a < 2 ^ 24 → s.w.coreMem.badAt k = true → Runs (.seqLd i) s (fun t =>
      t = (s.w.classify (coreMemLoc i.site a) true).coreFault i.site 0x10 (s.w.pcOf i.site))) ∧
    (i.b = 0 → i.c = 0 → (a % 8 ≠ 0 ∨ 2 ^ 24 ≤ a) → Runs (.seqLd i) s (fun t => t = s.w.coreFault i.site 2 (s.w.pcOf i.site))) ∧
    (i.d = 0 → i.c = 0 → (a % 8 ≠ 0 ∨ 2 ^ 24 ≤ a) → Runs (.seqSt i) s (fun t => t = s.w.coreFault i.site 2 (s.w.pcOf i.site))) ∧
    (i.d = 0 → i.c = 0 → a % 8 = 0 → a < 2 ^ 24 → (s.w.core i.site).inCode a 8 = true →
      Runs (.seqSt i) s (fun t => t = s.w.coreFault i.site 3 (s.w.pcOf i.site)))) : Prop) ∧
  ((
  ∀ (i : Issue) (s : State), s.issuing i → vTy i < 2 →
    let a := (s.w.ra i + BitVec.ofNat 64 (vOperand i)).toNat
    let k := coreAddr i.site a
    let o := vOperand i
    let e := 2 * i.site + bits o 0 1
    let r := accAddr e (bits o 1 1) (bits o 2 10)
    let stored := fun (m m' : Mem) (at_ : Nat) =>
      (∀ l n, l < 128 → n < 4 → vLanes s.w i l = true → m'.get (at_ + 4 * l + n) = (natLE 4 (s.w.lane i i.b l)).getD n 0#8) ∧
      (∀ l n, l < 128 → n < 4 → vLanes s.w i l = false → m'.get (at_ + 4 * l + n) = m.get (at_ + 4 * l + n)) ∧
      (∀ x, (x < at_ ∨ at_ + 512 ≤ x) → m'.get x = m.get x)
    (i.b = 0 → i.c = 0 → a % 32 = 0 → a + 512 ≤ 2 ^ 24 → (∀ l, l < 128 → s.w.coreMem.badAt (k + 4 * l) = false) →
      Runs (.vecLd i) s (fun t => s.w.vecIssued t i ∧ s.w.sameMemory t ∧ s.w.tookLanes t i i.d fun l => s.w.coreMem.num (k + 4 * l) 4)) ∧
    (i.d = 0 → i.c = 0 → a % 32 = 0 → a + 512 ≤ 2 ^ 24 → (s.w.core i.site).inCode a 512 = false →
      (∀ l, l < 128 → vLanes s.w i l = true → s.w.scaleHeld i.site (a + 4 * l) 4 = false) → s.w.cleanLanes i [i.b] → Runs (.vecSt i) s (fun t => s.w.vecIssued t i ∧ t.core i.site = s.w.core i.site ∧
        s.w.sameButCoreMem t ∧ stored s.w.coreMem t.coreMem k)) ∧
    (s.w.bankHeld e (bits o 1 1) = true → ∀ k ∈ [Instr.vecLdacc i, .vecStacc i], i.d = 0 → i.a = 0 → i.b = 0 → i.c = 0 →
      Runs k s (fun t => t.pcOf i.site = s.w.pcOf i.site ∧ t.rd (siteBase i.site) Reg.seqStatHeld = 1 ∧ s.w.sameMemory t)) ∧
    (i.a = 0 → i.b = 0 → i.c = 0 → s.w.bankHeld e (bits o 1 1) = false → (∀ l, l < 128 → s.w.accMem.badAt (r + 4 * l) = false) →
      Runs (.vecLdacc i) s (fun t => s.w.vecIssued t i ∧ s.w.sameMemory t ∧ s.w.tookLanes t i i.d fun l => s.w.accMem.num (r + 4 * l) 4)) ∧
    (i.d = 0 → i.a = 0 → i.c = 0 → s.w.bankHeld e (bits o 1 1) = false → s.w.cleanLanes i [i.b] →
      Runs (.vecStacc i) s (fun t => s.w.vecIssued t i ∧ t.core i.site = s.w.core i.site ∧ t.coreMem = s.w.coreMem ∧
        t.cluMem = s.w.cluMem ∧ t.stkMem = s.w.stkMem ∧ stored s.w.accMem t.accMem r)) ∧
    (i.b = 0 → i.c = 0 → (a % 32 ≠ 0 ∨ 2 ^ 24 < a + 512) → Runs (.vecLd i) s (fun t => t = s.w.coreFault i.site 2 (s.w.pcOf i.site))) ∧
    (i.d = 0 → i.c = 0 → a % 32 = 0 → a + 512 ≤ 2 ^ 24 → (s.w.core i.site).inCode a 512 = true →
      Runs (.vecSt i) s (fun t => t = s.w.coreFault i.site 3 (s.w.pcOf i.site)))) : Prop)

/-- A branch or a jump goes to an 8-byte-aligned target in the code region (R107, R130).
A conditional branch whose comparison holds goes to pc + 8 × IMM sign-extended, one whose comparison fails to pc + 8; JAL goes to
pc + 8 × IMM and writes pc + 8 to sD; JR goes to sA. Nothing else changes. A taken target that is not a multiple of 8 is the core fault
CORE_ADDR (0x02), and one outside the code region CORE_BRANCH (0x06) (Table 5-13). -/
def Obligations.BranchesAndJumpsSetThePc : Prop :=
  ∀ (i : Issue) (s : State), s.issuing i →
    let a := s.w.ra i
    let b := s.w.rb i
    let rel := (BitVec.ofNat 64 (s.w.pcOf i.site) + 8 * i.imm.signExtend 64).toNat
    let c := s.w.core i.site
    let ok := fun (t : Nat) => t % 8 = 0 ∧ c.codeBase ≤ t ∧ t < c.codeBase + c.codeSize
    let bad := fun (k : Instr) (t : Nat) =>
      (t % 8 ≠ 0 → Runs k s (fun v => v = s.w.coreFault i.site 2 (s.w.pcOf i.site))) ∧
      (t % 8 = 0 → ¬ ok t → Runs k s (fun v => v = s.w.coreFault i.site 6 (s.w.pcOf i.site)))
    (∀ k p, (k, p) ∈ [(Instr.seqBeq i, a == b), (.seqBne i, a != b), (.seqBlt i, a.slt b), (.seqBge i, !a.slt b), (.seqBltu i, a.ult b),
        (.seqBgeu i, !a.ult b)] → i.d = 0 → i.c = 0 →
      (p = false → Runs k s (fun t => s.w.wentTo t i (s.w.pcNext i))) ∧
      (p = true → ok rel → Runs k s (fun t => s.w.wentTo t i rel)) ∧ (p = true → bad k rel)) ∧
    (i.a = 0 → i.b = 0 → i.c = 0 →
      (ok rel → Runs (.seqJal i) s (fun t => t.issuedAt i rel ∧
        c.tookD (t.core i.site) i.d (BitVec.ofNat 64 (s.w.pcNext i)) ∧ s.w.sameOtherCores t i.site ∧ s.w.sameMemory t ∧ s.w.sameUnits t ∧
        s.w.sameRegsBut t (seqRegs i.site))) ∧ bad (.seqJal i) rel) ∧
    (i.d = 0 → i.b = 0 → i.c = 0 → i.imm = 0 →
      (ok a.toNat → Runs (.seqJr i) s (fun t => s.w.wentTo t i a.toNat)) ∧ bad (.seqJr i) a.toNat)

/-! ## Synchronisation (R112 to R115) -/

/-- Semaphores and waits (R114, R115).
SEMPOST adds IMM[15:0] while the sum stays within 65,535, and is CORE_SEM (0x04) beyond it, with the semaphore unchanged. SEMWAIT
subtracts v = IMM[15:0] once the semaphore is at least v; with less it holds: the pc stays, HELD is set and CAUSE names what would post it
(R113). ATTIME issues once RDSYS value 7 with the time held has reached sA + IMM, and holds before.
A mark ends the stage once no uncarried unit has work left (R112). With every busy unit carried, MARK sets SEQ_STAT.STATE to 2 and the core's mark; with an uncarried unit busy it holds and the stage
goes on. Both leave the core's registers and memory as they were. -/
def Obligations.SemaphoresAndTimedWaits : Prop :=
  ((
  ∀ (i : Issue) (s : State), s.issuing i →
    let c := s.w.core i.site
    let v := i.imm.toNat % 2 ^ 16
    (i.a = 0 → i.b = 0 → i.c = 0 → c.semGet i.d + v ≤ 65535 → Runs (.synSempost i) s (fun t => t.issuedAt i (s.w.pcNext i) ∧
      c.tookSem (t.core i.site) i.d (c.semGet i.d + v) ∧ s.w.sameOtherCores t i.site ∧ s.w.sameMemory t)) ∧
    (i.a = 0 → i.b = 0 → i.c = 0 → 65535 < c.semGet i.d + v →
      Runs (.synSempost i) s (fun t => t = s.w.coreFault i.site 4 (s.w.pcOf i.site))) ∧
    (i.a = 0 → i.b = 0 → i.c = 0 → v ≤ c.semGet i.d → Runs (.synSemwait i) s (fun t => t.issuedAt i (s.w.pcNext i) ∧
      c.tookSem (t.core i.site) i.d (c.semGet i.d - v) ∧ s.w.sameOtherCores t i.site ∧ s.w.sameMemory t)) ∧
    (i.a = 0 → i.b = 0 → i.c = 0 → c.semGet i.d < v → Runs (.synSemwait i) s (fun t => t.pcOf i.site = s.w.pcOf i.site ∧
      t.rd (siteBase i.site) Reg.seqStatHeld = 1 ∧ t.rd (siteBase i.site) Reg.seqStatCause = (s.w.semCause i.site i.d).1 % 2 ^ 4 ∧
      { t.core i.site with wait := c.wait } = c ∧ s.w.sameMemory t)) ∧
    (i.d = 0 → i.b = 0 → i.c = 0 → (s.w.ra i + i.imm.setWidth 64).toNat ≤
        (s.w.countNow + 2 ^ 64 - s.w.tickStart) % 2 ^ 64 + s.w.vecCounts i.site i.held →
      Runs (.synAttime i) s (fun t => s.w.wentTo t i (s.w.pcNext i))) ∧
    (i.d = 0 → i.b = 0 → i.c = 0 → (s.w.countNow + 2 ^ 64 - s.w.tickStart) % 2 ^ 64 + s.w.vecCounts i.site i.held <
        (s.w.ra i + i.imm.setWidth 64).toNat →
      Runs (.synAttime i) s (fun t => t.pcOf i.site = s.w.pcOf i.site ∧ t.rd (siteBase i.site) Reg.seqStatHeld = 1 ∧
        { t.core i.site with wait := c.wait } = c ∧ s.w.sameMemory t))) : Prop) ∧
  ((
  ∀ (i : Issue) (s : State), s.issuing i → i.d = 0 → i.a = 0 → i.b = 0 → i.c = 0 →
    let waits := (15 - i.imm.toNat % 16) &&& s.w.busyUnits i.site
    (waits = 0 → Runs (.synMark i) s (fun t => t.rd (siteBase i.site) Reg.seqStatState = 2 ∧ (t.core i.site).marked = true ∧
      { t.core i.site with marked := (s.w.core i.site).marked } = s.w.core i.site ∧
      t.pcOf i.site = s.w.pcNext i % 2 ^ 24 ∧ s.w.sameOtherCores t i.site ∧ s.w.sameMemory t)) ∧
    (waits ≠ 0 → Runs (.synMark i) s (fun t => t.rd (siteBase i.site) Reg.seqStatState = 1 ∧
      t.rd (siteBase i.site) Reg.seqStatHeld = 1 ∧ { t.core i.site with wait := (s.w.core i.site).wait } = s.w.core i.site ∧
      t.pcOf i.site = s.w.pcOf i.site ∧ s.w.sameMemory t))) : Prop)

/-! ## The vector unit (R120 to R126) -/

/-- The elementwise vector instructions compute each enabled lane (Table 5-8).
On an issuing core, with TYPE FP32 or BF16, unused fields zero and no enabled lane of a source poisoned, ADD, SUB, MUL, FMA, MAX, MIN, ABS and
NEG write vD lane by lane from the sources' elements; masked lanes and every other vector register keep their values, and no memory
and no other unit changes.
With a reserved TYPE they are CORE_ILLEGAL.
SEL, the compares and BCAST (Table 5-8). SEL takes lane l from vA where the mask register's bit is 1 and from vB elsewhere, MASKEN ignored. CMPGT, CMPGE and CMPEQ write mask
register D: in each enabled lane 1 when the elements (in BF16 mode, both pairs) are no NaN and compare so, in a masked lane the bit
before. BCAST puts the low 32 bits (FP32) or the low 16 bits twice (BF16) of sA into every enabled lane. -/
def Obligations.VectorElementwiseInstructions : Prop :=
  ((
  (∀ (i : Issue) (s : State) (c : Instr) (unused : Prop) (f : FpFmt → List Nat → Nat) (srcs : List Nat), s.issuing i → vTy i < 2 →
    (c, unused, f, srcs) ∈ [(Instr.vecAdd i, i.c ≠ 0, opAdd, [i.a, i.b]), (.vecSub i, i.c ≠ 0, opSub, [i.a, i.b]),
      (.vecMul i, i.c ≠ 0, opMul, [i.a, i.b]), (.vecFma i, False, opFma, [i.a, i.b, i.c]), (.vecMax i, i.c ≠ 0, opMax 0, [i.a, i.b]),
      (.vecMin i, i.c ≠ 0, opMax 1, [i.a, i.b]), (.vecAbs i, i.b ≠ 0 ∨ i.c ≠ 0, opAbs, [i.a]),
      (.vecNeg i, i.b ≠ 0 ∨ i.c ≠ 0, opNeg, [i.a])] → ¬ unused → s.w.cleanLanes i srcs →
    Runs c s (fun t => s.w.vecIssued t i ∧ s.w.sameMemory t ∧
      s.w.tookLanes t i i.d (fun l => perElem (vTy i) f (srcs.map fun r => s.w.lane i r l)))) ∧
  ∀ (i : Issue) (s : State) (c : Instr), s.issuing i → 2 ≤ vTy i → i.b = 0 → i.c = 0 →
    c ∈ [Instr.vecAdd i, .vecSub i, .vecMul i, .vecFma i, .vecMax i, .vecMin i, .vecAbs i, .vecNeg i, .vecSel i, .vecBcast i] →
    Runs c s (fun t => t = s.w.coreFault i.site 1 (s.w.pcOf i.site))) : Prop) ∧
  ((
  ∀ (i : Issue) (s : State), s.issuing i → vTy i < 2 →
    let c := s.w.core i.site
    let holds := fun (f : FpFmt) (p : Ext → Ext → Bool) (x y : Nat) => !(f.dec x).isNan && !(f.dec y).isNan && p (f.dec x) (f.dec y)
    let took := fun (t : Wafer) (p : Ext → Ext → Bool) => s.w.vecIssued t i ∧ s.w.sameMemory t ∧ (t.core i.site).v = c.v ∧
      (∀ k, k ≠ i.d → (t.core i.site).mget k = c.mget k) ∧
      ∀ l, l < 128 → bit ((t.core i.site).mget i.d) l =
        if vLanes s.w i l then
          (if vTy i = 0 then holds fp32 p (s.w.lane i i.a l) (s.w.lane i i.b l)
           else holds bf16 p (s.w.lane i i.a l % 2 ^ 16) (s.w.lane i i.b l % 2 ^ 16) &&
             holds bf16 p (s.w.lane i i.a l / 2 ^ 16) (s.w.lane i i.b l / 2 ^ 16))
        else bit (c.mget i.d) l
    (i.c = 0 → (∀ l, l < 128 → c.vbadAt i.a l = false ∧ c.vbadAt i.b l = false) →
      Runs (.vecSel i) s (fun t => s.w.vecIssued t i ∧ s.w.sameMemory t ∧
        (t.core i.site).m = c.m ∧ (∀ l, l < 128 → t.lane i i.d l = s.w.lane i (if bit (c.mget (vMaskReg i)) l then i.a else i.b) l) ∧
        ∀ k l, k ≠ i.d → l < 128 → t.lane i k l = s.w.lane i k l)) ∧
    (i.c = 0 → i.d < 8 → s.w.cleanLanes i [i.a, i.b] →
      Runs (.vecCmpgt i) s (fun t => took t fun a b => b.lt a) ∧
      Runs (.vecCmpge i) s (fun t => took t fun a b => !a.lt b) ∧
      Runs (.vecCmpeq i) s (fun t => took t fun a b => !a.lt b && !b.lt a)) ∧
    (i.b = 0 → i.c = 0 →
      Runs (.vecBcast i) s (fun t => s.w.vecIssued t i ∧ s.w.sameMemory t ∧ s.w.tookLanes t i i.d fun _ =>
        if vTy i = 0 then (s.w.ra i).toNat else (s.w.ra i).toNat % 2 ^ 16 * 65537))) : Prop)

/-- The special functions write vD, and their special inputs are those of Table 5-9.
In FP32, each of the nine instructions writes every enabled lane of vD with the function of vA's lane; in BF16, both elements with the
function of the element as FP32, rounded to BF16 under RND. A NaN gives the NaN of R86; EXP of −∞ is +0 and of +∞ is +∞; LOG of ±0 is
−∞, of −1 NaN and of +∞ is +∞; RCP of ±0 is ±∞ and of ±∞ is ±0; RSQRT of ±0 is ±∞, of −1 NaN and of +∞ is +0; TANH and ERF of ±∞ are ±1;
GELU and GELUT of −∞ are −0 and of +∞ are +∞; SIGMOID of −∞ is +0 and of +∞ is 1. For any other input the result, as a place among the FP32
values in order, lies between the places that the bound allows, where any lies there.
The cross-lane reductions (R122). RSUM writes the total of the fixed pairwise tree over the enabled lanes to lane 0; RMAX, RMIN, RARGMAX and RARGMIN write the winning value of the
enabled lanes' elements to lane 0, where every number is below NaN and the lowest index wins a tie, and the two ARG forms its index to
lane 1; every other lane of vD is +0, and every other vector register, memory and unit is unchanged. -/
def Obligations.VectorSpecialFunctions : Prop :=
  ((
  (∀ (i : Issue) (s : State) (c : Instr) (op : Nat), s.issuing i → vTy i < 2 → i.b = 0 → i.c = 0 → s.w.cleanLanes i [i.a] →
    (c, op) ∈ [(Instr.vecExp i, 0x10), (.vecLog i, 0x11), (.vecRcp i, 0x12), (.vecRsqrt i, 0x13), (.vecTanh i, 0x14), (.vecErf i, 0x15),
      (.vecGelu i, 0x16), (.vecSigmoid i, 0x17), (.vecGelut i, 0x18)] →
    Runs c s (fun t => s.w.vecIssued t i ∧ s.w.sameMemory t ∧ (t.core i.site).q = (s.w.core i.site).q + vTy i * b2n (vStoch i) ∧
      s.w.tookLanes t i i.d (fun l => if vTy i = 0 then sfu32 op (s.w.lane i i.a l)
        else bf16.enc (s.w.rndFor i (2 * l)) (val32 (sfu32 op (s.w.lane i i.a l % 2 ^ 16 * 2 ^ 16))) +
          2 ^ 16 * bf16.enc (s.w.rndFor i (2 * l + 1)) (val32 (sfu32 op (s.w.lane i i.a l / 2 ^ 16 % 2 ^ 16 * 2 ^ 16)))))) ∧
  (∀ op x, sfuSpecial op (val32 x) = none →
    let place : Int := if sfu32 op x < 2 ^ 31 then (sfu32 op x : Nat) else -((sfu32 op x - 2 ^ 31 : Nat) : Int)
    (sfuRange op x).1 ≤ place ∧ ((sfuRange op x).1 ≤ (sfuRange op x).2 → place ≤ (sfuRange op x).2)) ∧
  (∀ op, op ∈ [0x10, 0x11, 0x12, 0x13, 0x14, 0x15, 0x16, 0x17, 0x18] → sfu32 op 0x7FC00000 = fp32.nan) ∧
  sfu32 0x10 0xFF800000 = 0 ∧ sfu32 0x10 0x7F800000 = 0x7F800000 ∧
  sfu32 0x11 0 = 0xFF800000 ∧ sfu32 0x11 0x80000000 = 0xFF800000 ∧ sfu32 0x11 0xBF800000 = fp32.nan ∧ sfu32 0x11 0x7F800000 = 0x7F800000 ∧
  sfu32 0x12 0 = 0x7F800000 ∧ sfu32 0x12 0x80000000 = 0xFF800000 ∧ sfu32 0x12 0x7F800000 = 0 ∧ sfu32 0x12 0xFF800000 = 0x80000000 ∧
  sfu32 0x13 0 = 0x7F800000 ∧ sfu32 0x13 0x80000000 = 0xFF800000 ∧ sfu32 0x13 0xBF800000 = fp32.nan ∧ sfu32 0x13 0x7F800000 = 0 ∧
  (∀ op, op ∈ [0x14, 0x15] → sfu32 op 0x7F800000 = 0x3F800000 ∧ sfu32 op 0xFF800000 = 0xBF800000) ∧
  (∀ op, op ∈ [0x16, 0x18] → sfu32 op 0x7F800000 = 0x7F800000 ∧ sfu32 op 0xFF800000 = 0x80000000) ∧
  sfu32 0x17 0xFF800000 = 0 ∧ sfu32 0x17 0x7F800000 = 0x3F800000) : Prop) ∧
  ((
  ∀ (i : Issue) (s : State), s.issuing i → vTy i < 2 → i.b = 0 → i.c = 0 → s.w.cleanLanes i [i.a] → (∃ l, l < 128 ∧ vLanes s.w i l = true) →
    let f := if vTy i = 0 then fp32 else bf16
    let frame := fun (t : Wafer) => s.w.vecIssued t i ∧ s.w.sameMemory t ∧ (∀ l, 2 ≤ l → l < 128 → t.lane i i.d l = 0) ∧
      (∀ k l, k ≠ i.d → l < 128 → t.lane i k l = s.w.lane i k l)
    let won := fun (t : Wafer) (beats : Ext → Ext → Bool) (arg : Bool) => frame t ∧ ∃ e ∈ redElems s.w i,
      t.lane i i.d 0 = f.enc .near (f.dec e.2) ∧ t.lane i i.d 1 = (if arg then e.1 else 0) ∧
      ∀ d ∈ redElems s.w i, beats (f.dec d.2) (f.dec e.2) = false ∧ (d.1 < e.1 → beats (f.dec e.2) (f.dec d.2) = true)
    Runs (.vecRsum i) s (fun t => frame t ∧ t.lane i i.d 1 = 0 ∧
      some (t.lane i i.d 0) = (treeSum ((List.range 128).map fun l =>
        if vLanes s.w i l then some (sumLane (vTy i) (s.w.lane i i.a l)) else none)).map fun v => rne (val32 v)) ∧
    Runs (.vecRmax i) s (fun t => won t (fun a b => b.lt a) false) ∧ Runs (.vecRmin i) s (fun t => won t (fun a b => a.lt b) false) ∧
    Runs (.vecRargmax i) s (fun t => won t (fun a b => b.lt a) true) ∧ Runs (.vecRargmin i) s (fun t => won t (fun a b => a.lt b) true)) : Prop)

/-- Conversions, quantising and random bits (R124 to R126).
CVT from FP32 to a narrow format packs each element rounded as RND says into vD; CVT to FP32 spreads the packed elements of vA over the
registers from vD; exactly one of the two codes is 0. RND 1 moves the core's stochastic count on by one. QMX writes 16 MX blocks' elements
to vD and their scale bytes to vD + 1. RAND fills the enabled lanes from the core's generator and moves its own count on by one.
TOPK writes the K best of every group (R123). With a descriptor within Table 5-10 in memory without poison, set q of the results, in row order and then in group order, holds the K
values and K indices of its group (of all rows with ROWWISE 0, of its row with ROWWISE 1), padded to 32 bytes; every other byte of core memory and the core
are unchanged. -/
def Obligations.VectorConversionsAndRandomBits : Prop :=
  ((
  ∀ (i : Issue) (s : State), s.issuing i → vTy i < 2 →
    let c := s.w.core i.site
    let src := bits (vOperand i) 0 4
    let tgt := bits (vOperand i) 4 4
    (i.b = 0 → i.c = 0 → src = 0 → 1 ≤ tgt → tgt ≤ 6 → i.a + 32 / cvtBits tgt ≤ 32 → c.vbad = [] →
      Runs (.vecCvt i) s (fun t => s.w.vecIssued t i ∧ s.w.sameMemory t ∧ (t.core i.site).q = c.q + b2n (vStoch i) ∧
        s.w.tookLanes t i i.d fun l => fieldAt (packElems (cvtBits tgt) ((List.range (128 * (32 / cvtBits tgt))).map fun j =>
          fmtEnc (cvtFmt tgt) (s.w.rndFor i j) (val32 (c.elem i.a j)))) (4 * l) 4)) ∧
    (i.b = 0 → i.c = 0 → tgt = 0 → 1 ≤ src → src ≤ 6 → i.d + 32 / cvtBits src ≤ 32 → c.vbad = [] →
      Runs (.vecCvt i) s (fun t => s.w.vecIssued t i ∧ s.w.sameMemory t ∧ (t.core i.site).q = c.q ∧
        ∀ k l, k < 32 / cvtBits src → l < 128 → t.lane i (i.d + k) l = if vLanes s.w i l then
          rne (fmtVal (cvtFmt src) (packedElem (laneBytes (c.vget i.a)) (cvtBits src) (128 * k + l))) % 2 ^ 32
          else s.w.lane i (i.d + k) l)) ∧
    (i.b = 0 → i.c = 0 → (src = 0 ↔ tgt = 0) → Runs (.vecCvt i) s (fun t => t = s.w.coreFault i.site 1 (s.w.pcOf i.site))) ∧
    (i.b = 0 → i.c = 0 → 4 ≤ src → src ≤ 9 → i.a + 4 ≤ 32 → i.d + 2 ≤ 32 → c.vbad = [] →
      let block := fun (b : Nat) => mxBlock src ((List.range 32).map fun k => c.elem i.a (32 * b + k)) fun k => s.w.rndFor i (32 * b + k)
      Runs (.vecQmx i) s (fun t => s.w.vecIssued t i ∧ s.w.sameMemory t ∧ (t.core i.site).q = c.q + b2n (vStoch i) ∧
        (∀ l, l < 16 * fmtBits src → vLanes s.w i l = true →
          t.lane i i.d l = fieldAt (packElems (fmtBits src) ((List.range 16).flatMap fun b => (block b).2)) (4 * l) 4) ∧
        (∀ k l, k ≠ i.d → k ≠ i.d + 1 → l < 128 → t.lane i k l = s.w.lane i k l) ∧
        ∀ b, b < 16 → vLanes s.w i (b / 4) = true → bits (t.lane i (i.d + 1) (b / 4)) (8 * (b % 4)) 8 =
          (block b).1 % 256)) ∧
    (i.a = 0 → i.b = 0 → i.c = 0 →
      Runs (.vecRand i) s (fun t => s.w.vecIssued t i ∧ s.w.sameMemory t ∧ (t.core i.site).qr = c.qr + 1 ∧ (t.core i.site).q = c.q ∧
        s.w.tookLanes t i i.d fun l => philox ((s.w.job.image.map (·.seed)).getD 0) (l / 4) (2 ^ 31 + c.qr) (tickDiff s.w.tick s.w.job.t0)
          (c.logical.getD 0 + 3 * 2 ^ 11) (l % 4)))) : Prop) ∧
  ((
  ∀ (i : Issue) (s : State), s.issuing i → vTy i < 2 → i.b = 0 → i.c = 0 → i.d = 0 → s.w.coreMem.poison = [] →
    let c := s.w.core i.site
    let p := (s.w.ra i + BitVec.ofNat 64 (vOperand i)).toNat
    let d := topkOf (s.w.coreBytes i.site p 32)
    let setLen := ceilDiv (8 * d.k) 32 * 32
    let groups := 128 / 2 ^ d.glog2
    let sets := if d.rowwise then d.rows * groups else groups
    p + 32 ≤ 2 ^ 24 → 1 ≤ d.rows → d.rows ≤ 65535 → d.glog2 ≤ 7 → 1 ≤ d.k → d.k ≤ 64 →
    d.stride % 32 = 0 → d.src % 32 = 0 → d.dst % 32 = 0 → d.src + (d.rows - 1) * d.stride + 512 ≤ 2 ^ 24 → d.dst + sets * setLen ≤ 2 ^ 24 →
    c.inCode d.dst (sets * setLen) = false → s.w.scaleHeld i.site d.dst (sets * setLen) = false →
    Runs (.vecTopk i) s (fun t => s.w.vecIssued t i ∧ t.core i.site = c ∧ s.w.sameButCoreMem t ∧
      (∀ q n, q < sets → n < setLen → t.coreMem.get (coreAddr i.site d.dst + q * setLen + n) =
        (topSet d (topCands s.w i.site d (q % groups) (if d.rowwise then [q / groups] else List.range d.rows))).getD n 0#8) ∧
      (∀ x, (x < coreAddr i.site d.dst ∨ coreAddr i.site d.dst + sets * setLen ≤ x) → t.coreMem.get x = s.w.coreMem.get x))) : Prop)

/-! ## The copy engine (R109) -/

/-- COPY and FILL hand a block to the copy engine, and the waits let go at their count (R109, R66, R110).
With a descriptor within Table 5-5, aligned and unpoisoned, rows within the memories they name and outside the code region, fewer than 8
copies outstanding and no accumulator bank they touch held (R74), COPY and FILL append it to the core's copies and change no memory; with 8
outstanding, or a bank held, they hold. MOV.WAIT issues with at most IMM[2:0] copies outstanding and otherwise holds; MAT.WAIT with at most IMM[1:0] passes
of its engine; CNL.WAIT with at most IMM[3:0] sends.
A copy's completion moves its rows and posts its semaphore (R109). For a copy outstanding at place idx that its cluster's arbiters grant, whose destination rows meet neither each other nor its source rows, COPY_COMPLETE leaves each
destination row holding the source row (or the fill value), every other byte of that memory and the two other memories as they were,
takes the copy off the list, and adds 1 to its semaphore unless it names none. -/
def Obligations.CopiesAreAcceptedAndWaitedFor : Prop :=
  ((
  ∀ (i : Issue) (s : State), s.issuing i →
    let c := s.w.core i.site
    let a := s.w.descAddr i
    let frame := fun (t : Wafer) => t.issuedAt i (s.w.pcNext i) ∧ s.w.sameOtherCores t i.site ∧ s.w.sameMemory t ∧ s.w.sameUnits t
    let held := fun (t : Wafer) => t.pcOf i.site = s.w.pcOf i.site ∧ t.rd (siteBase i.site) Reg.seqStatHeld = 1 ∧
      { t.core i.site with wait := c.wait } = c ∧ s.w.sameMemory t ∧ s.w.sameUnits t
    (∀ (k : Instr) (fill : Option Word) (b : Nat), (k, fill, b) ∈ [(Instr.movCopy i, none, i.b), (.movFill i, some (s.w.rb i), 0)] →
      i.d = 0 → b = 0 → i.c = 0 → a % 16 = 0 → a + 32 ≤ 2 ^ 24 → s.w.coreMem.badIn (coreAddr i.site a) 32 = false →
      let x := copyOf (s.w.coreBytes i.site a 32) fill c.serial
      x.badParam = false → (fill = none → spanOk s.w i.site x.sspace x.src x.sstride x.rows x.len = true) →
      spanOk s.w i.site x.dspace x.dst x.dstride x.rows x.len = true →
      (x.dspace = 0 → ∀ r, r < x.rows → c.inCode (x.dst + r * x.dstride) x.len = false) →
      let shut := ∃ e bank, e < 2 ∧ bank < 2 ∧ x.usesBank (2 * i.site + e) bank = true ∧ s.w.bankHeld (2 * i.site + e) bank = true
      (shut → Runs k s held) ∧
      (¬ shut → c.copies.length < 8 → Runs k s (fun t => frame t ∧ (t.core i.site).copies = c.copies ++ [x] ∧
        { t.core i.site with copies := c.copies, serial := c.serial } = c)) ∧
      (8 ≤ c.copies.length → Runs k s held)) ∧
    (i.d = 0 → i.a = 0 → i.b = 0 → i.c = 0 →
      (c.copies.length ≤ i.imm.toNat % 8 → Runs (.movWait i) s (fun t => frame t ∧ t.core i.site = c)) ∧
      (i.imm.toNat % 8 < c.copies.length → Runs (.movWait i) s held)) ∧
    (i.d < 2 → i.a = 0 → i.b = 0 → i.c = 0 →
      ((s.w.engine (2 * i.site + i.d)).passes.length ≤ i.imm.toNat % 4 → Runs (.matWait i) s (fun t => frame t ∧ t.core i.site = c)) ∧
      (i.imm.toNat % 4 < (s.w.engine (2 * i.site + i.d)).passes.length → Runs (.matWait i) s held)) ∧
    (i.d = 0 → i.a = 0 → i.b = 0 → i.c = 0 →
      (c.sends.length ≤ i.imm.toNat % 16 → Runs (.cnlWait i) s (fun t => frame t ∧ t.core i.site = c)) ∧
      (i.imm.toNat % 16 < c.sends.length → Runs (.cnlWait i) s held))) : Prop) ∧
  ((
  ∀ (site idx : Nat) (s : State) (x : Copy), site < 2240 → (s.w.core site).copies[idx]? = some x → x.apart site → x.badParam = false →
    (x.sem = 0xFF ∨ (s.w.core site).semGet x.sem + 1 ≤ 65535) →
    (s.w.copyShut site x = true → Runs (.copyComplete site idx) s (fun t => t = s.w)) ∧
    (s.w.copyShut site x = false → Runs (.copyComplete site idx) s (fun t =>
      (∀ r n, r < x.rows → n < x.len → (t.spaceMem x.dspace).get (x.dstKey site r + n) = (copyRead s.w site x r).1.getD n 0#8) ∧
      (∀ a, (∀ r, r < x.rows → a < x.dstKey site r ∨ x.dstKey site r + x.len ≤ a) →
        (t.spaceMem x.dspace).get a = (s.w.spaceMem x.dspace).get a) ∧
      (∀ k, k ≤ 2 → k ≠ x.dspace → t.spaceMem k = s.w.spaceMem k) ∧
      (t.core site).copies = dropAt (s.w.core site).copies idx ∧
      (∀ j, (t.core site).semGet j = (s.w.core site).semGet j + b2n (decide (j = x.sem ∧ x.sem ≠ 0xFF))) ∧
      s.w.sameOtherCores t site))) : Prop)

/-! ## Matrix engines (chapter 3) -/

/-- MODE, LOAD and STREAM take effect on their engine (R63 to R65, R108, R119).
On an issuing core with engine D < 2 and an aligned, unpoisoned descriptor in core memory: MODE sets the engine's mode from its 16 bytes;
LOAD, with no tile pending and the descriptor passing every check of Table 3-10, makes the tile pending with the mode in force, a dense one
with the tile that the weight feeder reads unless an arbiter grants it nothing, and puts a sparse one at the end of the cluster's gather-merge
queue; STREAM, with fewer than 4 passes and its checks passed, queues one pass, and the data feeder reads rows. No memory changes and no other
engine does. A LOAD with a tile pending and a STREAM with 4 passes hold. A misaligned MODE is CORE_ADDR (0x02).
A refused LOAD or STREAM is an engine fault (R79). A LOAD or STREAM whose descriptor fails a check of Table 3-10 leaves engine and memory as they were when the core holds no job, stops the
core at the instruction, and records the code and the descriptor's address in MAT_FAULT unless that already holds one. -/
def Obligations.MatrixInstructionsReachTheirEngine : Prop :=
  ((
  ∀ (i : Issue) (s : State), s.issuing i → i.d < 2 → i.b = 0 → i.c = 0 →
    let e := 2 * i.site + i.d
    let x := s.w.engine e
    let c := s.w.core i.site
    let a := s.w.descAddr i
    let l := s.w.coreBytes i.site a 32
    let d := loadDescOf l
    let p := streamDescOf l
    let frame := fun (t : Wafer) => t.issuedAt i (s.w.pcNext i) ∧ s.w.sameOtherCores t i.site ∧ s.w.sameMemory t ∧
      ∀ k, k ≠ e → t.engine k = s.w.engine k
    let held := fun (t : Wafer) => t.engine e = x ∧ t.pcOf i.site = s.w.pcOf i.site ∧ t.rd (siteBase i.site) Reg.seqStatHeld = 1 ∧
      s.w.sameMemory t
    let readable := a + 32 ≤ 2 ^ 24 ∧ s.w.coreMem.badIn (coreAddr i.site a) 32 = false
    let bare := fun (l : List Pass) => l.map fun q => { q with rows := [] }
    let shape := (if p.newTile then x.pend.map pendShape else x.comingTile).getD default
    (a % 16 = 0 → a + 16 ≤ 2 ^ 24 → s.w.coreMem.badIn (coreAddr i.site a) 16 = false →
      Runs (.matMode i) s (fun t => frame t ∧ t.core i.site = c ∧ t.engine e = { x with mode := modeOf (s.w.coreBytes i.site a 16) })) ∧
    (a % 16 ≠ 0 → Runs (.matMode i) s (fun t => t = s.w.coreFault i.site 2 (s.w.pcOf i.site))) ∧
    (readable → x.pend = none → d.sparse = false → loadCode s.w i.site a x.mode d = 0 →
      Runs (.matLoad i) s (fun t => frame t ∧ t.core i.site = c ∧ t.gmes = s.w.gmes ∧
        t.engine e = { x with pend := some ⟨d, a, x.mode, .dense, none, feedTile s.w i.site x.mode d, false⟩ })) ∧
    (readable → x.pend = none → d.sparse = true → sparseCode s.w i.site a x.mode d = 0 →
      Runs (.matLoad i) s (fun t => frame t ∧ t.core i.site = c ∧
        t.engine e = { x with pend := some ⟨d, a, x.mode, .queued, none, none, false⟩ } ∧
        (t.gme (siteCluster i.site)).queue = (s.w.gme (siteCluster i.site)).queue ++ [e])) ∧
    (x.pend ≠ none → Runs (.matLoad i) s held) ∧
    (readable → x.passes.length < 4 → streamCode s.w i.site a x x.mode p = 0 → Runs (.matStream i) s (fun t => frame t ∧
      (t.engine e).pend = x.pend ∧ (t.engine e).active = x.active ∧ (t.engine e).mode = x.mode ∧
      (t.core i.site).q = c.q + b2n (x.mode.out == 2 && x.mode.rnd == 1) ∧
      bare (t.engine e).passes = bare x.passes ++
        [⟨p, a, x.mode, shape.k, shape.n, shape.s, c.q, tickDiff s.w.tick s.w.job.t0, c.serial, false, none, []⟩])) ∧
    (4 ≤ x.passes.length → Runs (.matStream i) s held)) : Prop) ∧
  ((
  ∀ (i : Issue) (s : State), s.issuing i → i.d < 2 → i.b = 0 → i.c = 0 → s.w.armedOrRunning = false →
    let e := 2 * i.site + i.d
    let x := s.w.engine e
    let a := s.w.descAddr i
    let l := s.w.coreBytes i.site a 32
    let d := loadDescOf l
    let b := matBase i.site i.d
    let bad := fun (code : Nat) (t : Wafer) => t.engine e = x ∧ s.w.sameMemory t ∧ t.pcOf i.site = s.w.pcOf i.site ∧
      t.rd (siteBase i.site) Reg.seqStatState = 3 ∧
      (s.w.rd b Reg.matFaultValid ≠ 1 → t.rd b Reg.matFaultValid = 1 ∧ t.rd b Reg.matFaultCode = code % 256 ∧
        t.rd b Reg.matFaultDesc = a % 2 ^ 24)
    a + 32 ≤ 2 ^ 24 → s.w.coreMem.badIn (coreAddr i.site a) 32 = false →
    (x.pend = none → d.sparse = false → loadCode s.w i.site a x.mode d ≠ 0 → Runs (.matLoad i) s (bad (loadCode s.w i.site a x.mode d))) ∧
    (x.pend = none → d.sparse = true → sparseCode s.w i.site a x.mode d ≠ 0 → Runs (.matLoad i) s (bad (sparseCode s.w i.site a x.mode d))) ∧
    (x.passes.length < 4 → streamCode s.w i.site a x x.mode (streamDescOf l) ≠ 0 →
      Runs (.matStream i) s (bad (streamCode s.w i.site a x x.mode (streamDescOf l))))) : Prop)

/-- A shadow load takes the fed tile, and an issued pass takes its tile and rows (R68, R69, R74, R101).
SHADOW_LOAD_START on a dense pending tile brings what the weight feeder holds, or reads now, into the shadow registers with its scales; it
does nothing while an arbiter grants the feeder no reads, and for a sparse tile that waits in the gather-merge queue. PASS_ISSUE issues the
oldest waiting pass: with NEWTILE it swaps a shadow-loaded tile in as the active one and leaves no tile pending; without, it runs on the active
tile; the pass holds its data rows with their scales. The engine's STATE becomes 1 and no memory changes. A pass that waits for an earlier copy
(R74) does not issue.
A completed pass has written its outputs and freed its place (R67, R73). PASS_COMPLETE of an engine takes the oldest issued pass off its queue with the memories as its outputs leave them. A pass of unpoisoned rows
that writes to the accumulator (OUT 0, TAIL 0) leaves, in each row DST + r of its bank and each column c below N, the FP32 value of the
mode's row operation, and every byte outside those rows of accumulator memory as it was. -/
def Obligations.TilesAndPassesStart : Prop :=
  ((
  ∀ (site e paused idx : Nat) (s : State) (p : Pend) (q : Pass) (t0 : Tile), site < 2240 → e < 2 →
    let k := 2 * site + e
    let x := s.w.engine k
    let bare := fun (l : List Pass) => l.map fun q => { q with rows := [] }
    let shut := s.w.feedShut site p.mode p.desc = true
    let waits := q.mode.out < 2 ∧ q.claims (s.w.core site) k q.desc.bank = false
    (x.pend = some p → p.gme = .dense → p.started = false → (p.fed = some t0 ∨ (p.fed = none ∧ ¬ shut ∧ t0 = readTile s.w site p.mode p.desc)) →
      Runs (.shadowLoadStart site e) s (fun t => t.regs = s.w.regs ∧ s.w.sameMemory t ∧
        t.engine k = { x with pend := some { p with fed := some (t0.withScales s.w site p.desc), started := true } })) ∧
    (x.pend = some p → ((p.gme = .dense ∧ p.fed = none ∧ shut) ∨ p.gme = .queued ∨ p.started = true) →
      Runs (.shadowLoadStart site e) s (fun t => t = s.w)) ∧
    (x.pend = none → Runs (.shadowLoadStart site e) s (fun t => t = s.w)) ∧
    (indexOf? (fun (p : Pass) => !p.issued) x.passes = some idx → x.passes[idx]? = some q →
      ((q.desc.newTile = true ∧ x.pend = some p ∧ p.ready = some t0) ∨ (q.desc.newTile = false ∧ x.active = some t0)) →
      (waits → Runs (.passIssue site e paused) s (fun t => t = s.w)) ∧
      (¬ waits → Runs (.passIssue site e paused) s (fun t => (t.engine k).mode = x.mode ∧ (t.engine k).active = some t0 ∧
        (t.engine k).pend = (if q.desc.newTile then none else x.pend) ∧
        bare (t.engine k).passes = bare (listSet x.passes idx { q with issued := true, tile := some t0 }) ∧
        ((t.engine k).passes[idx]?.map (·.rows)) = some (passRows s.w site q) ∧
        t.rd (matBase site e) Reg.matStatState = 1 ∧ s.w.sameMemory t ∧ (∀ j, j ≠ k → t.engine j = s.w.engine j))))) : Prop) ∧
  ((
  ∀ (site e paused idx : Nat) (s : State) (q : Pass) (tl : Tile), site < 2240 → e < 2 →
    let k := 2 * site + e
    let x := s.w.engine k
    indexOf? (fun (p : Pass) => p.issued) x.passes = some idx → x.passes[idx]? = some q → q.tile = some tl →
    (passOutputs s.w site k q tl).2 = false →
    Runs (.passComplete site e paused) s (fun t => t.engine k = { x with passes := dropAt x.passes idx } ∧
      t.accMem = (passOutputs s.w site k q tl).1.accMem ∧ t.coreMem = (passOutputs s.w site k q tl).1.coreMem ∧
      t.cluMem = s.w.cluMem ∧ t.stkMem = s.w.stkMem ∧
      (q.mode.out = 0 → q.mode.tail = 0 → tl.n ≤ 128 →
        (∀ r c, r < q.rows.length → c < tl.n → t.accMem.num (accAddr k q.desc.bank (q.desc.dst + r) + 4 * c) 4 =
          (passRow q.mode tl (q.rows.getD r default)).getD c 0 % 2 ^ 32) ∧
        (∀ a, (∀ r, r < q.rows.length → a < accAddr k q.desc.bank (q.desc.dst + r) ∨
            accAddr k q.desc.bank (q.desc.dst + r) + 4 * tl.n ≤ a) → t.accMem.get a = s.w.accMem.get a)))) : Prop)

/-! ## The gather-merge engine (chapter 6) -/

/-- A free lane takes the oldest request, checks its tile, emits it and becomes free (R138, R139, R144).
GME_LANE_TAKE in a cluster that is not fenced moves the head of the queue to the lowest free lane; GME_SETUP_DONE of a lane whose tile passes
Table 6-4 forms the slot map of R139 and starts its emission; a tile that fails is dropped with the engine stopped; GME_EMISSION_DONE reads the
values where the slot map names them, leaves the tile to the shadow load and frees the lane. In a fenced cluster, and while an arbiter grants the
tensor's memory nothing, nothing happens. -/
def Obligations.GatherMergeLanes : Prop :=
  ∀ (cl lane e : Nat) (rest : List Nat) (s : State) (p : Pend) (m : List (List (Option (Nat × Nat)))), cl < 448 → lane < 4 →
    let g := s.w.gme cl
    let x := s.w.engine e
    let shut := s.w.clusterFenced cl = true ∨ tensorShut s.w (e / 2) p.desc = true
    (s.w.clusterFenced cl = true → Runs (.gmeLaneTake cl) s (fun t => t = s.w)) ∧
    (s.w.clusterFenced cl = false → g.queue = e :: rest → (List.range 4).find? (fun l => (gmeLaneOf g l).isNone) = some lane →
      Runs (.gmeLaneTake cl) s (fun t => t.gme cl = { lanes := g.lanes ++ [(lane, ⟨e, false⟩)], queue := rest } ∧
        t.engine e = { x with pend := x.pend.map fun p => { p with gme := .lane } } ∧ s.w.sameMemory t ∧ t.cores = s.w.cores)) ∧
    (∀ b, gmeLaneOf g lane = some ⟨e, b⟩ → x.pend = some p → shut → Runs (.gmeSetupDone cl lane) s (fun t => t = s.w) ∧
      Runs (.gmeEmissionDone cl lane) s (fun t => t = s.w)) ∧
    (gmeLaneOf g lane = some ⟨e, false⟩ → x.pend = some p → ¬ shut → sparseCheck s.w (e / 2) p.mode p.desc = none →
      Runs (.gmeSetupDone cl lane) s (fun t => gmeLaneOf (t.gme cl) lane = some ⟨e, true⟩ ∧ (t.gme cl).queue = g.queue ∧
        t.engine e = { x with pend := some { p with slots := some (slotMap s.w (e / 2) p.mode p.desc) } } ∧ s.w.sameMemory t ∧
        t.cores = s.w.cores)) ∧
    (∀ f, gmeLaneOf g lane = some ⟨e, false⟩ → x.pend = some p → ¬ shut → sparseCheck s.w (e / 2) p.mode p.desc = some f →
      s.w.armedOrRunning = false → s.w.rd (gmeBase cl) Reg.gmeFaultValid = 0 →
      Runs (.gmeSetupDone cl lane) s (fun t => (t.engine e).pend = none ∧ (t.engine e).passes = x.passes.filter (·.issued) ∧
        t.rd (gmeBase cl) Reg.gmeFaultCode = f.code % 256 ∧ t.rd (matBase (e / 2) (e % 2)) Reg.matStatState = 3 ∧ s.w.sameMemory t)) ∧
    (gmeLaneOf g lane = some ⟨e, true⟩ → x.pend = some p → p.slots = some m → ¬ shut →
      Runs (.gmeEmissionDone cl lane) s (fun t => gmeLaneOf (t.gme cl) lane = none ∧ (t.gme cl).queue = g.queue ∧
        t.engine e = { x with pend := some { p with gme := .emitted, fed := some (sparseTile s.w (e / 2) p.mode p.desc m) } } ∧
        s.w.sameMemory t ∧ t.cores = s.w.cores))

/-! ## CLEAR and SWAP bits (R377, R176) -/

/-- A write of 1 to a CLEAR bit acts at the next boundary (R377).
While the tally has room, each of the fourteen CLEAR commands is tallied as a register write and asks for the clearing of its block: the
offset of its CTL register joins those that step 7 of the next boundary clears, and no counter, memory or job state changes yet. ARB_CTL.SWAP
of an existing arbiter asks for the exchange of its tables in the same way, once however often it is written.
A cleared block's counters and overflow bits read 0 (R377). When the clearing asked for acts, every counter of the block reads 0 with its
overflow bit 0, the vector counters of a site with those of its sequencer, and the records that the bit clears read their reset values. An exchange makes the
shadow table of its arbiter the active one, and shows the active one's slots in the shadow registers (R176). -/
def Obligations.ClearAndSwapBitsWaitForTheBoundary : Prop :=
  ((
  ∀ (s : State) (path site e cluster router stack port field base : Nat), s.w.tallyFull = false →
    site < 2240 → e < 2 → cluster < 448 → router < 4480 → stack < 32 → port < 176 → field < 112 →
    let asked := fun (off : Nat) (t : Wafer) => t.cmd.clears = s.w.cmd.clears ++ [off] ∧ t.cmd.swaps = s.w.cmd.swaps ∧
      s.w.shp.tallyBuf.length < t.shp.tallyBuf.length ∧ s.w.sameMemory t ∧ t.job = s.w.job ∧ s.w.sameRegsBut t (fun o => o = 8 ∨ (secBase ≤ o ∧ o < secBase + 0x38))
    Runs (.matClear path site e) s (asked (matBase site e + 0x38)) ∧ Runs (.seqClear path site) s (asked (siteBase site + 0x40)) ∧
    Runs (.gmeClear path cluster) s (asked (gmeBase cluster + 0x40)) ∧ Runs (.rtrClear path router) s (asked (rtrBase router + 0x40)) ∧
    Runs (.stkClear path stack) s (asked (stkBase stack + 0x70)) ∧ Runs (.tirClear path cluster) s (asked (tirBase cluster + 0x50)) ∧
    Runs (.tpxClear path port) s (asked (portBase port + 0xB8)) ∧ Runs (.wstClear path) s (asked (wstBase + 0x440)) ∧
    Runs (.jncClear path port) s (asked (jncBase port + 0x40)) ∧ Runs (.collClear path) s (asked (collBase + 0x30)) ∧
    Runs (.cmdClear path (port % 2)) s (asked (cmdBase (port % 2) + 0x48)) ∧ Runs (.pwrClear path) s (asked (pwrBase + 0x50)) ∧
    Runs (.fpwClear path field) s (asked (fieldBase field + 0x38)) ∧ Runs (.hltFclear path) s (asked (hltBase + 0x160)) ∧
    ((arbUnit base).isSome = true → Runs (.arbSwap path base) s (fun t => t.cmd.swaps = setInsert s.w.cmd.swaps base ∧
      t.cmd.clears = s.w.cmd.clears ∧ t.canal = s.w.canal ∧ s.w.sameMemory t))) : Prop) ∧
  ((
  (∀ (w : Wafer) (ctl base : Nat) (b : Blk) (f : Fld), blockOf ctl = some (b, base) → f ∈ clearSet b →
    (w.clearBlock ctl).rd base f = 0 ∧ (w.clearBlock ctl).rd base f.ovf = 0) ∧
  (∀ (w : Wafer) (ctl base : Nat) (b : Blk) (f : Fld), blockOf ctl = some (b, base) →
    (b = .seq → f ∈ [Reg.vecOps, Reg.vecSfu, Reg.vecSround, Reg.movBytes] → (w.clearBlock ctl).rd (base + 0x1000) f = 0 ∧
      (w.clearBlock ctl).rd (base + 0x1000) f.ovf = 0) ∧
    (f ∈ clearExtra b → (w.clearBlock ctl).rd base f = fieldReset (f.at base).key)) ∧
  ∀ (w : Wafer) (base k : Nat), k < 256 →
    let t := w.arbExchange base
    t.arbTable base = w.arbShadow base ∧ (∀ b, b ≠ base → t.arbTable b = w.arbTable b) ∧ w.sameMemory t ∧ t.cmd = w.cmd ∧
    (∀ o, (w.arbTable base).owners.find? (fun x => x.1 == k) = some (k, o) → t.rd base (Reg.arbSlotValid k) = 1 ∧
      t.rd base (Reg.arbSlotOwner k) = o % 2 ^ 5) ∧
    ((w.arbTable base).owners.find? (fun x => x.1 == k) = none → t.rd base (Reg.arbSlotValid k) = 0)) : Prop)

/-! ## Canal planes (chapter 7) -/

/-- The four sends inject their flits in order (R110, R156, R158, R161, R163).
On an issuing core with unused fields zero, an aligned unpoisoned descriptor that passes the checks of R156 and fewer than 16 sends
outstanding, SEND, MCAST and CONF append one flit per 256 bytes (224 to another module) of the source, in order, each at the sender's router
with the flit's kind, its bytes and DADDR moved on by its place; POST appends one flit with VALUE and its semaphore. The send joins the
core's list with its LSEM; no memory, other core or unit changes. With 16 outstanding, or while a bank group of the cluster memory they read
grants nothing, they hold; a descriptor that fails a check is CANAL_PARAM.
A send completes when its last flit has left (R158). SEND_COMPLETE of the send at place idx takes it off the core's list, marks its flits as gone from the local port, and adds 1 to LSEM unless
that is 0xFF; a semaphore at 65,535 is CORE_SEM instead and keeps its value. Nothing else of the core and no memory changes. While the local
buffers have no credits for its flits that have not left, or their router is shut, it has not completed and nothing changes.
A flit takes one hop of its dimension order (R150, R155, R169). With no word in error, a flit that is no multicast and on no ring moves along X first on canal A and along Y first on canal B to the next
router, on VC0, where that router is inside the array and not shut and its buffer has a credit; without a credit, and at its destination, it
stays, and so does one that has not left a shut router (R148). The hop is counted in RTR_FLITS. A flit whose
next router is outside the array is discarded with code 1: RTR_DISC
shows it, and while a job runs a discard of its flit is a job fault. No memory and no core changes otherwise. -/
def Obligations.CanalSendsInjectTheirFlits : Prop :=
  ((
  ((
  ∀ (i : Issue) (s : State) (k : Instr) (op : CnlOp) (kind : Nat), s.issuing i → i.d = 0 → i.b = 0 → i.c = 0 →
    (k, op, kind) ∈ [(Instr.cnlSend i, CnlOp.send, 0), (.cnlMcast i, .mcast, 1), (.cnlConf i, .conf, 2), (.cnlPost i, .post, 3)] →
    let c := s.w.core i.site
    let a := s.w.descAddr i
    let d := canalDescOf (s.w.coreBytes i.site a 32)
    let mem := if d.sspace = 0 then s.w.coreMem else s.w.cluMem
    let src := if d.sspace = 0 then coreAddr i.site d.src else cluAddr (siteCluster i.site) d.src
    let n := if kind = 3 then 1 else d.len
    let shut := kind ≠ 3 ∧ d.sspace = 1 ∧ s.w.groupsShut (siteCluster i.site) d.src (d.unit * d.len) = true
    let held := fun (t : Wafer) => t.pcOf i.site = s.w.pcOf i.site ∧ t.rd (siteBase i.site) Reg.seqStatHeld = 1 ∧
      { t.core i.site with wait := c.wait } = c ∧ t.canal = s.w.canal ∧ s.w.sameMemory t
    (a % 16 = 0 → a + 32 ≤ 2 ^ 24 → s.w.coreMem.badIn (coreAddr i.site a) 32 = false → c.sends.length < 16 → d.ok op s.w i.site = true →
      (shut → Runs k s held) ∧
      (¬ shut → Runs k s (fun t => t.issuedAt i (s.w.pcNext i) ∧ (t.core i.site).sends = c.sends ++ [⟨c.serial + 1, d.lsem⟩] ∧
        { t.core i.site with sends := c.sends, serial := c.serial } = c ∧ s.w.sameOtherCores t i.site ∧ s.w.sameMemory t ∧
        ∃ fs, t.canal = { s.w.canal with flits := s.w.canal.flits ++ fs } ∧ fs.length = n ∧ ∀ j f, fs[j]? = some f →
          f.kind = kind ∧ f.x = siteX i.site ∧ f.y = siteY i.site ∧ f.left = false ∧ f.port = 4 ∧ f.leg = 0 ∧ f.ring = none ∧
          (d.runit = 255 → f.dx = d.dx ∧ f.dy = d.dy) ∧ (kind = 2 → f.carried = 1 ∧ f.count = d.count ∧ f.tag = d.tag) ∧
          (kind = 3 → f.daddr = d.len % 2 ^ 16 ∧ f.sem = some d.sem) ∧
          (kind < 3 → f.payload = mem.read (src + d.unit * j) d.unit ∧ f.daddr = (d.daddr + d.unit * j) % 2 ^ 40)))) ∧
    (16 ≤ c.sends.length → Runs k s held) ∧
    (a % 16 = 0 → a + 32 ≤ 2 ^ 24 → s.w.coreMem.badIn (coreAddr i.site a) 32 = false → c.sends.length < 16 → d.ok op s.w i.site = false →
      Runs k s (fun t => t = ((s.w.recordFirst (cnlBase i.site) Reg.cnlFaultValid
        [(Reg.cnlFaultCode, 1), (Reg.cnlFaultAddr, a), (Reg.cnlFaultTag, 0)]).coreStop i.site).jobFault 0x0501 (detailSite i.site)))) : Prop) ∧
  ((
  ∀ (site idx : Nat) (s : State) (x : Send), site < 2240 → (s.w.core site).sends[idx]? = some x →
    let c := s.w.core site
    let left := fun (t : Wafer) => s.w.sameMemory t ∧ s.w.sameOtherCores t site ∧ t.canal.flits = s.w.canal.flits.map fun f =>
      if f.src = site + 4096 * x.serial then { f with left := true } else f
    let mine := fun (p : Nat) => countIf (fun (f : Flit) => f.src == site + 4096 * x.serial && !f.left && f.plane == p) s.w.canal.flits
    let room := ∀ p, p < 2 → mine p = 0 ∨
      (s.w.buffered p (siteX site) (siteY site) 4 0 + mine p ≤ 8 ∧ s.w.routerShut p (siteX site) (siteY site) = false)
    (¬ room → Runs (.sendComplete site idx) s (fun t => t = s.w)) ∧
    (room → x.lsem = 0xFF ∨ c.semGet x.lsem + 1 ≤ 65535 → Runs (.sendComplete site idx) s (fun t => left t ∧
      (t.core site).sends = dropAt c.sends idx ∧ { t.core site with sends := c.sends, sem := c.sem } = c ∧
      (∀ j, (t.core site).semGet j = c.semGet j + b2n (decide (j = x.lsem ∧ x.lsem ≠ 0xFF))) ∧
      t.rd (cnlBase site) Reg.cnlStatSends = (c.sends.length - 1) % 32)) ∧
    (room → x.lsem ≠ 0xFF → 65535 < c.semGet x.lsem + 1 → Runs (.sendComplete site idx) s (fun t => ∃ v : Wafer, left v ∧
      (v.core site).sends = dropAt c.sends idx ∧ (v.core site).sem = c.sem ∧ t = v.coreFault site 4 (s.w.pcOf site)))) : Prop)) : Prop) ∧
  ((
  ∀ (idx : Nat) (s : State) (f : Flit) (x y : Nat), s.w.flitAt idx = some f → f.kind ≠ 1 → f.ring = none → f.plane < 2 →
    let clean : FlitError := ⟨0, [], 0⟩
    let free := f.left = true ∨ s.w.routerShut f.plane f.x f.y = false
    let xFirst := f.plane = 0 ∨ f.y = f.dy
    let yFirst := f.plane ≠ 0 ∨ f.x = f.dx
    let goes := (xFirst ∧ f.x < f.dx ∧ x = f.x + 1 ∧ y = f.y) ∨ (xFirst ∧ f.dx < f.x ∧ x + 1 = f.x ∧ y = f.y) ∨
      (yFirst ∧ f.y < f.dy ∧ y = f.y + 1 ∧ x = f.x) ∨ (yFirst ∧ f.dy < f.y ∧ y + 1 = f.y ∧ x = f.x)
    let b := rtrBase (flitRouter f)
    let gone := fun (code : Nat) (t : Wafer) => t.canal.flits = dropAt s.w.canal.flits idx ∧ t.cores = s.w.cores ∧ s.w.sameMemory t ∧
      (s.w.rd b Reg.rtrDiscValid ≠ 1 → t.rd b Reg.rtrDiscValid = 1 ∧ t.rd b Reg.rtrDiscCode = code ∧
        t.rd b Reg.rtrDiscDx = f.dx % 2 ^ 6 ∧ t.rd b Reg.rtrDiscDy = f.dy % 2 ^ 6)
    let g := f.goTo (x, y) 0
    (¬ free → Runs (.canalFlitHop idx clean) s (fun t => t = s.w)) ∧
    (goes → atSite x y = true → s.w.routerShut f.plane x y = false → 8 ≤ s.w.buffered g.plane g.x g.y g.port g.vc →
      Runs (.canalFlitHop idx clean) s (fun t => t = s.w)) ∧
    (free → goes → atSite x y = true → s.w.routerShut f.plane x y = false → s.w.hasRoom g = true → Runs (.canalFlitHop idx clean) s (fun t =>
      g.x = x ∧ g.y = y ∧ g.vc = 0 ∧ g.left = true ∧ t.canal = { s.w.canal with flits := listSet s.w.canal.flits idx g } ∧
      (s.w.rd b Reg.rtrFlits + 1 < 2 ^ 48 - 1 → t.rd b Reg.rtrFlits = s.w.rd b Reg.rtrFlits + 1) ∧ t.cores = s.w.cores ∧ s.w.sameMemory t)) ∧
    (f.x = f.dx → f.y = f.dy → Runs (.canalFlitHop idx clean) s (fun t => t = s.w)) ∧
    (free → goes → atSite x y = false → (f.job && s.w.running) = false → Runs (.canalFlitHop idx clean) s (gone 1)) ∧
    (free → goes → atSite x y = false → (f.job && s.w.running) = true → Runs (.canalFlitHop idx clean) s (fun t =>
      ∃ v : Wafer, gone 1 v ∧ t = v.jobFault 0x0511 (detailSite (flitRouter f / 2))))) : Prop)

/-- A flit at its destination writes its bytes and posts its semaphore (R157).
At a core that takes flits, a unicast flit, or a multicast copy for the local port, whose bytes lie within the memory DSPACE names and outside the
code region, writes them at DADDR, every other byte of that memory and the other memories unchanged, adds 1 to its semaphore if it names one,
and leaves the network. A SIGNAL adds its VALUE and writes nothing. A post that would take the semaphore past
65,535 is CORE_SEM (0x04) at the receiver, the bytes written. At a core that does not take flits the flit is discarded, code DEST. With 16
flits waiting for the landing table, or a bank group it writes that grants nothing, it stays in its router (R166, R23). -/
def Obligations.FlitsDeliverAtTheirCore : Prop :=
  ∀ (idx : Nat) (s : State) (f : Flit) (t0 : Nat), s.w.flitAt idx = some f → f.kind ≠ 2 → atCore f = true → siteOfXY f.x f.y = some t0 →
    let c := s.w.core t0
    let k := if f.dspace = 0 then coreAddr t0 f.daddr else cluAddr (siteCluster t0) f.daddr
    let v := if f.kind = 3 then f.daddr % 2 ^ 16 else 1
    let posted := fun (t : Wafer) => t.canal = { s.w.canal with flits := dropAt s.w.canal.flits idx } ∧ s.w.sameOtherCores t t0 ∧
      { t.core t0 with sem := c.sem, xsems := c.xsems } = c ∧ t.regs = s.w.regs ∧ (f.src ≠ portSource → (t.core t0).xsems = c.xsems) ∧
      ∀ j, (t.core t0).semGet j = c.semGet j + (if f.sem = some j then v else 0)
    let shut := f.dspace = 1 ∧ s.w.groupsShut (siteCluster t0) f.daddr f.len = true
    let lands := landingOk s.w t0 f.dspace f.daddr f.len = true
    (s.w.takesFlits t0 = true → 16 ≤ c.waiting.length ∨ (f.kind ≠ 3 ∧ lands ∧ shut) → Runs (.canalFlitDeliver idx) s (fun t => t = s.w)) ∧
    (c.waiting.length < 16 → (∀ j, f.sem = some j → c.semGet j + v ≤ 65535) → s.w.takesFlits t0 = true → f.kind ≠ 3 → lands → ¬ shut →
      Runs (.canalFlitDeliver idx) s (fun t => posted t ∧
        (∀ n, n < f.payload.length → (t.spaceMem f.dspace).get (k + n) = f.payload.getD n 0#8) ∧
        (∀ a, (a < k ∨ k + f.payload.length ≤ a) → (t.spaceMem f.dspace).get a = (s.w.spaceMem f.dspace).get a) ∧
        (∀ j, j ≤ 2 → j ≠ f.dspace → t.spaceMem j = s.w.spaceMem j) ∧ t.stkMem = s.w.stkMem)) ∧
    (c.waiting.length < 16 → (∀ j, f.sem = some j → c.semGet j + v ≤ 65535) → s.w.takesFlits t0 = true → f.kind = 3 →
      Runs (.canalFlitDeliver idx) s (fun t => posted t ∧ s.w.sameMemory t)) ∧
    (∀ j, c.waiting.length < 16 → f.sem = some j → 65535 < c.semGet j + v → s.w.takesFlits t0 = true → (f.kind = 3 ∨ (lands ∧ ¬ shut)) →
      Runs (.canalFlitDeliver idx) s (fun t => (t.core t0).semGet j = c.semGet j ∧ t.rd (siteBase t0) Reg.seqFaultValid = 1 ∧
        (s.w.rd (siteBase t0) Reg.seqFaultValid ≠ 1 → t.rd (siteBase t0) Reg.seqFaultCode = 4) ∧
        (f.kind ≠ 3 → ∀ n, n < f.payload.length → (t.spaceMem f.dspace).get (k + n) = f.payload.getD n 0#8))) ∧
    (s.w.takesFlits t0 = false → (f.job && s.w.running) = false → Runs (.canalFlitDeliver idx) s (fun t =>
      t.canal = { s.w.canal with flits := dropAt s.w.canal.flits idx } ∧ t.cores = s.w.cores ∧ s.w.sameMemory t))

/-- Routers and landing tables sum CONF flits (R163 to R166).
At a router on the way, a CONF flit on VC0 with no buffer of its key takes a free one of 64, or passes on when none is free; one whose key is
held is added: below COUNT the buffer keeps the sum, at COUNT the sum goes on as a flit and the buffer is free. A sum sent on merges no more at
this router, and a shut router merges none. A buffer's timeout sends its sum on with PARTIAL set. At its core a CONF flit of a new key takes an entry of the landing table, or waits behind a full one; one held is added, and
the entry that reaches COUNT writes its 256 bytes and posts. With 16 flits waiting, or a bank group it writes that grants nothing, a flit stays. A flit that waits too long is CONF_STALE (code 4). -/
def Obligations.ConfluenceSumsAtRoutersAndCores : Prop :=
  ∀ (idx : Nat) (s : State) (f : Flit), s.w.flitAt idx = some f → f.kind = 2 →
    let r := flitRouter f
    let l := s.w.confBufs r
    let t0 := (siteOfXY f.x f.y).getD 0
    let c := s.w.core t0
    let rest := dropAt s.w.canal.flits idx
    let frame := fun (t : Wafer) => t.cores = s.w.cores ∧ s.w.sameMemory t ∧ t.canal.rectsA = s.w.canal.rectsA ∧ t.canal.arbs = s.w.canal.arbs ∧
      ∀ q, q ≠ r → t.confBufs q = s.w.confBufs q
    ((f.port = 5 ∨ s.w.routerShut f.plane f.x f.y = true ∨ f.vc = 1 ∨ atCore f = true) → Runs (.confMerge idx) s (fun t => t = s.w)) ∧
    (atCore f = false → f.vc ≠ 1 → f.port ≠ 5 → s.w.routerShut f.plane f.x f.y = false →
      (l.all (fun b => !b.holds f) = true → f.carried < f.count → l.length < 64 → Runs (.confMerge idx) s (fun t => frame t ∧
        t.confBufs r = l ++ [confOf f] ∧ t.canal.flits = rest)) ∧
      (l.all (fun b => !b.holds f) = true → 64 ≤ l.length → Runs (.confMerge idx) s (fun t => t = s.w)) ∧
      (∀ j b, indexOf? (fun (b : ConfBuf) => b.holds f) l = some j → l[j]? = some b →
        (b.merge f).carried = b.carried + f.carried ∧
        (b.carried + f.carried < b.count → Runs (.confMerge idx) s (fun t => frame t ∧
          t.confBufs r = listSet l j (b.merge f) ∧ t.canal.flits = rest)) ∧
        (b.count ≤ b.carried + f.carried → Runs (.confMerge idx) s (fun t => frame t ∧
          t.confBufs r = dropAt l j ∧ t.canal.flits = rest ++ [(b.merge f).flit f.plane f.x f.y false])))) ∧
    (atCore f = true → s.w.takesFlits t0 = true → landingOk s.w t0 f.dspace f.daddr 256 = true →
      (16 ≤ c.waiting.length ∨ s.w.sumShut t0 f = true) → Runs (.confLanding idx) s (fun t => t = s.w)) ∧
    (atCore f = true → s.w.takesFlits t0 = true → landingOk s.w t0 f.dspace f.daddr 256 = true → c.waiting = [] → s.w.sumShut t0 f = false →
      (c.landing.all (fun b => !b.holds f) = true →
          c.landing.all (fun b => !(b.tag == f.tag && b.daddr == f.daddr && b.count != f.count)) = true →
        (c.landing.length < 128 → f.carried < f.count → Runs (.confLanding idx) s (fun t => t.canal.flits = rest ∧ s.w.sameMemory t ∧
          t.core t0 = { c with landing := c.landing ++ [confOf f] } ∧ s.w.sameOtherCores t t0)) ∧
        (128 ≤ c.landing.length → Runs (.confLanding idx) s (fun t => t.canal.flits = rest ∧ s.w.sameMemory t ∧
          t.core t0 = { c with waiting := [f] } ∧ s.w.sameOtherCores t t0))) ∧
      (∀ j b, indexOf? (fun (b : ConfBuf) => b.holds f) c.landing = some j → c.landing[j]? = some b → b.count = b.carried + f.carried →
          b.dspace ≤ 1 → (∀ k, b.sem = some k → c.semGet k + 1 ≤ 65535) → Runs (.confLanding idx) s (fun t => t.canal.flits = rest ∧
        { t.core t0 with sem := c.sem } = { c with landing := dropAt c.landing j } ∧ s.w.sameOtherCores t t0 ∧
        (∀ k, (t.core t0).semGet k = c.semGet k + b2n (decide (b.sem = some k))) ∧
        ∀ n, n < 256 → (t.spaceMem b.dspace).get ((if b.dspace = 0 then coreAddr t0 b.daddr else cluAddr (siteCluster t0) b.daddr) + n) =
          (wordsLE (b.merge f).data).getD n 0#8))) ∧
    (∀ router j b, router < 4480 → (s.w.confBufs router)[j]? = some b → Runs (.confBufferTimeout router j) s (fun t =>
      t.confBufs router = dropAt (s.w.confBufs router) j ∧ t.cores = s.w.cores ∧ s.w.sameMemory t ∧
      t.canal.flits = s.w.canal.flits ++ [b.flit (router % 2) (siteX (router / 2)) (siteY (router / 2)) true])) ∧
    (∀ site j g, site < 2240 → (s.w.core site).waiting[j]? = some g → Runs (.canalLanding site j) s (fun t => ∃ v : Wafer,
      v.core site = { s.w.core site with waiting := dropAt (s.w.core site).waiting j } ∧ s.w.sameMemory v ∧ v.canal = s.w.canal ∧
      t = v.canalFault site 4 g))

/-- Fences, rectangles and a bite (R23, R168, R175).
FENCE_MESSAGE, for a unit that Table 7-5 names, puts the unit's fence at the end of the standing fences with the next serial number, so that
the unit is fenced, and asks for its FENCED status at the next boundary; no fence of another unit is lifted, and cluster, stack, chamber and firmware memory keep their contents.
RECT adds a rectangle to its plane's list and leaves the other plane's; the flits held in the routers that it newly fences are lost, and no
others. A message of a source and sequence number that has been heard changes nothing (R167). A bite of an arbiter fences it, and is the job fault SHEEPDOG (0x0520)
while a job is armed or running.
A job fault stops the job and keeps what Table 12-8 keeps (R369). In ARMED or RUNNING, JOB_FAULT with the job's tag enters STOPPED with the job marked as faulted, the first class since ARM kept, running chains and
the collective ended, and the placement, image, tag and all memories as they were. In STOPPED after a
fault a further one is only counted: job, cores and memories stay. Otherwise it is reported as a status and changes no job. The message of
another job than the armed or running one changes nothing but what the node has heard. -/
def Obligations.FencesAndRectanglesStand : Prop :=
  ((
  ∀ (source seq : Nat) (s : State),
    (s.w.scnKnown source seq = true → (∀ u cause, Runs (.fenceMessage ⟨source, seq⟩ ⟨u, cause⟩) s (fun t => t = s.w)) ∧
      (∀ plane r, Runs (.rect ⟨source, seq⟩ ⟨plane, r⟩) s (fun t => t = s.w)) ∧
      (∀ tag cls detail, Runs (.jobFault ⟨source, seq⟩ ⟨tag, cls, detail⟩) s (fun t => t = s.w))) ∧
    (s.w.scnKnown source seq = false → ∀ u cause, unitOk u = true → fenceTold u = true → Runs (.fenceMessage ⟨source, seq⟩ ⟨u, cause⟩) s (fun t =>
      t.fenced u = true ∧ t.scnKnown source seq = true ∧
      t.fences = s.w.fences.filter (fun r => r.unit != u) ++ [⟨u, s.w.fenceSerial, none⟩] ∧ t.fenceSerial = s.w.fenceSerial + 1 ∧
      t.raised = s.w.raised ++ [(u, cause)] ∧ (∀ v, v ≠ u → t.fenced v = s.w.fenced v) ∧
      t.cluMem = s.w.cluMem ∧ t.stkMem = s.w.stkMem ∧ t.chamber = s.w.chamber ∧ t.fwMem = s.w.fwMem)) ∧
    (s.w.scnKnown source seq = false → ∀ r,
      let lost := fun (plane : Nat) (l : List Rect) (t : Wafer) => t.cores = s.w.cores ∧ s.w.sameMemory t ∧ t.scnKnown source seq = true ∧
        (∀ f ∈ t.canal.flits, f ∈ s.w.canal.flits) ∧
        (∀ f ∈ s.w.canal.flits, f.left = false ∨ f.plane ≠ plane ∨ l.all (fun q => !rectHas q f.x f.y) = true → f ∈ t.canal.flits) ∧
        (∀ f ∈ t.canal.flits, ∀ site, f.left = true → f.plane = plane → siteOfXY f.x f.y = some site → s.w.routerFenced (2 * site + plane) = false →
          l.all (fun q => !rectHas q f.x f.y) = true)
      Runs (.rect ⟨source, seq⟩ ⟨0, r⟩) s (fun t => t.canal.rectsA = addRect s.w.canal.rectsA r ∧ t.canal.rectsB = s.w.canal.rectsB ∧
        lost 0 t.canal.rectsA t) ∧
      Runs (.rect ⟨source, seq⟩ ⟨1, r⟩) s (fun t => t.canal.rectsB = addRect s.w.canal.rectsB r ∧ t.canal.rectsA = s.w.canal.rectsA ∧
        lost 1 t.canal.rectsB t)) ∧
    (∀ base oldest u, arbUnit base = some u → Runs (.arbSheepdogBite base oldest) s (fun t => t.fenced u = true ∧
      (s.w.armedOrRunning = true → t.job.phase = .stopped ∧ t.job.faulted = true) ∧ t.cluMem = s.w.cluMem ∧ t.stkMem = s.w.stkMem))) : Prop) ∧
  ((
  ∀ (source seq tag cls detail : Nat) (s : State), s.w.scnKnown source seq = false →
    (s.w.armedOrRunning = true → tag ≠ s.w.job.tag → Runs (.jobFault ⟨source, seq⟩ ⟨tag, cls, detail⟩) s (fun t => t = s.w.scnHear source seq)) ∧
    (s.w.armedOrRunning = true → tag = s.w.job.tag → Runs (.jobFault ⟨source, seq⟩ ⟨tag, cls, detail⟩) s (fun t => t.job.phase = .stopped ∧ t.job.faulted = true ∧
      t.job.firstFault = (if s.w.job.firstFault = 0 then cls else s.w.job.firstFault) ∧ t.job.tagsDue = some ⟨cls, detail⟩ ∧
      t.job.placement = s.w.job.placement ∧ t.job.image = s.w.job.image ∧ t.job.tag = s.w.job.tag ∧ t.job.t0 = s.w.job.t0 ∧
      t.reduce.runs = [] ∧ t.reduce.run = none ∧ t.reduce.chains = s.w.reduce.chains ∧ t.fences = s.w.fences ∧
      t.stackRecs = s.w.stackRecs ∧ t.tiers = s.w.tiers ∧ s.w.sameMemory t)) ∧
    (s.w.job.phase = .stopped → s.w.job.faulted = true → Runs (.jobFault ⟨source, seq⟩ ⟨tag, cls, detail⟩) s (fun t => t.job = s.w.job ∧ t.cores = s.w.cores ∧
      t.engines = s.w.engines ∧ t.canal = (s.w.scnHear source seq).canal ∧ t.reduce = s.w.reduce ∧ s.w.sameMemory t ∧
      (s.w.rd hltBase Reg.hltJobfaults + 1 < 2 ^ 48 - 1 → t.rd hltBase Reg.hltJobfaults = s.w.rd hltBase Reg.hltJobfaults + 1))) ∧
    (s.w.armedOrRunning = false → ¬ (s.w.job.phase = .stopped ∧ s.w.job.faulted = true) → Runs (.jobFault ⟨source, seq⟩ ⟨tag, cls, detail⟩) s (fun t =>
      t.job = s.w.job ∧ t.cmd.posts.getLast? = some ⟨cls, detail⟩ ∧ t.cores = s.w.cores ∧ t.reduce = s.w.reduce ∧ s.w.sameMemory t))) : Prop)

/-! ## Stacks and the quay (chapter 8) -/

/-- A stack controller serves WRITE, ACC, READ and acknowledgements (R180 to R185).
For a flit at a gateway of its stack that passes the checks of R184 and whose lines lie in no fenced channel: WRITE leaves the line holding the
flit's words; ACC leaves each of its 32 words the sum, as FP32 pairs, of the line and the flit; READ sends one flit per line asked for, with the
line as it stands, and changes no memory. The first two leave every other byte; all three take the flit off the network and count. A WRITE that asks for an
acknowledgement opens a gathering entry, or adds to one; RIM_ACK sends a gathered one as a SIGNAL with its count.
A flit that a stack controller must discard changes no line (R184, R186). A write or accumulate flit whose address is not a multiple of 256 is discarded with code 1: outside a running job the memories keep every byte
and STK_RIMFAULT, when it holds nothing, shows code 1 with the operation, and the discard is counted. A flit with ROP 3 is discarded with code 2 by whichever command meets
it. -/
def Obligations.StackControllersServeRimFlits : Prop :=
  ((
  ∀ (idx : Nat) (s : State) (f : Flit) (lines : Nat), s.w.flitAt idx = some f → atRim f = true →
    lines = (if f.rop = 2 then readLines f else 1) → rimCheck s.w f lines = none →
    (∀ j, j < lines → s.w.lineFenced f.runit (f.daddr + 256 * j) = false) →
    let a := stkAddr f.runit f.daddr
    let b := stkBase f.runit
    let rest := dropAt s.w.canal.flits idx
    let frame := fun (t : Wafer) => { s.w.unnoted t with canal := s.w.canal, stkMem := s.w.stkMem, stackRecs := s.w.stackRecs } = s.w
    (f.rop = 0 → Runs (.rimWrite idx) s (fun t => frame t ∧ t.canal.flits.take rest.length = rest ∧
      s.w.stkMem.holdsAt t.stkMem a (wordsLE f.data))) ∧
    (f.rop = 0 → f.sem = none → Runs (.rimWrite idx) s (fun t => t.stackRecs = s.w.stackRecs ∧ t.canal.flits = rest ∧
      s.w.countedBy t b Reg.stkWrites 1)) ∧
    (∀ k, f.rop = 0 → f.sem = some k → (s.w.stack f.runit).gathers.all (fun g => !(g.x == f.x1 && g.y == f.y1 && g.sem == k)) = true →
      Runs (.rimWrite idx) s (fun t => (t.stack f.runit).gathers = (s.w.stack f.runit).gathers ++ [⟨f.x1, f.y1, k, 1⟩] ∧ t.canal.flits = rest)) ∧
    (f.rop = 1 → f.sem = none → Runs (.rimAcc idx) s (fun t => frame t ∧ t.canal.flits = rest ∧ t.stackRecs = s.w.stackRecs ∧
      s.w.stkMem.holdsAt t.stkMem a (wordsLE ((List.range 32).map fun n =>
        addWord ((wordsOf (s.w.stkMem.read a 256) 32).getD n 0#64) (f.data.getD n 0#64))) ∧ s.w.countedBy t b Reg.stkAccs 1)) ∧
    (f.rop = 2 → Runs (.rimRead idx) s (fun t => s.w.onlyNotes { t with canal := s.w.canal } ∧ s.w.countedBy t b Reg.stkReads lines ∧
      ∃ fs, t.canal.flits = rest ++ fs ∧ fs.length = lines ∧ ∀ j g, fs[j]? = some g →
        g.kind = 0 ∧ g.data = wordsOf (s.w.stkMem.read (a + 256 * j) 256) 32 ∧
        g.dx = bits (f.data.getD 0 0#64).toNat 42 6 ∧ g.dy = bits (f.data.getD 0 0#64).toNat 48 6 ∧
        g.daddr = (bits (f.data.getD 0 0#64).toNat 0 40 + 256 * j) % 2 ^ 40)) ∧
    (∀ stack j g, stack < 32 → (s.w.stack stack).gathers[j]? = some g → Runs (.rimAck stack j) s (fun t =>
      (t.stack stack).gathers = dropAt (s.w.stack stack).gathers j ∧ s.w.sameMemory t ∧ t.cores = s.w.cores ∧
      ∃ sg, t.canal.flits = s.w.canal.flits ++ [sg] ∧ sg.kind = 3 ∧ sg.dx = g.x ∧ sg.dy = g.y ∧ sg.sem = some g.sem ∧ sg.daddr = g.count))) : Prop) ∧
  ((
  ∀ (idx : Nat) (s : State) (f : Flit), s.w.flitAt idx = some f → atRim f = true → s.w.running = false →
    let b := stkBase f.runit
    let gone := fun (code : Nat) (t : Wafer) => s.w.sameMemory t ∧ t.canal.flits = dropAt s.w.canal.flits idx ∧
      (t.stack f.runit).discards = (s.w.stack f.runit).discards + 1 ∧
      (s.w.rd b Reg.stkRimfaultValid ≠ 1 → t.rd b Reg.stkRimfaultValid = 1 ∧ t.rd b Reg.stkRimfaultCode = code ∧
        t.rd b Reg.stkRimfaultRop = f.rop % 4)
    (f.rop = 0 → f.daddr % 256 ≠ 0 → Runs (.rimWrite idx) s (gone 1)) ∧ (f.rop = 1 → f.daddr % 256 ≠ 0 → Runs (.rimAcc idx) s (gone 1)) ∧
    (f.rop = 2 → f.daddr % 256 ≠ 0 → Runs (.rimRead idx) s (gone 1)) ∧
    (f.rop = 3 → Runs (.rimWrite idx) s (gone 2) ∧ Runs (.rimAcc idx) s (gone 2) ∧ Runs (.rimRead idx) s (gone 2))) : Prop)

/-- Host accesses reach the quay windows and the chambers (R187, R283).
A write within a port's 64 GiB quay window leaves every enabled byte q of it in stack ⌊q / 4,096⌋ mod 32, at
offset ⌊q / 131,072⌋ × 4,096 + (q mod 4,096) of the port's half of that stack's quay, and every other byte of the stacks as it was. A read there, or in the 4 MiB chamber behind it, answers the 64 bytes that hold the address with their
poison and changes nothing. While a line of the range is out of reach (R23) the access waits and nothing changes. A chamber write leaves its
bytes in the chamber, and nothing else changes. -/
def Obligations.HostAccessesReachQuayAndChamber : Prop :=
  ∀ (port addr : Nat) (data : List Byte) (enable : List Bool) (s : State), port < 2 →
    let qa := port * 2 ^ 36
    let c := addr / 64 * 64
    let byte := fun (q : Nat) => stkAddr (q / 4096 % 32) (s.w.quayStart (q / 4096 % 32) + port * 2 ^ 31 + q / 131072 * 4096 + q % 4096)
    let only := fun (t : Wafer) (b : List Byte) (p : Bool) => { t with out := s.w.out } = s.w ∧ t.out = s.w.out ++ [.readData b p]
    (addr + data.length ≤ 2 ^ 36 → s.w.quayShut (qa + addr) data.length = true → Runs (.cxlMemWrite port addr data enable) s (fun t => t = s.w)) ∧
    (addr < 2 ^ 36 → s.w.quayShut (qa + c) 64 = true → Runs (.cxlMemRead port addr) s (fun t => t = s.w)) ∧
    (addr + data.length ≤ 2 ^ 36 → s.w.quayShut (qa + addr) data.length = false →
      Runs (.cxlMemWrite port addr data enable) s (fun t => { t with stkMem := s.w.stkMem } = s.w ∧
        (∀ n, n < data.length → enable.getD n false = true → t.stkMem.get (byte (addr + n)) = data.getD n 0#8) ∧
        (∀ a, (∀ n, n < data.length → enable.getD n false = true → a ≠ byte (addr + n)) →
          t.stkMem.get a = s.w.stkMem.get a))) ∧
    (addr < 2 ^ 36 → s.w.quayShut (qa + c) 64 = false → Runs (.cxlMemRead port addr) s (fun t => only t ((List.range 64).map fun i => s.w.stkMem.get (byte (c + i))) (s.w.quayBad (qa + c) 64))) ∧
    (2 ^ 36 ≤ addr → addr < 2 ^ 36 + 2 ^ 22 → Runs (.cxlMemRead port addr) s (fun t =>
      only t (s.w.chamber.read (chamberAddr port (c - 2 ^ 36)) 64) (s.w.chamber.badIn (chamberAddr port (c - 2 ^ 36)) 64))) ∧
    (addr + data.length ≤ 2 ^ 22 → Runs (.chamberWrite port addr data) s (fun t => { t with chamber := s.w.chamber } = s.w ∧
      s.w.chamber.holdsAt t.chamber (chamberAddr port addr) data))

/-! ## Memory tiers (chapter 8) -/

/-- PREFETCH, RELEASE and GET act on the cluster's tier (R196 to R198).
On an issuing core with unused fields zero and an aligned, unpoisoned descriptor within Table 8-6: PREFETCH takes its pages in order, each one
held by a frame gaining the pin, each other one taking a frame with the pin or being dropped and counted; RELEASE ends the pins of the
frames of the pages it names and keeps every other; GET joins the outstanding GETs, its generation captured, and counts the heat of its pages.
Each issues, changes no memory, no core and no other cluster's tier. With 16 prefetches or 8 GETs of the core outstanding they hold; a bad
descriptor is TIER_PARAM.
A prefetched page gains a pin, a frame, or is dropped (R195, R197). For one page of a prefetch: a frame that holds it in the generation's buffer gains the pin; else the frame that the placement rule finds is
given to it with the pin alone; else it is dropped and counted in TIR_PFDROP. No other frame changes. -/
def Obligations.TierInstructionsReachTheTier : Prop :=
  ((
  ∀ (i : Issue) (s : State), s.issuing i → i.d = 0 → i.b = 0 → i.c = 0 →
    let a := s.w.descAddr i
    let l := s.w.coreBytes i.site a 32
    let d := pagesDesc l
    let cl := siteCluster i.site
    let old := s.w.tier cl
    let buf := s.w.bufOf d.2.2.2
    let dl := (s.w.tick + d.2.2.1) % 2 ^ 48
    let pin : Pin := ⟨dl, (dl + s.w.rd (tirBase cl) Reg.tirHeatHold) % 2 ^ 48⟩
    let view := fun (fs : List CacheFrame) => fs.map fun f => (f.num, f.page, f.buf, f.filled, f.pins)
    let frame := fun (t : Wafer) => t.issuedAt i (s.w.pcNext i) ∧ t.cores = s.w.cores ∧ s.w.sameMemory t ∧ ∀ k, k ≠ cl → t.tier k = s.w.tier k
    let held := fun (t : Wafer) => t.pcOf i.site = s.w.pcOf i.site ∧ t.rd (siteBase i.site) Reg.seqStatHeld = 1 ∧ t.tiers = s.w.tiers ∧
      t.cores = s.w.cores ∧ s.w.sameMemory t
    let named := fun (f : CacheFrame) => f.buf == buf && decide (d.1 ≤ f.page ∧ f.page < d.1 + d.2.1)
    let refused := fun (t : Wafer) => t = ((s.w.recordFirst (tirBase cl) Reg.tirFaultValid
      [(Reg.tirFaultCode, 1), (Reg.tirFaultSite, i.site % 5), (Reg.tirFaultDesc, a)]).coreStop i.site).jobFault 0x0601 (detailSite i.site)
    let pulling := countIf (fun (p : Nat × Nat × List Nat) => p.1 == i.site) old.prefetches
    let getting := countIf (fun (g : Get) => g.site == i.site) old.gets
    let ra := fieldAt l 0 8 % 2 ^ 40
    let len := fieldAt l 8 4
    let getOk := ra % 32 = 0 ∧ len % 32 = 0 ∧ 32 ≤ len ∧ len ≤ 2 ^ 24 ∧ ra + len ≤ s.w.pageCount * 2 ^ 21 ∧ fieldAt l 12 4 % 32 = 0 ∧
      (fieldAt l 17 1 < 32 ∨ fieldAt l 17 1 = 0xFF) ∧ fieldAt l 18 1 ≤ 1 ∧ landingOk s.w i.site (fieldAt l 16 1) (fieldAt l 12 4) len = true
    a % 16 = 0 → a + 32 ≤ 2 ^ 24 → s.w.coreMem.badIn (coreAddr i.site a) 32 = false →
    (pulling < 16 → s.w.pagesOk d = true → Runs (.tirPrefetch i) s (fun t => frame t ∧
      view (t.tier cl).frames = view (((rangeFrom d.1 d.2.1).foldl (fun x p => (x.prefetchPage cl p buf pin).1) s.w).tier cl).frames)) ∧
    (s.w.pagesOk d = true → Runs (.tirRelease i) s (fun t => frame t ∧ (t.tier cl).gets = old.gets ∧
      view (t.tier cl).frames = view (old.frames.map fun f => if named f then { f with pins := [] } else f))) ∧
    (getting < 8 → getOk → Runs (.tirGet i) s (fun t => frame t ∧ view (t.tier cl).frames = view old.frames ∧
      (t.tier cl).gets = old.gets ++ [⟨i.site, ra, len, fieldAt l 12 4, fieldAt l 16 1, fieldAt l 17 1, s.w.bufOf (fieldAt l 18 1), [], []⟩] ∧
      (t.tier cl).heat = (pagesOf ra len).foldl heatAdd old.heat)) ∧
    (16 ≤ pulling → Runs (.tirPrefetch i) s held) ∧ (8 ≤ getting → Runs (.tirGet i) s held) ∧
    (pulling < 16 → s.w.pagesOk d = false → Runs (.tirPrefetch i) s refused) ∧ (s.w.pagesOk d = false → Runs (.tirRelease i) s refused) ∧
    (getting < 8 → ¬ getOk → Runs (.tirGet i) s refused)) : Prop) ∧
  ((
  ∀ (w : Wafer) (cl page buf : Nat) (pin : Pin),
    let old := w.tier cl
    let r := w.prefetchPage cl page buf pin
    (∀ f, old.frames.find? (fun f => f.page == page && f.buf == buf) = some f →
      (r.1.tier cl).frames = old.frames.map (fun g => if g.num = f.num then { g with pins := g.pins ++ [pin] } else g) ∧
      r.2 = if f.filled then [] else [page]) ∧
    (old.frames.find? (fun f => f.page == page && f.buf == buf) = none →
      (∀ k e, w.framePlace cl page = some (k, e) → r.2 = [page] ∧
        (r.1.tier cl).frames = old.frames.filter (fun f => f.num != k) ++ [⟨k, page, buf, false, false, [pin]⟩]) ∧
      (w.framePlace cl page = none → r.2 = [] ∧ (r.1.tier cl).frames = old.frames ∧ w.countedBy r.1 (tirBase cl) Reg.tirPfdrop 1))) : Prop)

/-- Fills, pin ends, deadlines and windows (R193, R197, R198).
FRAME_FILL_DONE of a frame being filled leaves the page's 2 MiB in the frame's place in cluster memory, every other byte as it was, and the
frame filled, unless a bank group grants nothing; PIN_EXPIRY removes the pins whose last tick is over and keeps the rest;
GET_DEADLINE_MISS moves the pages whose deadline tick has begun to the reads in place and counts them in TIR_MISSES; HEAT_WINDOW_END, at a tick that is a multiple of 64,
makes every cluster's counts those of the last window and starts the next at 0. The others change no memory, and none changes a core.
A completed GET has written its bytes and posted its semaphore (R198). Once every page of the range can be read (from a filled frame, or in place) and the bank groups it touches grant, TIR_GET_COMPLETE writes the
range's bytes, read from the frame that holds a page or else from the page's stack, at DST of the memory that DSPACE names, and leaves every other byte, takes the GET off the list and adds 1 to its semaphore unless
it is 0xFF. With a page that has no source yet nothing changes. -/
def Obligations.TierEventsKeepMemory : Prop :=
  ((
  ∀ (cl frame idx : Nat) (s : State), cl < 448 →
    let old := s.w.tier cl
    let view := fun (fs : List CacheFrame) => fs.map fun f => (f.num, f.page, f.buf, f.filled, f.pins)
    let others := fun (t : Wafer) => s.w.sameMemory t ∧ t.cores = s.w.cores ∧ t.canal = s.w.canal ∧ ∀ k, k ≠ cl → t.tier k = s.w.tier k
    (s.w.groupsShut cl 0 512 = true → Runs (.frameFillDone cl frame) s (fun t => t = s.w)) ∧
    (∀ f, old.frames.find? (fun f => f.num == frame && f.filling) = some f → s.w.groupsShut cl 0 512 = false →
      Runs (.frameFillDone cl frame) s (fun t => others { t with cluMem := s.w.cluMem } ∧
      (let x := s.w.pageAt f.buf f.page 0
       s.w.cluMem.holdsAt t.cluMem (s.w.frameAddr cl f.num) (s.w.stkMem.read (stkAddr x.1 x.2) (2 ^ 21))) ∧
      (t.tier cl).gets = old.gets ∧ (∀ f ∈ (t.tier cl).frames, f.num = frame → f.filled = true ∧ f.filling = false) ∧
      view (t.tier cl).frames = view (old.frames.map fun f => if f.num = frame then { f with filled := true } else f))) ∧
    Runs (.pinExpiry cl) s (fun t => others t ∧ (t.tier cl).gets = old.gets ∧
      view (t.tier cl).frames = view (old.frames.map fun f => { f with pins := f.pins.filter fun p => !tickFuture s.w.tick p.last })) ∧
    (∀ g, old.gets[idx]? = some g →
      let late := (pagesOf g.ra g.len).filter fun p => s.w.pageSource cl g p == .missed
      Runs (.getDeadlineMiss cl idx) s (fun t => others t ∧ s.w.countedBy t (tirBase cl) Reg.tirMisses late.length ∧
        t.tier cl = { old with gets := listSet old.gets idx { g with inPlace := g.inPlace ++ late } })) ∧
    (s.w.tick % 64 = 0 → (s.w.tiers.map (·.1)).Nodup → Runs .heatWindowEnd s (fun t => s.w.sameMemory t ∧ t.cores = s.w.cores ∧
      (t.tier cl).heat = old.heat.map (fun h => { h with cur := 0, last := h.cur }) ∧ (t.tier cl).gets = old.gets)) ∧
    (s.w.tick % 64 ≠ 0 → Runs .heatWindowEnd s (fun t => t = s.w))) : Prop) ∧
  ((
  ∀ (cl idx : Nat) (s : State) (g : Get), cl < 448 → (s.w.tier cl).gets[idx]? = some g →
    let src := (pagesOf g.ra g.len).map fun p => s.w.pageSource cl g p
    let wait := (src.any fun x => x == .none || x == .fill) || (g.dspace == 1 && s.w.groupsShut cl g.dst g.len) ||
      ((src.any fun x => x == .frame) && s.w.groupsShut cl 0 512)
    let from' := fun (k : Nat) => s.w.getPlace cl g (g.ra + k)
    let c := s.w.core g.site
    (wait = true → Runs (.tirGetComplete cl idx) s (fun t => t = s.w)) ∧
    (wait = false → g.dspace ≤ 1 → (g.sem = 0xFF ∨ c.semGet g.sem + 1 ≤ 65535) → Runs (.tirGetComplete cl idx) s (fun t =>
      (s.w.spaceMem g.dspace).holdsAt (t.spaceMem g.dspace) (landKey g.site g.dspace g.dst) ((List.range g.len).map fun k => (from' k).1.get (from' k).2) ∧
      (∀ k, k ≤ 2 → k ≠ g.dspace → t.spaceMem k = s.w.spaceMem k) ∧ t.stkMem = s.w.stkMem ∧
      (t.tier cl).gets = dropAt (s.w.tier cl).gets idx ∧ s.w.sameOtherCores t g.site ∧ { t.core g.site with sem := c.sem } = c ∧
      (∀ j, (t.core g.site).semGet j = c.semGet j + b2n (decide (j = g.sem ∧ g.sem ≠ 0xFF))) ∧
      s.w.countedBy t (tirBase cl) Reg.tirGets 1))) : Prop)

/-! ## Towpath links (chapter 9) -/

/-- Bring-up goes from training to a session (R216, R217, R221).
LINK_TRAINING_DONE in TRAIN, with lanes left by R215, shows the active lanes, starts the hop afresh and enters IDENT, whose frames carry the
module's own record and both chains in order. IDENT there stores the peer record and goes on to the key exchange, or to QUARANTINE when the chains
verify at no root or an expected record differs; a quarantined port stores the record and stays; its retry sends IDENT anew and compares the
record it holds. In KEYX the responder answers an offer and shares the secret, the initiator shares it on the answer, and both then sign the
transcript's hash; signatures that verify enter UP with an expected record and MGMT_ONLY without, with the session secret that HKDF extracts, and
others quarantine the port. No memory, core or, on a link that no job uses, job changes. -/
def Obligations.BringUpFollowsItsSteps : Prop :=
  ∀ (port : Nat) (s : State) (rec : PeerRec) (ed ml x kem : List Byte), port < 176 →
    let b := portBase port
    let p := s.w.port port
    let e := p.exch
    let st := linkState s.w port
    let r := s.w.storePeer port rec ed ml
    let frame := fun (t : Wafer) => s.w.sameMemory t ∧ t.cores = s.w.cores ∧ t.job = s.w.job ∧ t.canal = s.w.canal ∧ t.fences = s.w.fences
    let stored := fun (t : Wafer) => t.rd b Reg.tpPeeridValid = 1 ∧ t.rd b Reg.tpPeerhash0Hash = rec.hash % 2 ^ 64 ∧
      t.rd b Reg.tpPeeridPlace = rec.place % 2 ^ 25 ∧ (t.port port).peerEd = ed ∧ (t.port port).peerMl = ml
    let matched := fun (w : Wafer) => expectHeld w port = false ∨ peerMatches w port = true
    let signed := fun (v t : Wafer) => t = v.sendSetup port 8 (Config.edSign (v.port port).exch.hash ++ Config.mlSign (v.port port).exch.hash)
    (∀ n h m, st = 1 → widthFor port (s.w.rd b Reg.tpLinkstatRetired) = some (n, h, m) → Runs (.linkTrainingDone port) s (fun t => frame t ∧
      linkState t port = 2 ∧ t.rd b Reg.tpLinkstatLanes = n % 2 ^ 5 ∧ t.rd b Reg.tpLinkstatLaneok = m % 2 ^ 16 ∧
      (t.port port).secret = none ∧ (t.port port).expectSeq = 0 ∧ (t.port port).credits.take 3 = (fullCredits port).take 3 ∧
      ((t.port port).replay ++ (t.port port).egress).map (fun f => (f.requester, f.vl, f.ftype, f.payload)) =
        (payloadFrames (identPayload (s.w.ownRecord port) Config.edChain Config.mlChain)).map (fun l => (8, 3, 7, l)))) ∧
    (st = 2 → (r.peerAnchor port (peerKind r port)).isSome = true → matched r →
      Runs (.ident port rec ⟨ed, ml⟩) s (fun t => frame t ∧ stored t ∧ linkState t port = 4)) ∧
    (st = 2 → s.w.portInJob port = false → (r.peerAnchor port (peerKind r port)).isSome = true → ¬ matched r → Runs (.ident port rec ⟨ed, ml⟩) s (fun t =>
      frame t ∧ stored t ∧ linkState t port = 3 ∧ t.rd b Reg.tpLinkstatDowncause = 9)) ∧
    (st = 2 → s.w.portInJob port = false → r.peerAnchor port (peerKind r port) = none → Runs (.ident port rec ⟨ed, ml⟩) s (fun t =>
      frame t ∧ stored t ∧ linkState t port = 3 ∧ t.rd b Reg.tpLinkstatDowncause = 8)) ∧
    (st = 3 → Runs (.ident port rec ⟨ed, ml⟩) s (fun t => frame t ∧ stored t ∧ linkState t port = 3)) ∧
    (st = 3 → s.w.rd b Reg.tpPeeridValid ≠ 1 → Runs (.quarantineRetry port) s (fun t => frame t ∧ linkState t port = 2 ∧ (t.port port).secret = none)) ∧
    (st = 3 → s.w.rd b Reg.tpPeeridValid = 1 → (s.w.peerAnchor port (peerKind s.w port)).isSome = true → matched s.w →
      Runs (.quarantineRetry port) s (fun t => frame t ∧ linkState t port = 4)) ∧
    (st = 4 → p.setup = true → e.initiator = false → e.shared = none → Runs (.keyx port (.offer x kem)) s (fun t => frame t ∧ linkState t port = 4 ∧
      (t.port port).exch = { e with keyx := x ++ kem ++ (Config.x25519Pub e.id ++ Config.kemEncaps e.id kem)
                                    shared := some (Config.x25519 e.id x ++ Config.kemShared e.id kem) } ∧
      ∃ v : Wafer, (v.port port).exch = (t.port port).exch ∧ signed v t)) ∧
    (st = 4 → p.setup = true → e.initiator = true → e.shared = none → Runs (.keyx port (.answer x kem)) s (fun t => frame t ∧ linkState t port = 4 ∧
      (t.port port).exch = { e with keyx := e.keyx ++ x ++ kem, shared := some (Config.x25519 e.id x ++ Config.kemDecaps e.id kem) } ∧
      ∃ v : Wafer, (v.port port).exch = (t.port port).exch ∧ signed v t)) ∧
    (∀ secret, st = 4 → p.setup = true → e.shared = some secret → s.w.keyxVerified port ed ml = true → matched s.w →
      Runs (.keyx port (.signed ed ml)) s (fun t => frame t ∧ linkState t port = (if expectHeld s.w port then 6 else 5) ∧
        (t.port port).secret = some (leNat (hkdfExtract (natLE 32 e.hash) secret)) ∧ (t.port port).setup = false)) ∧
    (st = 4 → p.setup = true → s.w.portInJob port = false → (e.shared = none ∨ s.w.keyxVerified port ed ml = false) →
      Runs (.keyx port (.signed ed ml)) s (fun t => frame t ∧ linkState t port = 3 ∧ (t.port port).secret = none)) ∧
    (∀ m, st = 4 → p.setup = false → Runs (.keyx port m) s (fun t => frame t ∧ linkState t port = 4 ∧ (t.port port).exch = { e with early := e.early ++ [m] }))

/-- The hop receiver accepts, asks again, or discards (R210, R214, R218 to R224).
On a lit port, 256 bytes with a good CRC and the expected SEQ advance the expected SEQ. If the frame authenticates where it must, is of an assigned
type on its lane, on a lane the port carries, not stopped by the fence or a sleeping array, of a job the port holds the tag of, and of an assigned
MSG, it stands in the receive buffer with its payload in the clear, its credit not yet returned, and TPx_RXFRAMES counts it; an untagged VL0 or VL1
frame is counted in TPx_DROPTAG instead, and its credit goes back. A bad CRC, or a codeword the FEC could not correct, leaves the expected SEQ and
asks for it with a NAK, as does the first frame that comes ahead of it. A protected frame that fails authentication tears the session of a link that
is up outside a job down to IDENT. Only ports, counters and statuses change.
Credits, acknowledgements and replay (R212, R214). CREDIT never raises a lane above its buffer, and with nothing queued adds the counts; ACK releases
the frames up to its SEQ from the replay buffer; after both, what waited for the port goes on. NAK, and a timeout, send the frames from the named
one, or all, again and keep them, until the seventeenth consecutive resend takes the link down; CREDIT_FRAME_SEND returns the waiting credits and
ACK_SEND acknowledges the last frame. Only ports, counters and statuses change. -/
def Obligations.HopFramesAreCheckedInOrder : Prop :=
  ((
  ∀ (port : Nat) (bytes clear : List Byte) (s : State), port < 176 → linkState s.w port ≠ 0 → linkState s.w port ≠ 7 →
    let b := portBase port
    let p := s.w.port port
    let fr : Frame := frameOf bytes
    let fr' : Frame := { fr with payload := clear }
    let only := fun (t : Wafer) => { s.w.unnoted t with ports := s.w.ports } = s.w
    let whole := crcOk bytes = true ∧ (fr.ftype = 0 ∨ 5 ≤ fr.ftype)
    let inOrder := whole ∧ fr.seq = p.expectSeq
    let authentic := (fr.prot = true ∧ (p.openFrame fr (frameMac bytes)).map (·.1) = some clear) ∨
      (fr.prot = false ∧ mustProtect fr = false ∧ clear = fr.payload)
    let laneOk := fr.ftype < 9 ∧ (fr.ftype = 0 ∨ fr.vl = 3) ∧ portCarries s.w port fr.vl = true ∧ (fr.vl < 2 → s.w.portFenced port = false) ∧
      arrayShut s.w port fr' = false
    let tagged := fr.vl < 2 → (tagOk s.w port fr.tag && (!isXfer fr' || s.w.running)) = true
    let msgOk := fr.ftype = 0 → (fr.vl = 0 → fieldAt clear 2 1 ≤ 6) ∧ (fr.vl = 1 → fieldAt clear 2 1 ≤ 4)
    let asked := fun (t : Wafer) => (t.port port).expectSeq = p.expectSeq ∧ (t.port port).nakked = true ∧ (t.port port).rx = p.rx ∧
      t.out.getLast? = some (.linkCtl port 3 [p.expectSeq])
    (inOrder → authentic → laneOk → tagged → msgOk → Runs (.hopFrameReceive port ⟨bytes, none⟩) s (fun t => only t ∧
      (t.port port).expectSeq = (p.expectSeq + 1) % 2 ^ 16 ∧ (t.port port).nakked = false ∧
      (t.port port).rx = p.rx ++ [⟨fr.vl, fr.ftype, fr.seq, clear, false⟩] ∧ (t.port port).owed = p.owed ∧ s.w.countedBy t b Reg.tpRxframes 1)) ∧
    (inOrder → authentic → laneOk → ¬ tagged → Runs (.hopFrameReceive port ⟨bytes, none⟩) s (fun t => only t ∧
      (t.port port).expectSeq = (p.expectSeq + 1) % 2 ^ 16 ∧ (t.port port).rx = p.rx ∧ s.w.countedBy t b Reg.tpDroptag 1 ∧
      t.rd b Reg.tpRxframes = s.w.rd b Reg.tpRxframes)) ∧
    (crcOk bytes = false → Runs (.hopFrameReceive port ⟨bytes, none⟩) s (fun t => only t ∧ asked t ∧ s.w.rd b Reg.tpErrCrc ≤ t.rd b Reg.tpErrCrc)) ∧
    (∀ lane, fullLanes port ≤ lane → Runs (.hopFrameReceive port ⟨bytes, some lane⟩) s (fun t => only t ∧ asked t)) ∧
    (whole → fr.seq ≠ p.expectSeq → (fr.seq + 2 ^ 16 - p.expectSeq) % 2 ^ 16 < 2 ^ 15 → p.nakked = false →
      Runs (.hopFrameReceive port ⟨bytes, none⟩) s (fun t => only t ∧ asked t ∧ t.regs = s.w.regs)) ∧
    (inOrder → fr.prot = true → p.openFrame fr (frameMac bytes) = none → (linkState s.w port = 5 ∨ linkState s.w port = 6) →
      s.w.portInJob port = false → Runs (.hopFrameReceive port ⟨bytes, none⟩) s (fun t => linkState t port = 2 ∧ (t.port port).secret = none ∧
        t.rd b Reg.tpLinkstatDowncause = 5 ∧ s.w.sameMemory t ∧ t.job = s.w.job))) : Prop) ∧
  ((
  ∀ (port seq : Nat) (counts : List Nat) (s : State), port < 176 →
    let p := s.w.port port
    let only := fun (t : Wafer) => { s.w.unnoted t with ports := s.w.ports } = s.w
    let resent := fun (k : Nat) (t : Wafer) => only t ∧ (t.port port).replay = p.replay ∧ (t.port port).resends = p.resends + 1 ∧
      t.rd (portBase port) Reg.tpLinkstatState = s.w.rd (portBase port) Reg.tpLinkstatState ∧
      s.w.countedBy t (portBase port) Reg.tpReplays (p.replay.length - k)
    Runs (.credit port counts) s (fun t => ∃ v : Wafer, t = v.streamsGo ∧ only v ∧
      (∀ k, k < 4 → (v.port port).credits.getD k 0 ≤ (fullCredits port).getD k 0) ∧
      (p.egress = [] → ∀ k, k < 4 → (v.port port).credits.getD k 0 = min ((fullCredits port).getD k 0) (p.credits.getD k 0 + counts.getD k 0))) ∧
    (0 < p.ackedCount seq → Runs (.ack port seq) s (fun t => ∃ v : Wafer, t = v.streamsGo ∧ only v ∧ (v.port port).resends = 0 ∧
      ∃ sent, (v.port port).replay = p.replay.drop (p.ackedCount seq) ++ sent)) ∧
    (∀ k, indexOf? (fun (f : TxFrame) => f.seq == seq) p.replay = some k →
      (p.resends < 16 → Runs (.nak port seq) s (resent k)) ∧
      (16 ≤ p.resends → s.w.portInRun port = false → Runs (.nak port seq) s (fun t => linkState t port = 1 ∧
        t.rd (portBase port) Reg.tpLinkstatDowncause = 3 ∧ s.w.sameMemory t ∧ t.job = s.w.job))) ∧
    (p.replay ≠ [] → p.resends < 16 → Runs (.replayTimeout port) s (resent 0)) ∧
    (p.owed.all (· == 0) = false → Runs (.creditFrameSend port) s (fun t => only t ∧ (t.port port).owed = [0, 0, 0, 0] ∧
      t.out = s.w.out ++ [.linkCtl port 1 p.owed] ∧ t.regs = s.w.regs)) ∧
    (p.unacked ≠ 0 → Runs (.ackSend port) s (fun t => only t ∧ (t.port port).unacked = 0 ∧
      t.out = s.w.out ++ [.linkCtl port 2 [(p.expectSeq + 2 ^ 16 - 1) % 2 ^ 16]] ∧ t.regs = s.w.regs))) : Prop)

/-- Lanes, widths, keys and losses (R215, R219, R232).
An error on an active lane is classified at its location, and one on another changes nothing. A completed width change shows half the
lanes, lets what waited for it go on, and posts LINK_DEGRADED. REKEY after 2^32 protected frames takes the next key index, inverts KPH and starts the
counts again; OLD_KEY_EXPIRY drops the previous key, so that every lane is received under the newest.
LOSS_OF_LIGHT takes a link to TRAIN and PARTNER_LOST a silent one to IDENT, without its session; of a link that a running job uses, the port
is fenced and the job stops. -/
def Obligations.LanesKeysAndLosses : Prop :=
  ∀ (port lane : Nat) (s : State), port < 176 →
    let b := portBase port
    let p := s.w.port port
    let only := fun (t : Wafer) => { s.w.unnoted t with ports := s.w.ports } = s.w
    let st := linkState s.w port
    let n := fullLanes port / 2
    let stops := fun (t : Wafer) => t.fenced (fPort port) = true ∧ t.job.phase = .stopped ∧ t.job.faulted = true
    (∀ c, c ∈ [Instr.laneSerExceeded port lane, .laneLossOfLock port lane] → lane < fullLanes port → Runs c s (fun t =>
      t = if bit (s.w.rd b Reg.tpLinkstatLaneok) lane then s.w.classify ⟨6, 0xFF, 0xFF, portRunit port, lane⟩ false else s.w)) ∧
    (∀ h, p.widthTo = some h → h < 2 → Runs (.linkWidthChanged port) s (fun t => ∃ v : Wafer,
      t = v.streamsGo.notify 0x0705 (detailRunit (portRunit port)) ∧ only v ∧ v.rd b Reg.tpLinkstatLanes = n ∧
      v.rd b Reg.tpLinkstatLaneok = (2 ^ n - 1) * 2 ^ (h * n) ∧ v.rd b Reg.tpLinkstatDegraded = 1 ∧ (v.port port).widthTo = none)) ∧
    (p.secret.isSome = true → 2 ^ 32 ≤ p.txTotal → s.w.rd b Reg.tpKeystatKph ≤ 1 → Runs (.rekey port) s (fun t => only t ∧
      t.rd b Reg.tpKeystatKph = 1 - s.w.rd b Reg.tpKeystatKph ∧ (t.port port).txTotal = 0 ∧ (t.port port).txIdx = p.txIdx + 1 ∧ (t.port port).txF = [0, 0, 0, 0] ∧ (t.port port).secret = p.secret)) ∧
    Runs (.oldKeyExpiry port) s (fun t => { t with ports := s.w.ports } = s.w ∧ (t.port port).oldKey = false ∧
      { t.port port with oldKey := p.oldKey, rxLane := p.rxLane, rxF := p.rxF } = p ∧
      (p.oldKey = true → ∀ v, v < 4 → (t.port port).rxLane.getD v 0 = p.rxIdx ∧
        (t.port port).rxF.getD v 0 = if p.rxLane.getD v 0 = p.rxIdx then p.rxF.getD v 0 else 0)) ∧
    (2 ≤ st → st ≤ 6 → s.w.portInRun port = false → Runs (.lossOfLight port) s (fun t => linkState t port = 1 ∧
      t.rd b Reg.tpLinkstatDowncause = 1 ∧ (t.port port).secret = none ∧ t.job = s.w.job ∧ s.w.sameMemory t)) ∧
    (s.w.portInRun port = true → Runs (.lossOfLight port) s stops) ∧
    ((st = 5 ∨ st = 6) → partnerSilent s.w port = true → s.w.portInRun port = false → Runs (.partnerLost port) s (fun t => linkState t port = 2 ∧
      t.rd b Reg.tpLinkstatDowncause = 4 ∧ (t.port port).secret = none ∧ t.job = s.w.job ∧ s.w.sameMemory t)) ∧
    (s.w.portInRun port = true → partnerSilent s.w port = true → Runs (.partnerLost port) s stops)

/-- Transfers leave by a port and land at a core (R224, R226, R227).
A flit at the gate of a port that is UP, carries VL1, is not fenced, changes no width, has a credit and room, and has nothing queued, leaves as one
protected XFER frame with its payload under the port's tag; without a credit, during a width change and behind a fenced egress arbiter it waits; at a fenced port it is dropped and counted. A delivered XFER frame of the running job for a core of its
placement, within the memory it names, becomes a flit for that core with its bytes; one with another tag is counted in TPx_DROPTAG. -/
def Obligations.TransfersLeaveAndLand : Prop :=
  ∀ (s : State),
    (∀ idx f, s.w.flitAt idx = some f → atPort f = true →
      let port := f.runit - 32
      let p := s.w.port port
      let rest := dropAt s.w.canal.flits idx
      (s.w.portFenced port = false → portCarries s.w port 1 = true → linkState s.w port = 6 →
        (s.w.fenced (fEgress port) = false → p.widthTo = none → 0 < p.credits.getD 1 0 → p.replay.length < replayRoom port → p.egress = [] → Runs (.xferFlitEgress idx) s (fun t =>
          t.canal = { s.w.canal with flits := rest } ∧ (t.port port).egress = [] ∧ (t.port port).nextSeq = (p.nextSeq + 1) % 2 ^ 16 ∧
          t.out.getLast? = some (.frame port 7
            (p.frameBytes ⟨7, 1, 0, s.w.rd (portBase port) Reg.tpTagCur, 0, xferPayload f, none, []⟩ true)) ∧ s.w.countedBy t (portBase port) Reg.tpTxframes 1 ∧ s.w.sameMemory t)) ∧
        ((s.w.fenced (fEgress port) = true ∨ p.credits.getD 1 0 = 0 ∨ replayRoom port ≤ p.replay.length ∨ p.widthTo.isSome = true) → Runs (.xferFlitEgress idx) s (fun t => t = s.w))) ∧
      (s.w.portFenced port = true → Runs (.xferFlitEgress idx) s (fun t => t.canal = { s.w.canal with flits := rest } ∧
        s.w.countedBy t (portBase port) Reg.tpDropfence 1 ∧ s.w.onlyNotes { t with canal := s.w.canal }))) ∧
    (∀ port fr, port < 176 → isXfer fr = true → s.w.portFenced port = false → arrayShut s.w port fr = false →
      let dcore := fieldAt fr.payload 0 2 % 2 ^ 11
      let a := fieldAt fr.payload 4 4 % 2 ^ 20 * 32
      let space := bits (fieldAt fr.payload 3 1) 2 1
      let site := s.w.siteOf (s.w.job.placement.getD (dcore / 16) 0) (dcore / 4 % 4) (dcore % 4)
      (tagOk s.w port fr.tag = true → s.w.running = true → dcore / 16 < s.w.job.placement.length → landingOk s.w site space a 224 = true →
        Runs (.xferFrame port fr) s (fun t => s.w.sameMemory t ∧ t.cores = s.w.cores ∧ t.regs = s.w.regs ∧
          ∃ g, t.canal.flits = s.w.canal.flits ++ [g] ∧ g.payload = bytesAt fr.payload 8 224 ∧ g.daddr = a ∧ g.dspace = space ∧
            g.dx = siteX site ∧ g.dy = siteY site)) ∧
      (tagOk s.w port fr.tag = false → Runs (.xferFrame port fr) s (fun t => s.w.onlyNotes t ∧
        s.w.countedBy t (portBase port) Reg.tpDroptag 1)))

/-! ## Parameter ingest (chapter 10) -/

/-- A manifest that passes its checks is held, and another is refused (R241).
With ingest open and a source found for the message, a manifest that passes Table 10-4 becomes the source's next one, with no chunk of it passed
when it is new and no key when no KEYWRAP was kept, and inputs that stall go on; one that fails, or whose message a FRAG gap has voided (R242), leaves
every source as it was, is recorded in WST_FAULT where that holds nothing, and posts MANIFEST_REFUSED (0x0801). No memory changes.
Segments and content keys (R244, R245). On a train whose READY has been sent, a segment message whose leaves and proof give the manifest's root is
held with its leaves, and any other counts in WST_BADHASH and is not held; with 128 segments held the message waits at its input (R250). A KEYWRAP for
a held manifest from the KEYPORT gives the content key that AES-256-GCM opens under the session's wrap key, or is KEY_REFUSED when its tag does not
verify; for no held manifest it is kept, and after 64 ticks dropped and recorded. A key still missing when its tick has come is fetched from the
KEYPORT, and again 16 ticks later. No memory changes. -/
def Obligations.ManifestsAreHeldOrRefused : Prop :=
  ((
  ∀ (m : Vl0Msg) (s : State) (si : Nat), m.port < 176 → ingestOpen s.w m.port = true → s.w.ingest.manifestSource m = some si →
    si < s.w.ingest.sources.length →
    let st := if s.w.voids m 2 then 0x0103 else manifestStatus (s.w.ingest.srcAt si) m.body
    let x := manifestHeader m.body
    let frame := fun (t : Wafer) => s.w.sameMemory t ∧ t.cores = s.w.cores ∧ t.job = s.w.job
    (st = 0 → Runs (.manifest m) s (fun t => ∃ v : Wafer, t = v.inputsGo ∧ frame v ∧ (v.ingest.srcAt si).next = some x ∧
      v.ingest.sources.length = s.w.ingest.sources.length ∧
      ((s.w.ingest.srcAt si).next ≠ some x → (v.ingest.srcAt si).passedNext = [] ∧
        ((∀ y ∈ s.w.ingest.sources, y.kept = none) → (v.ingest.srcAt si).keyNext = none ∧
          (v.ingest.srcAt si).keyFetchAt = some ((s.w.tick + 16) % 2 ^ 48))))) ∧
    (st ≠ 0 → Runs (.manifest m) s (fun t => frame t ∧ t.ingest.sources = s.w.ingest.sources ∧ t.reservoir = s.w.reservoir ∧
      t.cmd.posts.getLast? = some ⟨0x0801, detailNone⟩ ∧
      (s.w.rd wstBase Reg.wstFaultValid ≠ 1 → t.rd wstBase Reg.wstFaultValid = 1 ∧ t.rd wstBase Reg.wstFaultCode = 1)))) : Prop) ∧
  ((
  ∀ (m : Vl0Msg) (s : State) (si : Nat), m.port < 176 → si < 32 → si < s.w.ingest.sources.length →
    let g := s.w.ingest
    let st := g.srcAt si
    let seg := fieldAt m.body 12 4
    let p := s.w.port m.port
    let k : KeyWrap := ⟨fieldAt m.body 0 8, fieldAt m.body 8 4, p.secret.getD 0, p.exch.recvDir, m.body⟩
    let is := fun (y : Option Manifest) => (y.map fun y => y.id == k.manifest && y.gen == k.gen).getD false
    let keyed := s.w.ingest.admitted = true ∧ laneOpen s.w m.port 0 = true ∧ m.prot = true ∧ s.w.voids m 3 = false
    let owner := indexOf? (fun (y : SrcSt) => y.src.keyPort == m.port && (is y.next || is y.cur)) g.sources
    let opened := gcmOpen 16 (hkdfExpand (natLE 32 (p.secret.getD 0)) (asciiBytes "towpath wrap" ++ Config.keyContext p.exch.recvDir 0) 32)
      (bytesAt m.body 12 12) (bytesAt m.body 0 12) (bytesAt m.body 24 32) (bytesAt m.body 56 16)
    (∀ x, ingestOpen s.w m.port = true → m.reply = false → (g.trainOf m.port m.stream).isSome = true → g.beforeReady m = false →
        g.named m (fieldAt m.body 0 8) (fieldAt m.body 8 4) = some si → st.next = some x → s.w.inputsOf m.port = [] →
        (st.src.inSegment x seg).all (fun c => st.passedNext.contains c) = false → g.segmentFor si x.gen (1024 * seg) = none →
      (128 ≤ g.segments.length → Runs (.segment m) s (fun t =>
        t = ({ s.w with ingest := { g with inputs := g.inputs ++ [⟨true, m, s.w.voids m 1, false⟩] } } : Wafer).inputsGo)) ∧
      (∀ h, g.segments.length < 128 → s.w.voids m 1 = false → g.chunks = [] → segmentOk x m.body = some h → Runs (.segment m) s (fun t =>
        ∃ v : Wafer, t = v.inputsGo ∧ s.w.sameMemory v ∧ v.ingest.sources = g.sources ∧
        v.ingest.segments = g.segments ++ [{ h with source := si }] ∧ h.seg = seg ∧ h.gen = x.gen)) ∧
      (g.segments.length < 128 → s.w.voids m 1 = false → segmentOk x m.body = none → Runs (.segment m) s (fun t => ∃ v : Wafer,
        t = v.inputsGo ∧ s.w.sameMemory v ∧ v.ingest.segments = g.segments ∧ v.ingest.sources = g.sources ∧ s.w.countedBy v wstBase Reg.wstBadhash 1))) ∧
    (keyed → owner = some si →
      (∀ l, opened = some l → is st.next = true → Runs (.keywrap m) s (fun t => ∃ v : Wafer, t = v.inputsGo ∧ s.w.sameMemory v ∧
        (v.ingest.srcAt si).keyNext = some (leNat l) ∧ (v.ingest.srcAt si).keyFetchAt = none ∧ (v.ingest.srcAt si).next = st.next)) ∧
      (opened = none → Runs (.keywrap m) s (fun t => ∃ v : Wafer, t = v.inputsGo ∧ s.w.sameMemory v ∧ v.ingest.sources = g.sources ∧
        (s.w.rd wstBase Reg.wstFaultValid ≠ 1 → v.rd wstBase Reg.wstFaultCode = 2)))) ∧
    (keyed → owner = none → g.keepAt m.port k.gen = some si → g.stopped = false → Runs (.keywrap m) s (fun t => s.w.sameMemory t ∧
      (t.ingest.srcAt si).kept = some (k, s.w.tick) ∧ { t.ingest.srcAt si with kept := st.kept } = st ∧ t.job = s.w.job ∧ t.cores = s.w.cores)) ∧
    (∀ y, st.kept = some y →
      (64 ≤ tickDiff s.w.tick y.2 → Runs (.keywrapHoldExpiry si) s (fun t => (t.ingest.srcAt si).kept = none ∧ s.w.sameMemory t ∧
        (s.w.rd wstBase Reg.wstFaultValid ≠ 1 → t.rd wstBase Reg.wstFaultCode = 2))) ∧
      (tickDiff s.w.tick y.2 < 64 → Runs (.keywrapHoldExpiry si) s (fun t => t = s.w))) ∧
    (∀ x n, st.next = some x → st.keyNext = none → st.keyFetchAt = some n → tickFuture n s.w.tick = false → Runs (.keyFetch si) s (fun t =>
      (t.ingest.srcAt si).keyFetchAt = some ((n + 16) % 2 ^ 48) ∧ s.w.sameMemory t ∧ t.job = s.w.job ∧
      ∃ f ∈ t.ingest.fetches, f.port = st.src.keyPort ∧ f.source = si ∧ f.what = 3 ∧ f.attempt = 0 ∧
        (countIf (fun (f : FetchOut) => f.port == st.src.keyPort) g.fetches < 64 → f.sent = true)))) : Prop)

/-- A barge is written once its hash and tag are good (R243, R248, R251).
On a train whose READY has been sent, at an input that holds nothing, with its segment verified, a barge of a held chunk that has not passed: with
the leaf's hash and a good tag its 64 KiB of plaintext stand at the chunk's place in the next generation's buffer, every other byte of the stacks as
before, and the chunk has passed; with another hash no byte of the stacks and no passed chunk changes and WST_BADHASH counts. A chunk that has already
passed is counted in WST_DUP and one before READY in WST_DROPHDR, and neither changes a memory. A barge that comes before its segment waits with its
hash. A barge whose page of the freed buffer is still being read, or that finds the store for such chunks full, is held at its input (R250, R257), as
is any message behind one that is held; in every case what the inputs hold goes on as it can. -/
def Obligations.BargesAreCheckedAndWritten : Prop :=
  ∀ (m : Vl0Msg) (s : State) (si : Nat), m.port < 176 → ingestOpen s.w m.port = true → m.reply = false →
    (s.w.ingest.trainOf m.port m.stream).isSome = true →
    let g := s.w.ingest
    let st := g.srcAt si
    let chunk := fieldAt m.body 8 4
    let gen := fieldAt m.body 12 4
    let x := s.w.pageAt g.nextBuf (st.src.pageOf chunk) ((chunk - st.src.srcFirst) % 32 * 65536)
    let free := s.w.inputsOf m.port = []
    let held := free ∧ g.beforeReady m = false ∧ si < g.sources.length ∧ g.named m (fieldAt m.body 0 8) gen = some si ∧
      fieldAt m.body 16 1 = st.src.kind ∧ (st.next.map fun x => st.src.holds x chunk).getD false = true
    let stalls := s.w.pageBusy g.nextBuf (st.src.pageOf chunk) = true ∨ (g.segmentFor si gen chunk = none ∧ 65536 ≤ g.chunks.length)
    let fresh := st.passedNext.contains chunk = false ∧ ¬ stalls ∧ s.w.voids m 0 = false ∧ m.body.length = 65584
    let opened := fun (k : Nat) => gcmOpen 16 (natLE 32 k) (natLE 4 chunk ++ natLE 4 gen ++ natLE 4 0) (m.body.take 17)
      (bytesAt m.body 32 65536) (bytesAt m.body 65568 16)
    let waits := fun (seg : Bool) (t : Wafer) =>
      t = ({ s.w with ingest := { g with inputs := g.inputs ++ [⟨seg, m, s.w.voids m (if seg then 1 else 0), false⟩] } } : Wafer).inputsGo
    let noted := fun (v : Wafer) => s.w.onlyNotes { v with ports := s.w.ports }
    (held → fresh → ∀ h k plain, g.segmentFor si gen chunk = some h → sha3 (m.body.drop 32) = h.leaves.getD (chunk % 1024) 0 →
      st.keyNext = some k → opened k = some plain → (∀ n, n < 256 → s.w.lineFenced x.1 (x.2 + 256 * n) = false) →
      Runs (.barge m) s (fun t => ∃ v : Wafer, t = v.inputsGo ∧ s.w.stkMem.holdsAt v.stkMem (stkAddr x.1 x.2) (bytesAt plain 0 65536) ∧
        (v.ingest.srcAt si).passedNext = setInsert st.passedNext chunk ∧ v.coreMem = s.w.coreMem ∧ v.cluMem = s.w.cluMem ∧ v.job = s.w.job ∧
        s.w.countedBy v wstBase Reg.wstBarges 1)) ∧
    (held → fresh → ∀ h, g.segmentFor si gen chunk = some h → sha3 (m.body.drop 32) ≠ h.leaves.getD (chunk % 1024) 0 →
      Runs (.barge m) s (fun t => ∃ v : Wafer, t = v.inputsGo ∧ s.w.sameMemory v ∧ (v.ingest.srcAt si).passedNext = st.passedNext ∧
        v.reservoir = s.w.reservoir ∧ s.w.countedBy v wstBase Reg.wstBadhash 1)) ∧
    (held → fresh → g.segmentFor si gen chunk = none → g.chunks.any (fun c => c.source == si && c.chunk == chunk) = false →
      Runs (.barge m) s (fun t => ∃ v : Wafer, t = v.inputsGo ∧ s.w.sameMemory v ∧ v.ingest.sources = g.sources ∧
        v.ingest.chunks.length = g.chunks.length + 1)) ∧
    (held → st.passedNext.contains chunk = false → stalls → Runs (.barge m) s (waits false)) ∧
    (¬ free → g.inputs.any (fun y => !y.seg && y.m == m) = false → Runs (.barge m) s (waits false)) ∧
    (¬ free → g.inputs.any (fun y => y.seg && y.m == m) = false → Runs (.segment m) s (waits true)) ∧
    (held → st.passedNext.contains chunk = true → Runs (.barge m) s (fun t => ∃ v : Wafer, t = v.inputsGo ∧ noted v ∧
      s.w.countedBy v wstBase Reg.wstDup 1)) ∧
    (free → g.beforeReady m = true →
      Runs (.barge m) s (fun t => ∃ v : Wafer, t = v.inputsGo ∧ noted v ∧ s.w.countedBy v wstBase Reg.wstDrophdr 1) ∧
      Runs (.segment m) s (fun t => ∃ v : Wafer, t = v.inputsGo ∧ noted v ∧ s.w.countedBy v wstBase Reg.wstDrophdr 1))

/-- Trains carry READY upstream and their messages downstream (R248, R249).
READY from an output of the train replaces what that output had said. READY_SEND, once the manifest and key are held and every output has said
READY for them, marks the train and sends READY on its input port; before, it changes nothing. A frame that belongs to the expected generation is queued
at every output in order, where a copy that waits holds the frame's credit, and counted once in WST_RELAYED; a first frame that names another manifest or generation is counted in WST_DROPHDR and goes
nowhere. No memory changes. -/
def Obligations.TrainsRelayAndReady : Prop :=
  ∀ (m : Vl0Msg) (s : State) (n port : Nat) (fr : Frame) (tr : Train), m.port < 176 → port < 176 →
    let g := s.w.ingest
    let body := fr.payload
    let relayed := ingestOpen s.w port = true ∧ tagOk s.w port fr.tag = true ∧ fr.vl = 0 ∧ fr.ftype = 0 ∧ fieldAt body 2 1 ≤ 2 ∧
      bit (fieldAt body 3 1) 2 = false ∧ g.trainOf port (fieldAt body 0 2) = some tr
    (ingestOpen s.w m.port = true → s.w.voids m 4 = false → Runs (.ready m) s (fun t =>
      { t with ingest := g, ports := s.w.ports, out := s.w.out } = s.w ∧
      { t.ingest with trains := g.trains } = g ∧ t.ingest.trains = g.trains.map fun x =>
        if x.id = m.stream ∧ x.outs.contains m.port = true then
          { x with readyFrom := x.readyFrom.filter (fun y => y.1 != m.port) ++ [(m.port, fieldAt m.body 0 8, fieldAt m.body 8 4)] } else x)) ∧
    (n < 16 → g.trains[n]? = some tr → g.stopped = false →
      (s.w.readyHolds tr = none → Runs (.readySend n) s (fun t => t = s.w)) ∧
      (∀ x, s.w.readyHolds tr = some x → Runs (.readySend n) s (fun t => s.w.sameMemory t ∧
        t.ingest.trains = listUpd g.trains n (fun y => { y with readySent := true }) ∧ t.ingest.sources = g.sources ∧
        t.ports = (s.w.sendVl0 tr.inPort 4 tr.id 4 false (natLE 8 x.id ++ natLE 4 x.gen)).ports))) ∧
    (relayed → bit (fieldAt body 3 1) 0 = true →
      (s.w.relayCase tr body = 0 → Runs (.trainRelay port fr) s (fun t => s.w.sameMemory t ∧ t.cores = s.w.cores ∧
        t.ports = (tr.outs.foldl (fun (v : Wafer) o => v.queueHeld o 3 0 0 body (v.rxName port body)) s.w).ports ∧ t.ingest.trains = g.trains ∧ s.w.countedBy t wstBase Reg.wstRelayed 1 ∧
        t.ingest.relay.contains (port, fieldAt body 0 2) = !bit (fieldAt body 3 1) 1)) ∧
      (s.w.relayCase tr body = 2 → Runs (.trainRelay port fr) s (fun t => s.w.sameMemory t ∧ t.ports = s.w.ports ∧
        s.w.countedBy t wstBase Reg.wstDrophdr 1 ∧ t.ingest.relay.contains (port, fieldAt body 0 2) = false)))

/-- Fetches are answered, repeated once, and then fault (R252 to R254).
A FETCH on a train's output: a content key is never given (FETCH_NAK, reason 1); what cannot be served gets its reason; what has passed is sent in
order; what has not passed yet waits, up to 64 requests, and FETCH_SERVE sends it once it has, or answers FETCH_NAK when it will not. FETCH_NAK ends an
adapter's ordinary fetch, which is sent again by ADAPTER_FETCH_SEND, and is INGEST_CHUNK (0x0803) or INGEST_SEGMENT (0x0804) for a second attempt, as is
a second attempt's timeout. ADAPTER_FETCH_SEND asks for what the adapter needs next, at once while fewer than 64 are asked for on its port. No memory
changes. -/
def Obligations.FetchesAreServedAndRetried : Prop :=
  ∀ (m : Vl0Msg) (s : State) (idx src : Nat) (f : FetchOut) (r : FetchIn), m.port < 176 → src < 32 →
    let g := s.w.ingest
    let asks := g.admitted = true ∧ laneOpen s.w m.port 0 = true ∧ s.w.voids m 5 = false ∧ g.trains.any (fun t => t.outs.contains m.port) = true ∧
      r = ⟨m.port, m.stream, fieldAt m.body 0 8, fieldAt m.body 8 4, fieldAt m.body 12 4, fieldAt m.body 16 2, fieldAt m.body 18 1⟩
    let st := g.srcAt src
    let took := fun (msg : Nat) => s.w.rxTakeMsg m msg
    let failed := fun (t : Wafer) => ∃ v : Wafer, s.w.sameMemory v ∧ v.job = s.w.job ∧ t = v.jobFault (0x0803 + f.what) detailNone
    (asks → r.what = 3 → Runs (.fetch m) s (fun t => t = (took 5).sendNakTo r 1)) ∧
    (∀ k, asks → r.what ≠ 3 → s.w.serveCase r = .refuse k → Runs (.fetch m) s (fun t => t = (took 5).sendNakTo r k ∧ s.w.sameMemory t)) ∧
    (∀ si nx, asks → r.what ≠ 3 → s.w.serveCase r = .serve si nx → Runs (.fetch m) s (fun t => s.w.sameMemory t ∧
      s.w.countedBy t wstBase Reg.wstServed r.count ∧ t.ingest = g)) ∧
    (asks → r.what ≠ 3 → s.w.serveCase r = .wait →
      (g.waiting.length < 64 → Runs (.fetch m) s (fun t => t = { took 5 with ingest := { g with waiting := g.waiting ++ [r] } })) ∧
      (64 ≤ g.waiting.length → Runs (.fetch m) s (fun t => t = (took 5).sendNakTo r 4))) ∧
    (∀ si nx, g.waiting[idx]? = some r → s.w.serveCase r = .serve si nx → Runs (.fetchServe idx) s (fun t => s.w.sameMemory t ∧
      t.ingest = { g with waiting := dropAt g.waiting idx } ∧ s.w.countedBy t wstBase Reg.wstServed r.count)) ∧
    (∀ k, g.waiting[idx]? = some r → s.w.serveCase r = .refuse k → Runs (.fetchServe idx) s (fun t => s.w.sameMemory t ∧
      t = ({ s.w with ingest := { g with waiting := dropAt g.waiting idx } } : Wafer).sendNakTo r k)) ∧
    (g.waiting[idx]? = some r → s.w.serveCase r = .wait → Runs (.fetchServe idx) s (fun t => t = s.w)) ∧
    (ingestOpen s.w m.port = true → s.w.voids m 6 = false →
        g.fetches.find? (fun f => f.sent && f.port == m.port && f.stream == m.stream) = some f →
      (f.attempt = 0 → Runs (.fetchNak m) s (fun t => t = (took 6).dropFetches (fun y => y == f) ∧ s.w.sameMemory t)) ∧
      (f.attempt = 1 → Runs (.fetchNak m) s failed)) ∧
    (g.fetches[idx]? = some f → f.sent = true → f.attempt = 1 → tickFuture f.due s.w.tick = false → f.due ≠ s.w.tick →
      Runs (.fetchTimeout idx) s failed) ∧
    (g.admitted = true → g.stopped = false → src < g.sources.length → st.src.kind = 1 →
      (g.nextFetch src = none → Runs (.adapterFetchSend src) s (fun t => t = s.w)) ∧
      (∀ what first count, g.outstanding st.src.keyPort < 64 → g.nextFetch src = some (what, first, count) → Runs (.adapterFetchSend src) s (fun t =>
        s.w.sameMemory t ∧ t.ingest.sources = g.sources ∧ ∃ y ∈ t.ingest.fetches, y.port = st.src.keyPort ∧ y.source = src ∧ y.what = what ∧
          y.first = first ∧ y.count = count ∧ y.attempt = 0 ∧
          (countIf (fun (f : FetchOut) => f.port == st.src.keyPort) g.fetches < 64 → y.sent = true))))

/-! ## Chains and collectives (chapter 11) -/

/-- A GRAD frame is taken in order or faults (R266, R267, R274).
On an open VL1, a frame of a running chain at one of its inputs, on the grid, of its full length and with the element expected next, waits at
that input, which then expects the next one; then every run that can send goes on. A frame off the grid, of another length or beyond NELEM is
CHAIN_RANGE (0x0901), and one that is not the next CHAIN_ORDER (0x0902). A frame that comes before its chain starts stays in the receive buffer. A frame
of no chain of the port is counted in JNC_DROPCHAIN and changes no chain.
A junction sends the exact sum of its inputs and the local slice, rounded once (R262, R267). A run with a frame at every input and its local elements
read ahead, unpoisoned and no shadow chain's, whose last frame has left the port and whose junction grants, sends one frame on its output port: chain,
element, LAST at the end, and for each element the RNE of the exact sum of the inputs' values and the local one. The inputs' frames are used up and
freed, and no memory changes. -/
def Obligations.GradFramesAreTakenInOrder : Prop :=
  ((
  ∀ (port i k : Nat) (fr : List Byte) (s : State) (e : ChainEntry) (r : ChainRun) (x : ChainIn), port < 176 → laneOpen s.w port 1 = true →
    let chain := fieldAt fr 0 2
    let elem := fieldAt fr 4 4
    let n := r.entry.nelem
    let fits := elem < n ∧ elem % 16384 % 56 = 0 ∧ fr.length = 8 + 4 * frameLen n elem
    let runs := s.w.chainInto chain port = some e ∧ indexOf? (fun (r : ChainRun) => r.entry.chain == chain) s.w.reduce.runs = some i ∧
      s.w.reduce.runs[i]? = some r ∧ indexOf? (fun (y : ChainIn) => y.port == port) r.ins = some k ∧ r.ins[k]? = some x
    (runs → fits → elem = x.next → Runs (.grad port fr) s (fun t => ∃ v : Wafer, t = v.advanceChains ∧
      { v with reduce := s.w.reduce } = s.w ∧
      let x' : ChainIn := { x with next := r.after x.next, frames := x.frames ++ [gradFrame fr], lastAt := s.w.time.passed }
      v.reduce = { s.w.reduce with runs := listSet s.w.reduce.runs i { r with ins := listSet r.ins k x' } })) ∧
    (runs → ¬ fits → Runs (.grad port fr) s (fun t => t = ((s.w.rxTook port 1 0 fr).chainFault r.entry 1 elem).advanceChains)) ∧
    (runs → fits → elem ≠ x.next → Runs (.grad port fr) s (fun t => t = ((s.w.rxTook port 1 0 fr).chainFault r.entry 2 elem).advanceChains)) ∧
    (s.w.chainInto chain port = some e → indexOf? (fun (r : ChainRun) => r.entry.chain == chain) s.w.reduce.runs = none →
      Runs (.grad port fr) s (fun t => { t with ports := s.w.ports } = s.w ∧
        ∃ f ∈ (t.port port).rx, f.vl = 1 ∧ f.ftype = 0 ∧ f.payload = fr)) ∧
    (s.w.chainInto chain port = none → Runs (.grad port fr) s (fun t => s.w.onlyNotes { t with ports := s.w.ports } ∧
      s.w.countedBy t (jncBase port) Reg.jncDropchain 1))) : Prop) ∧
  ((
  (∀ (w : Wafer) (i : Nat) (r : ChainRun), w.reduce.runs[i]? = some r → r.lastSent = false → r.ins.all (fun x => !x.frames.isEmpty) = true →
    r.entry.isShadow = false →
    let e := r.entry
    let n := frameLen e.nelem r.next
    w.chainQueued e.out = false → w.fenced (fJunction e.out (junctionLane e.out r.next)) = false →
    n ≤ r.ahead.length → (r.ahead.take n).all (fun x => !x.2) = true →
    let next := r.next + n
    let heads := r.ins.map fun x => x.frames.headD default
    let vals := (List.range n).map fun k => sum32 (heads.map (fun (h : GradFrame) => h.vals.getD k 0) ++ [(r.ahead.getD k (0, false)).1])
    let payload := natLE 2 e.chain ++ natLE 1 0 ++ natLE 1 (b2n (heads.any (·.poison)) + 2 * b2n (decide (e.nelem ≤ next))) ++ natLE 4 r.next ++
      vals.flatMap (natLE 4)
    let ins := r.ins.map fun x => ({ x with frames := x.frames.drop 1 } : ChainIn)
    let r' : ChainRun := { r with next := next, ahead := r.ahead.drop n, lastSent := decide (e.nelem ≤ next), ins := ins }
    let freed := r.ins.foldl (fun (v : Wafer) x => v.rxTake x.port fun f => f.vl == 1 && f.ftype == 0 && isGrad f.payload e.chain r.next) w
    ∃ w', w.stepRun i = some w' ∧ w.sameMemory w' ∧ w'.cores = w.cores ∧
      w'.reduce = { w.reduce with runs := listSet w.reduce.runs i r' } ∧
      w'.ports = (freed.queueFrame e.out 5 1 0 payload).ports) ∧
  (∀ x l, sum32 (x :: l) = rne (l.foldl (fun s y => s.add (val32 y)) (val32 x)))) : Prop)

/-- Chains end, stall and are checked (R268, R269, R273).
CHAIN_COMPLETE, once LAST has left the output port, takes the run off and posts its semaphore with a SIGNAL of 1, unless that is 0xFF. CHAIN_STALL is
the fault CHAIN_STALL (0x0903) with the element that an input without a frame for DELAY plus 2 ticks expects, and changes nothing when there is none. A VERDICT of 0 for the
tail of a primary chain is counted; another fences the port and stops the running job. -/
def Obligations.ChainsCompleteStallAndVerify : Prop :=
  ∀ (port chain : Nat) (fr : List Byte) (s : State) (r : ChainRun) (e : ChainEntry), port < 176 →
    let running := s.w.reduce.runs.find? (fun r => r.entry.chain == chain && r.entry.out == port) = some r
    let late := r.ins.find? fun x => decide (x.next < r.entry.nelem ∧ x.lastAt + 1250 * r.entry.delay + 2 * s.w.period ≤ s.w.time.passed)
    let judged := linkState s.w port = 6 ∧ s.w.portFenced port = false ∧ s.w.running = true ∧
      s.w.reduce.chains.find? (fun e => e.chain == fieldAt fr 0 2 && e.out == port && e.tail && !e.isShadow) = some e
    (running → s.w.runLeft r = true → Runs (.chainComplete port chain) s (fun t => s.w.sameMemory t ∧ t.cores = s.w.cores ∧
      t.reduce = { s.w.reduce with runs := s.w.reduce.runs.filter fun x => x.entry.chain != chain } ∧
      (r.entry.sem = 0xFF → t.canal = s.w.canal) ∧
      (r.entry.sem ≠ 0xFF → ∃ f, t.canal.flits = s.w.canal.flits ++ [f] ∧ f.kind = 3 ∧ f.sem = some r.entry.sem ∧ f.dx = r.entry.nx ∧
        f.dy = r.entry.ny ∧ f.daddr = 1))) ∧
    (running → s.w.runLeft r = false → Runs (.chainComplete port chain) s (fun t => t = s.w)) ∧
    (∀ x, running → late = some x → Runs (.chainStall port chain) s (fun t => t = s.w.chainFault r.entry 3 x.next)) ∧
    (running → late = none → Runs (.chainStall port chain) s (fun t => t = s.w)) ∧
    (judged → fieldAt fr 12 1 = 0 → Runs (.verdict port fr) s (fun t => s.w.onlyNotes { t with ports := s.w.ports } ∧ s.w.countedBy t (jncBase port) Reg.jncVerdicts 1)) ∧
    (judged → fieldAt fr 12 1 ≠ 0 → Runs (.verdict port fr) s (fun t => t.fenced (fPort port) = true ∧ t.job.phase = .stopped ∧
      t.job.faulted = true ∧ t.stkMem = s.w.stkMem ∧ t.cluMem = s.w.cluMem))

/-- A collective takes the frame it expects, waits, or faults (R277 to R280).
On an open VL1, a COLL_COUNT or COLL_DATA frame that the sequencer expects joins what its step has received; when the step's message is
whole, the step's elements of the vector are the sums with the partner's, or the partner's own, every other element stays, and the sequencer goes on. A frame of
a step or collective not yet begun stays in the receive buffer, and any other is the fault COLL_RANK (0x0912). COLL_STALL with the partner overdue is 0x0911, and otherwise
changes nothing. -/
def Obligations.CollectivesStepOrFault : Prop :=
  ∀ (port : Nat) (fr : List Byte) (s : State) (r : CollRun), port < 176 → laneOpen s.w port 1 = true → s.w.reduce.run = some r →
    (∀ (c : Instr) (isCount : Bool), (c, isCount) ∈ [(Instr.collCount port fr, true), (.collData port fr, false)] →
      let took := s.w.rxTook port 1 0 fr
      (s.w.collCase r isCount fr = .wait → Runs c s (fun t => ∃ v : Wafer, t = v.collsGo ∧ { v with ports := s.w.ports } = s.w ∧
        ∃ f ∈ (v.port port).rx, f.vl = 1 ∧ f.ftype = 0 ∧ f.payload = fr)) ∧
      (∀ step, s.w.collCase r isCount fr = .fault step → Runs c s (fun t => t = (took.collFault r 0x12 (fieldAt fr 4 2) step).collsGo)) ∧
      (∀ st, s.w.collCase r isCount fr = .take st →
        let n := if r.phase = .count then 1 else frameLen st.inN (msgFrameStart r.frag)
        let got := r.got ++ (words32 (fr.drop 8) n).map fun x => (x, bit (fieldAt fr 3 1) 0)
        let whole := r.phase = .count ∨ msgFrameCount st.inN ≤ r.frag + 1
        (¬ whole → Runs c s (fun t =>
          t = ({ took with reduce := { s.w.reduce with run := some { r with got := got, frag := r.frag + 1 } } } : Wafer).collsGo)) ∧
        (whole → Runs c s (fun t => ∃ (v : Wafer) (r' : CollRun), t = (v.collRun s.w.collSteps).collsGo ∧ { v with reduce := s.w.reduce } = took ∧
          v.reduce = { s.w.reduce with run := some r' } ∧ r'.step = r.step + 1 ∧
          (r.phase = .count → r'.vec = r.vec ∧ r'.countMax = if st.adds then max r.countMax (got.headD (0, false)).1 else (got.headD (0, false)).1) ∧
          (r.phase ≠ .count → st.inLo + st.inN ≤ r.vec.length → got.length = st.inN → r'.vec.length = r.vec.length ∧
            (∀ k, k < st.inN → r'.vec.getD (st.inLo + k) (0, false) =
              if st.adds then addElem (r.vec.getD (st.inLo + k) (0, false)) (got.getD k (0, false)) else got.getD k (0, false)) ∧
            ∀ k, (k < st.inLo ∨ st.inLo + st.inN ≤ k) → r'.vec.getD k (0, false) = r.vec.getD k (0, false)))))) ∧
    (∀ st p, r.current = some st → st.peer = some p →
      (r.sentAt + 1250 * r.entry.delay + 2 * s.w.period ≤ s.w.time.passed → Runs .collStall s (fun t => t = s.w.collFault r 0x11 p st.num)) ∧
      (s.w.time.passed < r.sentAt + 1250 * r.entry.delay + 2 * s.w.period → Runs .collStall s (fun t => t = s.w)))

/-! ## Command packets (chapter 12) -/

/-- A packet that reaches the interpreter is taken in sequence, held, or freed (R287 to R291, R293).
For each of the 47 packet rows: while its path is not served the packet stays and nothing changes; with 4,096 packets in flight a scan is
counted in FULLSCANS. Of a packet that is reached, one ahead of NEXT by up to 4,095 is held and nothing changes; a duplicate is answered
0x0402 and one outside the window 0x0403, with NEXT as it was; one in turn that fails a check is answered with that check's status and moves
NEXT on. A packet in turn that passes, of a command not marked now, is answered ACCEPTED and joins the packets in flight until the boundary of its
TARGET, or of the next tick. Nothing else of the module changes in any of these cases.
The checks of Table 12-5 come in order, and each gives its status (R290, R311). Of a packet of any row that is taken in turn: in the recovery service an opcode outside its list is refused 0x0401; else LEN over 4,032
or not a length of the row is 0x0102; else a reserved field, an undefined flag, a misaligned RDADDR or a reserved parameter is 0x0103, with its offset
in the packet in DETAIL; else a TARGET that has passed is 0x0404, and a TARGET on a command that acts now, or more than 2^24 ticks ahead, is 0x0104;
then a tag that does not match is 0x0405. Each leaves no effect but its reply. -/
def Obligations.CommandPacketsAreTakenInOrder : Prop :=
  ((
  ∀ (c : Packet → Instr) (sp : CmdSpec), (c, sp) ∈ commandRows → ∀ (p : Packet) (s : State), p.path < 4 →
    let w := s.w
    let turn := fun k => w.reaches p = true ∧ sp.opcode ≠ 2 ∧ seqClass (w.nextSeq p) p.seq = k
    let refused := fun (n st d : Nat) (t : Wafer) => t.nextSeq p = n ∧ t.replied p sp.opcode st 0 d [] ∧
      t.cmd.inflight = w.cmd.inflight ∧ w.onlyAnswers t p noReg
    let st := (w.taken p).headerStatus sp p
    (w.interprets p.path = false → Runs (c p) s (fun t => t = w)) ∧
    (w.interprets p.path = true → 4096 ≤ w.inflightTotal → Runs (c p) s (fun t =>
      w.countedBy t cmdmBase Reg.cmdFullscans 1 ∧ w.onlyNotes t ∧ t.cmd.inflight = w.cmd.inflight)) ∧
    (turn .hold → Runs (c p) s (fun t => t = w)) ∧
    (turn .duplicate → Runs (c p) s (refused (w.nextSeq p) 0x0402 0)) ∧
    (turn .outside → Runs (c p) s (refused (w.nextSeq p) 0x0403 0)) ∧
    (w.reaches p = true → w.inTurn sp p = true → st.1 ≠ 0 → Runs (c p) s (refused ((p.seq + 1) % 2 ^ 32) st.1 st.2)) ∧
    (w.passes sp p = true → sp.now = false → Runs (c p) s (fun t => w.joined t sp p))) : Prop) ∧
  ((
  ∀ (c : Packet → Instr) (sp : CmdSpec), (c, sp) ∈ commandRows → ∀ (p : Packet) (s : State), s.w.reaches p = true →
    s.w.inTurn sp p = true →
    let w := s.w
    let givesAt := fun (st d : Nat) (t : Wafer) => t.replied p sp.opcode st 0 d [] ∧ t.cmd.inflight = w.cmd.inflight ∧ w.onlyAnswers t p noReg
    let one := w.inRecovery = false ∨ recoveryTakes sp.opcode = true
    let two := one ∧ p.params.length ≤ 4032 ∧ sp.len p.params.length = true
    let three := two ∧ p.reserved = none ∧ p.flags < 2 ∧ (p.path < 2 → p.flags % 2 = 1 → p.rdaddr % 64 = 0) ∧ reservedParam sp p = none
    let four := three ∧ (p.target = 0 ∨ (tickFuture p.target w.tick = true ∧ sp.now = false ∧ tickDiff p.target w.tick ≤ 2 ^ 24))
    (¬ one → Runs (c p) s (givesAt 0x0401 0)) ∧
    (one → (4032 < p.params.length ∨ sp.len p.params.length = false) → Runs (c p) s (givesAt 0x0102 0)) ∧
    (∀ o, two → p.reserved = some o → Runs (c p) s (givesAt 0x0103 o)) ∧
    (two → p.reserved = none → 2 ≤ p.flags → Runs (c p) s (givesAt 0x0103 10)) ∧
    (two → p.reserved = none → p.flags = 1 → p.path < 2 → p.rdaddr % 64 ≠ 0 → Runs (c p) s (givesAt 0x0103 40)) ∧
    (∀ r, two → p.reserved = none → p.flags < 2 → (p.path < 2 → p.flags % 2 = 1 → p.rdaddr % 64 = 0) →
      sp.resv.find? (fun r => fieldAt p.params r.1 r.2 != 0) = some r → Runs (c p) s (givesAt 0x0103 (64 + r.1))) ∧
    (three → p.target ≠ 0 → tickFuture p.target w.tick = false → Runs (c p) s (givesAt 0x0404 0)) ∧
    (three → p.target ≠ 0 → tickFuture p.target w.tick = true → (sp.now = true ∨ 2 ^ 24 < tickDiff p.target w.tick) →
      Runs (c p) s (givesAt 0x0104 0)) ∧
    (four → sp.opcode ≠ 0x0103 → p.jobTag ≠ (if sp.job then w.job.tag else 0) → Runs (c p) s (givesAt 0x0405 0))) : Prop)

/-- Read commands reply their data and change nothing (Table 12-12, R25, R318, R327, R359, R365).
A read that passes its checks is answered DONE: NOP with no data, IDENTIFY with the identity, TIME_READ with count, tick, wall clock and synchronisation,
QUAY_READ, SNAP_READ and MAP_READ with the bytes asked for, POWER_READ and MARGIN_READ with their tables, TALLY_READ with entries from the INDEX asked for on, DETAIL the oldest
held, STATUS with Table 12-11. Nothing else changes, and no tally entry is made. -/
def Obligations.ReadCommandsReplyTheirData : Prop :=
  ∀ (p : Packet) (s : State),
    let w := s.w
    let f := fieldAt p.params
    let tells := fun (c : Instr) (sp : CmdSpec) (detail : Nat) (data : List Byte) => w.passes sp p = true →
      Runs c s (fun t => w.finished t sp p 0 detail data ∧ w.onlyAnswers t p noReg ∧ t.shp.tallyBuf = w.shp.tallyBuf)
    let stage := match w.job.image with
      | some img => if w.running then stageOf img w.job.t0 w.tick else 0
      | none => 0
    let first := max (f 0 8) w.tallyOldest
    tells (.nop p) nopSpec 0 [] ∧ tells (.identify p) identifySpec 0 (Config.identifyBody w.identity) ∧
    tells (.timeRead p) timeReadSpec 0 (natLE 8 w.countNow ++ natLE 8 (w.reg64 (lckBase + Reg.lckTickTick.off)) ++ natLE 8 (w.rd lckBase Reg.lckWallWall) ++
      natLE 8 (w.reg64 (lckBase + Reg.lckSyncstatOffset.off))) ∧
    tells (.quayRead p) quayReadSpec 0 (w.quayRead (f 0 8) (f 8 4)) ∧
    tells (.snapRead p) snapReadSpec 0
      ((List.range (f 8 4 / 8)).flatMap fun k => natLE 8 (snapReg (w.time.snaps.getD (f 0 1) (0, [])).2 (f 4 4 + 8 * k))) ∧
    (f 0 4 < 0x10000 → tells (.mapRead p) mapReadSpec 0 (bytesAt w.map.bytes (f 0 4) (f 4 4))) ∧
    (0x10000 ≤ f 0 4 → tells (.mapRead p) mapReadSpec 0 (bytesAt w.proposalBytes (f 0 4 - 0x10000) (f 4 4))) ∧
    tells (.powerRead p) powerReadSpec 0 w.powerData ∧ tells (.marginRead p) marginReadSpec 0 w.planBytes ∧
    tells (.tallyRead p) tallyReadSpec (w.tallyOldest % 2 ^ 32)
      (((w.tallyHeld.filter fun (e : TallyEntry) => decide (first ≤ e.index)).take (f 8 4)).flatMap TallyEntry.bytes) ∧
    tells (.status p) statusSpec 0 (natLE 1 w.job.phase.code ++ natLE 3 0 ++ natLE 4 w.job.tag ++ natLE 6 w.job.t0 ++ natLE 6 w.tick ++
      natLE 4 stage ++ natLE 8 (w.reg64 (lckBase + Reg.lckOvrstatValid.off)) ++ natLE 6 (w.rd lckBase Reg.lckOvrtickTick) ++
      natLE 2 w.job.firstFault ++ natLE 2 (w.inflightTotal + 1) ++ natLE 2 (w.rd pwrBase Reg.pwrGearFloor) ++ natLE 20 0)

/-! ## Jobs (R298 to R301) -/

/-- LOAD, PLACE and ARM take a job from an image to ARMED (R127, R128, R223, R298, R300).
LOAD and PLACE are answered ACCEPTED and act at their boundary. LOAD keeps the checked image and the job is LOADED. A PLACE whose cores lack a route is
refused 0x0202 with no effect (but the remaps that come before it); one whose fields all stand in RUN commits: the job is PLACED on its fields with its SCRATCH. Placing a core leaves its code and data in its memory and zero elsewhere in it, other
memory as it was. ARM sets phase, tag, ARMID and children, stages the tag on every port and stays at work. ARM_BASIN_ZEROED clears every basin line
and answers once every child is done. -/
def Obligations.JobsAreLoadedPlacedAndArmed : Prop :=
  TakesEffect .load loadSpec (fun _ _ => True) (fun v fl t => ∃ img, v.imageAt fl.p = .ok img ∧
    t.job = { v.job with image := some img, faulted := false, phase := .loaded } ∧ v.answered t fl 0 0 ∧
    v.onlyAnswers { t with job := v.job } fl.p noReg) ∧
  TakesEffect .place placeSpec (fun v p => v.health.clustersDue = [] ∧ v.routesOk (v.placeTable p) = false) (fun v fl t =>
    v.answered t fl 0x0202 0 ∧ v.onlyAnswers t fl.p noReg) ∧
  TakesEffect .place placeSpec (fun v p => v.health.clustersDue = [] ∧ v.routesOk (v.placeTable p) = true ∧
    (∀ f ∈ v.placeTable p, v.fieldState f = 0 ∧ v.fieldMoving f = false ∧ f ∉ v.health.surveying ∧ v.canWake f = true ∧
      v.fieldUsable f = true) ∧ ∀ x ∈ v.cmd.inflight, x.opcode ≠ 0x0102) (fun v fl t =>
      t.job.phase = .placed ∧ t.job.placement = v.placeTable fl.p ∧ t.job.scratch = fieldAt fl.p.params 8 1 ∧ t.job.placing = none ∧
      t.job.image = v.job.image ∧ v.answered t fl 0 0) ∧
  (∀ (v : Wafer) (img : Image) (lf f k : Nat) (c : ImageCore), img.cores.find? (fun x => x.logical == lf * 16 + k) = some c →
    c.codeBase + c.code.length ≤ 2 ^ 24 → c.dataBase + c.data.length ≤ 2 ^ 24 →
    let site := v.siteOf f (k / 4) (k % 4)
    let t := v.placeCore img lf f k
    (∀ a, a < 2 ^ 24 → t.coreMem.get (coreAddr site a) =
      if c.dataBase ≤ a ∧ a < c.dataBase + c.data.length then c.data.getD (a - c.dataBase) 0#8
      else if c.codeBase ≤ a ∧ a < c.codeBase + c.code.length then c.code.getD (a - c.codeBase) 0#8 else 0#8) ∧
    (∀ x, x < coreAddr site 0 ∨ coreAddr (site + 1) 0 ≤ x → t.coreMem.get x = v.coreMem.get x) ∧
    (t.core site).logical = some (lf * 16 + k) ∧ (t.core site).codeBase = c.codeBase ∧ (t.core site).codeSize = c.code.length ∧
    (t.core site).entries = c.entries ∧ v.sameOtherCores t site) ∧
  (∀ (p : Packet) (s : State), s.w.passes armSpec p = true → Runs (.arm p) s (fun t =>
    t.job.phase = .armed ∧ t.job.tag = p.jobTag ∧ t.job.t0 = 0 ∧ t.job.children = (armChildren p).map (fun c => (c, none)) ∧
    t.job.basinZeroed = false ∧ t.job.placement = s.w.job.placement ∧ t.job.image = s.w.job.image ∧
    t.rd cmdmBase Reg.cmdArmArmid = fieldAt p.params 0 4 ∧ t.rd cmdmBase Reg.cmdArmTag = p.jobTag % 2 ^ 32 ∧
    (∀ i, i < 176 → t.rd (portBase i) Reg.tpTagStaged = p.jobTag % 2 ^ 32 ∧ t.rd (portBase i) Reg.tpLinkstatStagedv = 1 ∧
      t.rd (portBase i) Reg.tpTagCur = s.w.rd (portBase i) Reg.tpTagCur) ∧
    s.w.working t armSpec p ∧ s.w.sameMemory t ∧ t.cores = s.w.cores ∧ t.fences = s.w.fences)) ∧
  (∀ s : State, s.w.job.phase = .armed → s.w.job.basinZeroed = false → Runs .armBasinZeroed s (fun t =>
    (∀ k a, k < 32 → s.w.basinBase k ≤ a → a < s.w.basinBase k + s.w.basinSize k → t.stkMem.get (stkAddr k a) = 0#8) ∧
    (∀ x, (∀ k, k < 32 → x < stkAddr k (s.w.basinBase k) ∨ stkAddr k (s.w.basinBase k + s.w.basinSize k) ≤ x) →
      t.stkMem.get x = s.w.stkMem.get x) ∧
    t.job = { s.w.job with basinZeroed := true } ∧
    ((∀ c ∈ s.w.job.children, c.2 = some 0) → s.w.endedOne t isArmPacket 0 0) ∧
    ((∃ c ∈ s.w.job.children, c.2 ≠ some 0) → t.cmd = s.w.cmd))) ∧
  (∀ s : State, (s.w.job.phase ≠ .armed ∨ s.w.job.basinZeroed = true) → Runs .armBasinZeroed s (fun t => t = s.w))

/-- An ARM hears its children, expires, or starts at T0 (R298, R300, R301).
A child's first status is kept; the first that is not DONE answers the ARM with 0x0504 and the child's index, and a time-out of 64 ticks plus 32 ms counts as 0x0504. After 10 s
without a START the job is PLACED again with no staged tag, the ARM answered 0x0408. A START names T0: one whose boundary has come is 0x0404 and disarms; otherwise T0 is kept and the START
stays at work. At T0 registers and semaphores of the job's cores are zero, staged tags are current, and the job RUNS.
QUIESCE and ABORT stop the job at their boundary (R223, R299). Both leave the job STOPPED with every current and staged tag 0, ARMID 0, no stage issuing on a core of the job, and the memories as they were.
QUIESCE stays at work until the VL0 and VL1 queues are empty, and QUIESCE_DRAINED then answers it; ABORT drops the queued VL0 and VL1 frames and is answered at once. Without a job to
stop an ABORT leaves the job's state. -/
def Obligations.ArmsHearTheirChildrenAndStart : Prop :=
  ((
  (∀ (k st : Nat) (s : State), s.w.job.phase = .armed →
    (∀ c, s.w.job.children[k]? = some (c, none) →
      (st ≠ 0 → Runs (.armChildReply k st) s (fun t => t.job = { s.w.job with children := listSet s.w.job.children k (c, some st) } ∧
        s.w.endedOne t isArmPacket 0x0504 k ∧ s.w.sameMemory t)) ∧
      (st = 0 → s.w.job.basinZeroed = false → Runs (.armChildReply k st) s (fun t =>
        t.job = { s.w.job with children := listSet s.w.job.children k (c, some 0) } ∧ t.cmd = s.w.cmd ∧ s.w.sameMemory t)) ∧
      (64 * s.w.period + 40000000 ≤ s.w.armAge → Runs (.armChildTimeout k) s (fun t =>
        t.job = { s.w.job with children := listSet s.w.job.children k (c, some 0x0504) } ∧ s.w.endedOne t isArmPacket 0x0504 k)) ∧
      (s.w.armAge < 64 * s.w.period + 40000000 → Runs (.armChildTimeout k) s (fun t => t = s.w))) ∧
    ((∀ c, s.w.job.children[k]? ≠ some (c, none)) → Runs (.armChildReply k st) s (fun t => t = s.w))) ∧
  (∀ s : State, s.w.job.phase = .armed → s.w.startSet = false → 12500000000 ≤ s.w.armAge → Runs .armExpiry s (fun t =>
    t.job.phase = .placed ∧ t.job.expired = s.w.rd cmdmBase Reg.cmdArmArmid ∧ t.rd cmdmBase Reg.cmdArmArmid = 0 ∧
    (∀ i, i < 176 → t.rd (portBase i) Reg.tpTagStaged = 0 ∧ t.rd (portBase i) Reg.tpLinkstatStagedv = 0) ∧
    s.w.endedOne t isArmPacket 0x0408 0 ∧ s.w.sameMemory t ∧ t.cores = s.w.cores)) ∧
  (∀ s : State, (s.w.job.phase ≠ .armed ∨ s.w.startSet = true ∨ s.w.armAge < 12500000000) → Runs .armExpiry s (fun t => t = s.w)) ∧
  (∀ (p : Packet) (s : State), s.w.passes startSpec p = true →
    (tickFuture (fieldAt p.params 4 6) s.w.tick = false → Runs (.start p) s (fun t => t.job.phase = .placed ∧
      s.w.finished t startSpec p 0x0404 0 [] ∧ s.w.sameMemory t)) ∧
    (tickFuture (fieldAt p.params 4 6) s.w.tick = true → Runs (.start p) s (fun t =>
      t.job = { s.w.job with t0 := fieldAt p.params 4 6 } ∧ s.w.working t startSpec p ∧ s.w.sameMemory t ∧ t.cores = s.w.cores))) ∧
  (∀ v : Wafer, v.beginJob.job = { v.job with phase := .running } ∧
    (∀ site ∈ v.jobSites, ∀ k, (v.beginJob.core site).sget k = 0 ∧ (v.beginJob.core site).semGet k = 0 ∧
      (v.beginJob.core site).logical = (v.core site).logical) ∧
    (∀ i, i < 176 → v.beginJob.rd (portBase i) Reg.tpTagCur = v.rd (portBase i) Reg.tpTagStaged ∧
      v.beginJob.rd (portBase i) Reg.tpTagStaged = 0 ∧ v.beginJob.rd (portBase i) Reg.tpLinkstatStagedv = 0) ∧
    v.endedOne v.beginJob (fun x => x.opcode == 0x0104 && x.working) 0 0 ∧ v.sameMemory v.beginJob)) : Prop) ∧
  ((
  let stopped := fun (w t : Wafer) => t.job.phase = .stopped ∧ t.rd cmdmBase Reg.cmdArmArmid = 0 ∧ t.rd pwrBase Reg.pwrGearFloor = 0 ∧
    (∀ i, i < 176 → t.rd (portBase i) Reg.tpTagCur = 0 ∧ t.rd (portBase i) Reg.tpTagStaged = 0) ∧
    (∀ site ∈ w.jobSites, site < 2240 → t.rd (siteBase site) Reg.seqStatState = 0) ∧ t.cores = w.cores ∧ w.sameMemory t
  TakesEffect .quiesce quiesceSpec (fun _ _ => True) (fun v fl t => stopped v t ∧
    t.job.draining = true ∧ t.job.quiesceTick = some v.tick ∧ t.job.image = v.job.image ∧ t.job.placement = v.job.placement ∧
    (∃ x ∈ t.cmd.inflight, x.opcode = 0x0105 ∧ x.p = fl.p ∧ x.working = true)) ∧
  (∀ s : State, s.w.job.draining = true → s.w.queuesEmpty = true → Runs .quiesceDrained s (fun t =>
    t.job = { s.w.job with draining := false } ∧ s.w.endedOne t (fun x => x.opcode == 0x0105 && x.working) 0 0 ∧
    s.w.sameMemory t ∧ t.cores = s.w.cores)) ∧
  (∀ s : State, (s.w.job.draining = false ∨ s.w.queuesEmpty = false) → Runs .quiesceDrained s (fun t => t = s.w)) ∧
  TakesEffect .abort abortSpec (fun _ _ => True) (fun v fl t => t.replied fl.p 0x0106 0 0 0 [] ∧ t.cores = v.cores ∧ v.sameMemory t ∧
    (v.armedOrRunning = true → stopped v t ∧ t.job.draining = false ∧ (∀ i, i < 176 → ∀ f ∈ (t.port i).egress, 2 ≤ f.vl)) ∧
    (v.armedOrRunning = false → t.job = { v.job with placing := none, draining := false }))) : Prop)

/-! ## Configuration commands -/

/-- Configuration commands write what they carry (R34, R36, R50, R51, R56, R195, R222, R247, R255, R288, R302, R319).
SEQ_RESET moves NEXT past its own number, and QUAY_WRITE leaves its bytes in the quay. The others are answered ACCEPTED, and DONE when they take effect at their boundary. PLACE_SET commits the
address, which the module takes at the next boundary; PEN_QUOTA, TRAIN_SET and FLIP_PLAN write their tables; TICK_SCHEDULE sets E, B and P and retakes the tick, and TICK_RATE_CHANGE stages P′ and T;
TIME_SOURCE sets LCK_SRC and port asymmetries, TIME_SERVERS the servers; PEER_EXPECT a port's expected entry. Nothing else changes (of PEER_EXPECT, while the port's session is not up). -/
def Obligations.ConfigurationCommandsWriteWhatTheyCarry : Prop :=
  let wst := fun off => (0x3800000 ≤ off ∧ off < 0x3900000 : Prop)
  let lck := fun off => (0x200000 ≤ off ∧ off < 0x300000 : Prop)
  let any := fun (_ : Wafer) (_ : Packet) => True
  (∀ (p : Packet) (s : State), s.w.passes seqResetSpec p = true → Runs (.seqReset p) s (fun t =>
    s.w.finished t seqResetSpec p 0 0 [] ∧ s.w.onlyAnswers t p noReg)) ∧
  (∀ (p : Packet) (s : State), s.w.passes quayWriteSpec p = true → Runs (.quayWrite p) s (fun t =>
    let a := fieldAt p.params 0 8
    s.w.finished t quayWriteSpec p 0 0 [] ∧
    (∀ n, n < p.params.length - 8 → t.stkMem.get (quayAddr s.w (a + n)) = p.params.getD (8 + n) 0#8) ∧
    (∀ x, (∀ n, n < p.params.length - 8 → x ≠ quayAddr s.w (a + n)) → t.stkMem.get x = s.w.stkMem.get x) ∧
    s.w.onlyAnswers { t with stkMem := s.w.stkMem } p noReg)) ∧
  TakesEffect .placeSet placeSetSpec any (fun v fl t =>
    let a := fieldAt fl.p.params 0 4
    v.answered t fl 0 0 ∧ t.shp.place.value = some a ∧ t.shp.placeNew = some a ∧ t.rd 0 Reg.shpPlaceSet = 1 ∧
    t.rd 0 Reg.shpPlacePlace = v.rd 0 Reg.shpPlacePlace ∧
    v.onlyAnswers { t with shp := { t.shp with place := v.shp.place, placeNew := v.shp.placeNew } } fl.p noReg) ∧
  TakesEffect .penQuota penQuotaSpec any (fun v fl t =>
    let b := penBase (fieldAt fl.p.params 0 1)
    let q := fieldAt fl.p.params 1 8
    v.answered t fl 0 0 ∧ t.rd b Reg.tirPenqT1 = bits q 0 5 ∧ t.rd b Reg.tirPenqT2 = bits q 8 20 ∧ t.rd b Reg.tirPenqBasin = bits q 32 21 ∧
    v.onlyAnswers t fl.p (fun off => off = b)) ∧
  TakesEffect .trainSet trainSetSpec any (fun v fl t => v.answered t fl 0 0 ∧
    t.ingest = { v.ingest with trains := trainTable fl.p.params, relay := [] } ∧ v.onlyAnswers { t with ingest := v.ingest } fl.p wst) ∧
  TakesEffect .flipPlan flipPlanSpec any (fun v fl t => v.answered t fl 0 0 ∧ t.rd wstBase Reg.wstFlipStage = fieldAt fl.p.params 0 3 ∧
    t.rd wstBase Reg.wstFlipValid = 1 ∧ v.onlyAnswers t fl.p wst) ∧
  TakesEffect .tickSchedule tickScheduleSpec any (fun v fl t =>
    let f := fieldAt fl.p.params
    v.answered t fl 0 0 ∧ t.rd lckBase Reg.lckEpochEpoch = f 0 8 ∧ t.rd lckBase Reg.lckBasetickBase = f 8 6 ∧ t.period = f 14 4 ∧
    t.pendingRate = none ∧ t.tick = t.tickAt t.countNow ∧ t.countNow = v.countNow ∧ v.onlyAnswers { t with time := v.time } fl.p lck) ∧
  TakesEffect .tickRateChange tickRateChangeSpec any (fun v fl t => v.answered t fl 0 0 ∧
    t.pendingRate = some (fieldAt fl.p.params 0 4, fieldAt fl.p.params 4 6) ∧ t.period = v.period ∧ t.tick = v.tick ∧
    v.onlyAnswers t fl.p lck) ∧
  TakesEffect .timeSource timeSourceSpec any (fun v fl t =>
    let f := fieldAt fl.p.params
    v.answered t fl 0 0 ∧ t.rd lckBase Reg.lckSrcPhase = bits (f 0 8) 0 2 ∧ t.rd lckBase Reg.lckSrcFreq = bits (f 0 8) 2 2 ∧
    t.rd lckBase Reg.lckSrcUpstream = bits (f 0 8) 8 8 ∧ t.rd lckBase Reg.lckSrcAlt1 = bits (f 0 8) 16 8 ∧
    t.rd lckBase Reg.lckSrcAlt2 = bits (f 0 8) 24 8 ∧ (∀ i, 12 + 4 * i ≤ fl.p.params.length → (t.portTime i).asym = f (8 + 4 * i) 4) ∧
    t.countNow = v.countNow ∧ v.onlyAnswers { t with time := v.time } fl.p lck) ∧
  TakesEffect .timeServers timeServersSpec any (fun v fl t => v.answered t fl 0 0 ∧
    t.time = { v.time with servers := (List.range (fl.p.params.length / 5)).map fun i => fieldAt fl.p.params (5 * i) 5 } ∧
    v.onlyAnswers { t with time := v.time } fl.p noReg) ∧
  TakesEffect .peerExpect peerExpectSpec any (fun v fl t =>
    let f := fieldAt fl.p.params
    let b := portBase (f 0 1)
    t.replied fl.p 0x0304 0 0 0 [] ∧
    t.rd b Reg.tpExphash0Hash = f 1 8 ∧ t.rd b Reg.tpExphash1Hash = f 9 8 ∧ t.rd b Reg.tpExphash2Hash = f 17 8 ∧
    t.rd b Reg.tpExphash3Hash = f 25 8 ∧ t.rd b Reg.tpExpidPlace = bits (f 33 8) 0 25 ∧ t.rd b Reg.tpExpidPort = bits (f 33 8) 25 8 ∧
    t.rd b Reg.tpExpidKind = bits (f 33 8) 33 3 ∧ t.rd b Reg.tpExpidAny = bits (f 33 8) 36 3 ∧ t.rd b Reg.tpExpidValid = bits (f 33 8) 63 1 ∧
    (linkState v (f 0 1) ∉ [3, 5, 6] → v.answered t fl 0 0 ∧ v.onlyAnswers t fl.p (fun off => b + 0x38 ≤ off ∧ off ≤ b + 0x58)))

/-- ADMIT admits its sources and lays out the stacks, and fences are raised and lifted (R23, R24, R186, R189, R236, R237, R368).
An ADMIT that takes effect holds its sources with nothing verified, deals pages to the stacks, sets base, size and basin of every stack, and stays at work; ADMIT_BASIN_ZEROED clears the basin and
answers it. FENCE raises its unit's fence, leaves every other fence, and stops a running job that uses the unit; for a unit that is fenced it is DONE with no effect. UNFENCE lifts its unit's
fence alone; where a fault raised the fence again since its acceptance it answers 0x0401 with no effect. -/
def Obligations.AdmissionsAndFencesTakeEffect : Prop :=
  TakesEffect .admission admissionSpec (fun _ _ => True) (fun v fl t =>
    let l := admitSources fl.p.params
    let size := ceilDiv (imagePages l) 32
    t.ingest = { admitted := true, basinUnits := fieldAt fl.p.params 0 4, sources := l.map fun x => ({ src := x, expects := x.gen0 } : SrcSt) } ∧
    t.reservoir.place0 = dealPages (List.range (imagePages l)) ∧ t.reservoir.ready0 = [] ∧ t.reservoir.ready1 = [] ∧ t.pageCount = imagePages l ∧
    (∀ k, k < 32 → t.rd (stkBase k) Reg.stkResvBase0 = 0 ∧ t.rd (stkBase k) Reg.stkResvBase1 = size ∧
      t.rd (stkBase k) Reg.stkResvSize = size ∧ t.rd (stkBase k) Reg.stkBasinBase = 2 * size ∧
      t.rd (stkBase k) Reg.stkBasinSize = ceilDiv (fieldAt fl.p.params 0 4) 32) ∧
    v.atWork t fl ∧ t.coreMem = v.coreMem ∧ t.cluMem = v.cluMem ∧ t.accMem = v.accMem ∧ t.cores = v.cores ∧
    t.job = v.job ∧ t.reduce = v.reduce) ∧
  (∀ s : State, (s.w.cmd.inflight.any fun x => x.opcode == 0x0202 && x.working) = true → Runs .basinZeroed s (fun t =>
    (∀ k a, k < 32 → s.w.basinBase k ≤ a → a < s.w.basinBase k + s.w.basinSize k → t.stkMem.get (stkAddr k a) = 0#8) ∧
    (∀ x, (∀ k, k < 32 → x < stkAddr k (s.w.basinBase k) ∨ stkAddr k (s.w.basinBase k + s.w.basinSize k) ≤ x) →
      t.stkMem.get x = s.w.stkMem.get x) ∧ t.job = s.w.job ∧ t.ingest = s.w.ingest ∧
    s.w.endedOne t (fun x => x.opcode == 0x0202 && x.working) 0 0)) ∧
  (∀ s : State, (s.w.cmd.inflight.any fun x => x.opcode == 0x0202 && x.working) = false → Runs .basinZeroed s (fun t => t = s.w)) ∧
  TakesEffect .fence fenceSpec (fun _ _ => True) (fun v fl t =>
    let u := fenceUnitOf fl.p.params
    t.fenced u = true ∧ (∀ x, x ≠ u → t.fenced x = v.fenced x) ∧ t.raised = v.raised ++ [(u, 0x0B10)] ∧
    (v.unitInRun u = true → t.job.phase = .stopped ∧ t.job.faulted = true) ∧ (v.unitInRun u = false → t.job = v.job) ∧
    t.replied fl.p 0x0302 0 0 0 [] ∧ t.cluMem = v.cluMem ∧ t.stkMem = v.stkMem ∧ t.fwMem = v.fwMem) ∧
  (∀ (v : Wafer) (fl : InFlight), fl.opcode = 0x0302 → (v.stateStatus fenceSpec fl.p).1 = 0 → v.fenced (fenceUnitOf fl.p.params) = true →
    let t := v.takeEffect fenceSpec fl
    v.answered t fl 0 0 ∧ v.onlyAnswers t fl.p noReg) ∧
  TakesEffect .unfence unfenceSpec (fun _ _ => True) (fun v fl t =>
    let u := fenceUnitOf fl.p.params
    (v.fenceAnew u fl.mark = false → t.fenced u = false ∧ (∀ x, x ≠ u → t.fenced x = v.fenced x) ∧ v.answered t fl 0 0 ∧
      v.sameMemory t ∧ t.job = v.job ∧ t.cores = v.cores) ∧
    (v.fenceAnew u fl.mark = true → v.answered t fl 0x0401 0 ∧ v.onlyAnswers t fl.p noReg))

/-- Commands at a boundary are checked again, and tables, plans and gears change there (R230, R264, R275, R291, R323).
For every row, an effect whose unit is fenced is answered 0x0406, one whose state check now fails is answered with its status, and one that changes nothing (a FENCE of a fenced unit) is DONE, each with
no effect. At their steps GEAR_SET sets the commanded gear, PORT_PLAN the plan of every port, ROUTE_LOAD the route tables and CHAIN_LOAD the chain table (either refused whole 0x0105 when an entry
names a dark port), MEMBER_LOAD the members, COLL_LOAD the entries by ID. -/
def Obligations.BoundaryCommandsAreCheckedAgain : Prop :=
  let any := fun (_ : Wafer) (_ : Packet) => True
  (∀ (c : Packet → Instr) (sp : CmdSpec), (c, sp) ∈ commandRows → ∀ (v : Wafer) (fl : InFlight), fl.opcode = sp.opcode →
    let t := v.takeEffect sp fl
    let ends := fun (status detail : Nat) => v.answered t fl status detail ∧ v.onlyAnswers t fl.p noReg
    (sp.fenced v fl.p = true → ends 0x0406 0) ∧
    (sp.fenced v fl.p = false → (v.stateStatus sp fl.p).1 ≠ 0 → ends (v.stateStatus sp fl.p).1 (v.stateStatus sp fl.p).2) ∧
    (sp.fenced v fl.p = false → (v.stateStatus sp fl.p).1 = 0 → sp.idle v fl.p = true → ends 0 0)) ∧
  TakesEffect .gearSet gearSetSpec any (fun v fl t => v.answered t fl 0 0 ∧ t.rd pwrBase Reg.pwrGearCmd = fieldAt fl.p.params 0 2 ∧
    v.onlyAnswers t fl.p (fun off => off = pwrBase + Reg.pwrGearCmd.off)) ∧
  TakesEffect .portPlan portPlanSpec any (fun v fl t => v.answered t fl 0 0 ∧ v.sameMemory t ∧
    ∀ i, i < 176 → t.rd (portBase i) Reg.tpLinkctlPlan = fieldAt fl.p.params 0 1) ∧
  TakesEffect .routeLoad routeLoadSpec any (fun v fl t =>
    let f := fieldAt fl.p.params
    let routes := v.quayRead (f 0 8) (8 * f 8 4 + 32 * f 12 4 + 264 * f 16 4)
    let counts := (f 8 4, f 12 4, f 16 4)
    ((∀ e ∈ routePorts routes counts, v.portDark e.2 = false) →
      v.answered t fl 0 0 ∧ t.shp.routes = routeTables routes counts ∧ v.sameMemory t) ∧
    ((∃ e ∈ routePorts routes counts, v.portDark e.2 = true) → (∃ d, v.answered t fl 0x0105 d) ∧ v.onlyAnswers t fl.p noReg)) ∧
  TakesEffect .chainLoad chainLoadSpec any (fun v fl t =>
    let f := fieldAt fl.p.params
    let chains := chainList (v.quayRead (f 0 8) (32 * f 8 4)) (f 8 4)
    ((∀ e ∈ chains, ∀ q ∈ e.ports, v.portDark q = false) →
      v.answered t fl 0 0 ∧ t.reduce = { v.reduce with chains := chains } ∧ v.sameMemory t) ∧
    ((∃ e ∈ chains, ∃ q ∈ e.ports, v.portDark q = true) → (∃ d, v.answered t fl 0x0105 d) ∧ v.onlyAnswers t fl.p noReg)) ∧
  TakesEffect .memberLoad memberLoadSpec any (fun v fl t =>
    let f := fieldAt fl.p.params
    v.answered t fl 0 0 ∧ t.shp.members = (List.range (f 8 4)).map (fun i => fieldAt (v.quayRead (f 0 8) (5 * f 8 4)) (5 * i) 5) ∧
    v.onlyAnswers { t with shp := { t.shp with members := v.shp.members } } fl.p noReg) ∧
  TakesEffect .collLoad collLoadSpec any (fun v fl t =>
    let e := collEntry fl.p.params
    let n := fieldAt fl.p.params 0 4
    v.answered t fl 0 0 ∧ (∀ x ∈ v.reduce.colls, (∀ i, i < n → (e i).id ≠ x.id) → x ∈ t.reduce.colls) ∧
    (∀ i, i < n → (∀ j, i < j → j < n → (e j).id ≠ (e i).id) → e i ∈ t.reduce.colls) ∧ v.sameMemory t ∧
    t.reduce.chains = v.reduce.chains)

/-- Power, flood, firmware, root and reset commands (R308, R310, R333, R339, R341, R350, R363, R374).
At its boundary CAP_SET sets the cap, at most 44,000 W; FIELD_STATE starts the field on its way, and one already there is done; FLOOD_TEST begins a flood with every field FALLOW; MARGIN_SURVEY takes every
usable field outside the job; FW_COMMIT commits an image that passes and answers its failing check otherwise; FW_ACTIVATE names the boot slot; ROOT_ADD and ROOT_REMOVE change the partner roots only
under valid signatures. At once, BRAKE sets its source and, when none held before, every RUN field is at 300 MHz; FW_WRITE leaves its bytes in the slot, WRITTEN; RESET clears what its class
names, and HLT_RESET shows it. -/
def Obligations.PowerFirmwareAndResetCommands : Prop :=
  let pwr := fun off => (pwrBase ≤ off ∧ off < pwrBase + 0x1000 : Prop)
  let any := fun (_ : Wafer) (_ : Packet) => True
  ((
  TakesEffect .capSet capSetSpec (fun v _ => v.power.levels.getD 3 none = none) (fun v fl t => v.answered t fl 0 0 ∧
    t.cap = min (fieldAt fl.p.params 0 4) 44000 ∧ v.onlyAnswers t fl.p pwr) ∧
  TakesEffect .fieldState fieldStateSpec (fun v p => v.fieldMoving (fieldAt p.params 0 1) = false ∧
    ∀ x ∈ v.cmd.inflight, fieldStateOf (fieldAt p.params 0 1) x = none) (fun v fl t =>
    let k := fieldAt fl.p.params 0 1
    let st := fieldAt fl.p.params 1 1
    (v.fieldState k = st → v.answered t fl 0 0 ∧ v.onlyAnswers t fl.p noReg) ∧
    (v.fieldState k = 0 → st ≠ 0 → v.atWork t fl ∧ t.fieldTarget k = st ∧ t.fieldMoving k = true ∧ t.fieldState k = 0 ∧ v.sameMemory t) ∧
    (v.fieldState k ≠ 0 → v.fieldState k ≠ st → v.canWake k = true → v.atWork t fl ∧ t.fieldTarget k = 0 ∧ t.fieldMoving k = true ∧
      (t.fieldPower k).goal = (if st = 0 then (v.fieldPower k).goal else some st) ∧ t.rd (fieldBase k) Reg.fpwStateLastwake = 1 ∧
      v.sameMemory t)) ∧
  TakesEffect .floodTest floodTestSpec any (fun v fl t =>
    (∃ x, t.health.flood = some x ∧ x.full = (fieldAt fl.p.params 0 1 == 1) ∧ x.commanded = true ∧ x.testing = []) ∧
    t.rd hltBase Reg.hltFloodState = 1 ∧ (∀ k, k < 112 → t.fieldState k = 3) ∧ t.coreMem = {} ∧ t.cluMem = {} ∧ t.accMem = {} ∧
    t.stkMem = v.stkMem ∧ ∃ x ∈ t.cmd.inflight, x.opcode = 0x0603 ∧ x.p = fl.p ∧ x.working = true) ∧
  TakesEffect .marginSurvey marginSurveySpec any (fun v fl t =>
    (∀ k, k < 112 → (v.fieldRec k).status % 8 = 0 → v.health.map.current.isSome = true → v.fieldHeld k = false →
      k ∈ t.health.surveying ∨ k ∈ t.health.surveyTodo) ∧ v.sameMemory t ∧ t.job = v.job ∧
    (t.health.surveying = [] → v.answered t fl 0 0) ∧ (t.health.surveying ≠ [] → v.atWork t fl)) ∧
  TakesEffect .fwCommit fwCommitSpec any (fun v fl t =>
    let slot := fieldAt fl.p.params 0 1
    (v.fwCheck slot = 0 → v.answered t fl 0 0 ∧ t.slotState slot = .committed ∧ v.sameMemory t ∧ t.job = v.job) ∧
    (v.fwCheck slot ≠ 0 → v.answered t fl (v.fwCheck slot) 0 ∧ v.onlyAnswers t fl.p noReg)) ∧
  TakesEffect .fwActivate fwActivateSpec any (fun v fl t => v.answered t fl 0 0 ∧ t.bootSlot = fieldAt fl.p.params 0 1 ∧
    t.rd secBase Reg.secFwstatBootslot = fieldAt fl.p.params 0 1 ∧ v.sameMemory t) ∧
  TakesEffect .rootAdd rootAddSpec any (fun v fl t =>
    let r := v.rootAuth (fieldAt fl.p.params 0 8)
    (v.authSigned r = 0 → v.answered t fl 0 0 ∧ t.roots = v.roots ++ [⟨r.ed, r.ml, bit r.flags 0, bit r.flags 1⟩] ∧ v.sameMemory t) ∧
    (v.authSigned r ≠ 0 → v.answered t fl (v.authSigned r) 0 ∧ v.onlyAnswers t fl.p noReg)) ∧
  TakesEffect .rootRemove rootRemoveSpec any (fun v fl t =>
    let n := v.authSigned (v.rootAuth (fieldAt fl.p.params 32 8))
    (n = 0 → v.answered t fl 0 0 ∧ t.roots = v.roots.filter (fun r => r.hash != fieldAt fl.p.params 0 32) ∧ v.sameMemory t) ∧
    (n ≠ 0 → v.answered t fl n 0 ∧ v.onlyAnswers t fl.p noReg))) : Prop) ∧
  (∀ (p : Packet) (s : State),
    let w := s.w
    let f := fieldAt p.params
    (w.passes brakeSpec p = true → Runs (.brake p) s (fun t => w.finished t brakeSpec p 0 0 [] ∧
      t.rd pwrBase Reg.pwrBrakeApply = f 0 1 ∧ t.rd pwrBase Reg.pwrBrakeLevel = f 1 1 ∧
      t.power.levels = levelsWith w.power.levels 1 (if f 0 1 = 1 then some (pctOf (if f 1 1 = 0 then w.brkpct else f 1 1) w.cap) else none) ∧
      (f 0 1 = 1 → w.braking = false → ∀ k, k < 112 → w.fieldState k = 0 → t.applied k = 300) ∧ w.sameMemory t ∧ t.job = w.job)) ∧
    (w.passes fwWriteSpec p = true → Runs (.fwWrite p) s (fun t => w.finished t fwWriteSpec p 0 0 [] ∧ t.slotState (f 0 1) = .written ∧
      w.fwMem.holdsAt t.fwMem (fwAddr (f 0 1) (f 1 4)) (w.quayRead (f 5 8) (f 13 4)) ∧ t.stkMem = w.stkMem ∧ t.job = w.job)) ∧
    (w.passes resetSpec p = true → Runs (.reset p) s (fun t => t.rd hltBase Reg.hltResetCls = f 0 1 ∧ t.rd hltBase Reg.hltResetSource = 1 ∧
      t.fwMem = w.fwMem ∧
      (f 0 1 = 0 → (t.cmdPort (f 1 1)).held = [] ∧ ∀ x ∈ (t.cmdPort (f 1 1)).outgoing, x.entry.opcode = 0x0706) ∧
      (f 0 1 = 1 → (t.fieldState (f 1 1) = 1 ∨ t.fieldState (f 1 1) = 3) ∧
        ∀ a, coreAddr (20 * f 1 1) 0 ≤ a → a < coreAddr (20 * f 1 1 + 20) 0 → t.coreMem.get a = 0#8) ∧
      (f 0 1 = 2 → t.reduce.chains = [] ∧ t.reduce.runs = []) ∧
      (3 ≤ f 0 1 → t.job = {} ∧ t.coreMem = {} ∧ t.cluMem = {} ∧ t.accMem = {} ∧ t.stkMem = {} ∧ t.ingest = {} ∧ t.cores = [] ∧
        t.shp.members = []) ∧
      (4 ≤ f 0 1 → t.cmd.inflight = [] ∧ t.chamber = {} ∧ t.period = 125000) ∧
      (f 0 1 ≤ 3 → t.replied p 0x0706 0 0 0 []) ∧ (f 0 1 = 5 → ∀ k, k < 112 → t.fieldState k = 3))))

/-! ## Rings, registers and the management plane -/

/-- Reply rings are written in order, and register writes follow Tables 1-2 and 12-13 (R6, R9, R284, R292, R293, R316, R317).
REPLY_WRITE moves everything produced behind a full ring; else it writes the oldest held reply, then the oldest produced, then an event: data first, then the entry at the head, which advances modulo twice the size.
A tail write sets the tail, a write of 1 to EN resets head and tail. A register write is ignored where the offset is unassigned or the tally is full; a plain RW or RWL field takes its value within
range or ignores one that its rule refuses, a W1C bit falls to a 1, a RO field stands, and a late register's write waits for the boundary. JTAG reads and writes as a host does, and its read of LCK_WALL latches LCK_WALLCNT; a built-in self-test of a held unit is refused with no
effect, and of another it stops. -/
def Obligations.RingsAndRegistersAreWritten : Prop :=
  (∀ (port : Nat) (s : State), port < 2 →
    let w := s.w
    let c := w.cmdPort port
    let b := cmdBase port
    let n := 2 ^ w.rd b Reg.cmdRingcfgRsize
    let h := w.rd b Reg.cmdRingheadHead
    let live := w.dutyUp 0 = true ∧ w.rd b Reg.cmdRingcfgEn = 1 ∧ w.rd b Reg.cmdRingcfgRsize ≤ 16
    let wrote := fun (e : Reply) (addr : Nat) (data : List Byte) (t : Wafer) =>
      t.out = w.out ++ (if data = [] then [] else [.hostWrite port addr data]) ++
        [.ringEntry port (w.rd b Reg.cmdRingbaseBase * 2 ^ 12 + h % n * 32) e (w.ringPhase port)] ∧
      t.rd b Reg.cmdRingheadHead = (h + 1) % (2 * n) ∧ t.cmd.inflight = w.cmd.inflight ∧ w.sameMemory t ∧ w.sameUnits t
    ((w.dutyUp 0 = false ∨ w.rd b Reg.cmdRingcfgEn = 0) → Runs (.replyWrite port) s (fun t => t = w)) ∧
    (live → w.ringFull port = true → Runs (.replyWrite port) s (fun t => t.out = w.out ∧
      t.cmdPort port = { c with held := c.held ++ c.outgoing, outgoing := [] } ∧
      t.rd b Reg.cmdSeqRheld = min (c.held.length + c.outgoing.length) 511 ∧ t.rd b Reg.cmdRingheadHead = h)) ∧
    (∀ r l, live → w.ringFull port = false → c.held = r :: l → Runs (.replyWrite port) s (fun t => wrote r.entry r.addr r.data t ∧
      (t.cmdPort port).held = l ∧ (t.cmdPort port).outgoing = c.outgoing)) ∧
    (∀ r l, live → w.ringFull port = false → c.held = [] → c.outgoing = r :: l → Runs (.replyWrite port) s (fun t =>
      wrote r.entry r.addr r.data t ∧ (t.cmdPort port).held = [] ∧ (t.cmdPort port).outgoing = l)) ∧
    (∀ e l, live → w.ringFull port = false → c.held = [] → c.outgoing = [] → c.events = e :: l → Runs (.replyWrite port) s (fun t =>
      wrote (w.eventEntry port e) 0 [] t ∧ (t.cmdPort port).events = l ∧ (t.cmdPort port).evCount = c.evCount + 1)) ∧
    (∀ path tail, w.tallyFull = false → Runs (.cmdRingtailWrite path port tail) s (fun t =>
      t.rd b Reg.cmdRingtailTail = tail % 2 ^ 17 ∧ t.rd b Reg.cmdRingheadHead = h ∧ t.cmd = w.cmd ∧ w.sameMemory t ∧ w.sameUnits t)) ∧
    (∀ path (v : BitVec 64), w.tallyFull = false → Runs (.ringEnable path port v) s (fun t =>
      t.rd b Reg.cmdRingcfgRsize = max 6 (min 16 (v.toNat % 32)) ∧ t.rd b Reg.cmdRingcfgEn = bits v.toNat 5 1 ∧
      t.rd b Reg.cmdRingcfgIrq = bits v.toNat 6 1 ∧ t.rd b Reg.cmdRingcfgEvents = bits v.toNat 7 1 ∧
      (bit v.toNat 5 = true → t.rd b Reg.cmdRingheadHead = 0 ∧ t.rd b Reg.cmdRingtailTail = 0) ∧
      (bit v.toNat 5 = false → t.rd b Reg.cmdRingheadHead = h) ∧ w.sameMemory t ∧ w.sameUnits t))) ∧
  (∀ (path off lanes : Nat) (v : BitVec 64) (s : State),
    let w := s.w
    ((blockOf off = none ∨ w.tallyFull = true) → Runs (.registerWrite path off v lanes) s (fun t => t = w)) ∧
    (∀ b base, blockOf off = some (b, base) → w.tallyFull = false →
      (lateRegister b (off - base) = true → ¬ (b = .lck ∧ off - base = Reg.lckSrcPpsseed.off) →
        (regFields off).any (fun d => d.ty == .rw && touched lanes d.fld) = true → Runs (.registerWrite path off v lanes) s (fun t =>
          t = { w with time := { w.time with late := w.time.late ++ [⟨path, off, v.toNat, lanes, w.rd lckBase Reg.lckPdselPort, none⟩] } })) ∧
      (lateRegister b (off - base) = false → b ∉ [.lck, .cmdp, .pwr, .tir, .shp, .sec] → ∀ d ∈ regFields off,
        (d.ty = .ro → Runs (.registerWrite path off v lanes) s (fun t => t.rd 0 d.fld = w.rd 0 d.fld)) ∧
        (d.ty = .rw ∨ d.ty = .rwl → touched lanes d.fld = false → Runs (.registerWrite path off v lanes) s (fun t => t.rd 0 d.fld = w.rd 0 d.fld)) ∧
        (d.ty = .rw ∨ d.ty = .rwl → touched lanes d.fld = true →
          let x := bits (mergeLanes lanes v.toNat (w.reg64 off)) d.fld.lo d.fld.len
          (w.fieldRefuses b (off - base) d.fld.lo x = true → Runs (.registerWrite path off v lanes) s (fun t => t.rd 0 d.fld = w.rd 0 d.fld)) ∧
          (w.fieldRefuses b (off - base) d.fld.lo x = false → Runs (.registerWrite path off v lanes) s (fun t =>
            t.rd 0 d.fld = clampField b (off - base) d.fld.lo x % 2 ^ d.fld.len ∧ w.sameMemory t ∧ t.job = w.job))) ∧
        (d.ty = .w1c → touched lanes d.fld = true → Runs (.registerWrite path off v lanes) s (fun t =>
          t.rd 0 d.fld = if bits (mergeLanes lanes v.toNat 0) d.fld.lo d.fld.len = 1 then 0 else w.rd 0 d.fld))))) ∧
  (∀ (off f k i : Nat) (v : BitVec 64) (s : State),
    Runs (.jtagInstruction .boundaryScan) s (fun t => t = s.w) ∧
    (off ≠ lckBase + Reg.lckWallWall.off →
      Runs (.jtagInstruction (.readReg off)) s (fun t => t = s.w.emit (.readData (natLE 8 (s.w.reg64 off)) false))) ∧
    Runs (.jtagInstruction (.readReg (lckBase + Reg.lckWallWall.off))) s (fun t => t.rd lckBase Reg.lckWallcntCount = s.w.countNow ∧
      t.out = s.w.out ++ [.readData (natLE 8 (s.w.reg64 (lckBase + Reg.lckWallWall.off))) false] ∧
      { t with regs := s.w.regs, out := s.w.out } = s.w) ∧
    exec (.jtagInstruction (.writeReg off v)) s = exec (.registerWrite 7 off v 0xFF) s ∧
    (f < 112 → s.w.armedOrRunning = true → s.w.fieldHeld f = true → Runs (.jtagInstruction (.bistField f)) s (fun t => t = s.w)) ∧
    (f < 112 → (s.w.armedOrRunning = false ∨ s.w.fieldHeld f = false) → exec (.jtagInstruction (.bistField f)) s = .refused .jtagUnspecified) ∧
    (k < 32 → s.w.armedOrRunning = true → Runs (.jtagInstruction (.bistStack k)) s (fun t => t = s.w)) ∧
    (k < 32 → s.w.armedOrRunning = false → exec (.jtagInstruction (.bistStack k)) s = .refused .jtagUnspecified) ∧
    (i < 176 → s.w.portInJob i = true → Runs (.jtagInstruction (.bistPort i)) s (fun t => t = s.w)) ∧
    (i < 176 → s.w.portInJob i = false → exec (.jtagInstruction (.bistPort i)) s = .refused .jtagUnspecified))

/-- Management frames and MCTP messages reach their unit, go on, or are dropped (R220, R229, R322 to R324).
A frame on a link that is down or without lane 2 is dropped and counted at the port; one with TTL 0 or 1, a reserved type or a group the module has no entry for, in MLDROP. One for another place goes
out on the route's port with TTL one less, or is dropped in MLDROP without a route. The frame's place in the receive buffer is freed each time. A single-frame command for this module joins its inbox. MCTP control is always answered; without an endpoint ID nothing else
on I3C is; a command joins the inbox while it holds fewer than 256; PLDM of types 0 and 2 is answered from the sensors; other types are dropped. SET_ENDPOINT_ID sets the ID. -/
def Obligations.ManagementMessagesAreRouted : Prop :=
  (∀ (port : Nat) (fr : Frame) (s : State), port < 176 →
    let w := s.w
    let l := fr.payload
    let place := fieldAt l 0 5 / 2 ^ 15
    let unicast := fieldAt l 0 5 / 2 ^ 8 % 2 ^ 7 ≠ 125
    let good := portCarries w port 2 = true ∧ (linkState w port = 5 ∨ linkState w port = 6)
    let took := w.rxTook port 2 0 l
    let noted := fun (t : Wafer) => t.ports = took.ports ∧ t.out = took.out ∧ w.onlyNotes { t with ports := w.ports }
    let dropped := fun (t : Wafer) => w.countedBy t 0 Reg.shpMldrop 1 ∧ noted t ∧ t.shp.gathering = w.shp.gathering ∧
      t.cmd.inboxMl = w.cmd.inboxMl
    let alive := good ∧ 2 ≤ fieldAt l 10 1 ∧ fieldAt l 11 1 % 16 < 4
    ((portCarries w port 2 = false ∨ (linkState w port ≠ 5 ∧ linkState w port ≠ 6)) → Runs (.mgmtFrame port fr) s (fun t =>
        w.countedBy t (portBase port) Reg.tpDropvl 1 ∧ noted t)) ∧
    (alive → ¬ unicast → (∀ e ∈ w.shp.routes.mcast, e.1 ≠ place % 2 ^ 12) → Runs (.mgmtFrame port fr) s dropped) ∧
    (good → (fieldAt l 10 1 < 2 ∨ 4 ≤ fieldAt l 11 1 % 16) → Runs (.mgmtFrame port fr) s dropped) ∧
    (alive → unicast → place ≠ w.rd 0 Reg.shpPlacePlace → w.mlPort place = none → Runs (.mgmtFrame port fr) s dropped) ∧
    (∀ i, alive → unicast → place ≠ w.rd 0 Reg.shpPlacePlace → w.mlPort place = some i → Runs (.mgmtFrame port fr) s (fun t =>
      t = took.queueFrame i 2 2 0 (l.take 10 ++ natLE 1 (fieldAt l 10 1 - 1) ++ l.drop 11))) ∧
    (alive → place = w.rd 0 Reg.shpPlacePlace → fieldAt l 0 5 % 2 ^ 15 = 127 * 2 ^ 8 → fieldAt l 11 1 = 0x30 → fieldAt l 14 2 = 0 →
      l.length ≤ 8208 → w.dutyUp 1 = true → w.cmd.inboxMl.length < 256 → Runs (.mgmtFrame port fr) s (fun t =>
        t.cmd = { w.cmd with inboxMl := w.cmd.inboxMl ++ [messageOf 2 (fieldAt l 5 5) (l.drop 16)] } ∧ w.sameMemory t ∧ w.sameUnits { t with ports := w.ports })) ∧
    (alive → unicast → place = w.rd 0 Reg.shpPlacePlace →
      (fieldAt l 0 5 / 2 ^ 8 % 2 ^ 7 ≠ 127 ∨ unitTakes (fieldAt l 11 1 % 16) (fieldAt l 0 5 % 2 ^ 8) = false) →
      Runs (.mgmtFrame port fr) s dropped)) ∧
  (∀ (m : MctpMsg) (s : State),
    let w := s.w
    let up := w.dutyUp 1 = true
    let ready := m.via ≠ 0 ∨ w.shp.eid ≠ 0
    (w.dutyUp 1 = false → Runs (.mctpMessage m) s (fun t => t = w) ∧ Runs (.pldmRequest m) s (fun t => t = w)) ∧
    (up → m.mtype = 0 → m.via = 0 → Runs (.mctpMessage m) s (fun t => t = w.emit (.mctp m.src 0 (Config.mctpControlBody m.body w.shp.eid)))) ∧
    (up → m.mtype ≠ 0 → ¬ ready → Runs (.mctpMessage m) s (fun t => t = w)) ∧
    (up → m.mtype = 0x7F → m.via = 0 → ready → w.cmd.inboxMctp.length < 256 → Runs (.mctpMessage m) s (fun t =>
      t = { w with cmd := { w.cmd with inboxMctp := w.cmd.inboxMctp ++ [messageOf 3 m.src (m.body.drop 4)] } })) ∧
    (up → m.mtype = 0x7F → m.via = 0 → ready → 256 ≤ w.cmd.inboxMctp.length → Runs (.mctpMessage m) s (fun t => t = w)) ∧
    (up → m.mtype ∉ [0, 1, 5, 0x7F] → Runs (.mctpMessage m) s (fun t => t = w)) ∧
    (up → m.via = 0 → w.shp.eid ≠ 0 → w.inRecovery = false → pldmType m.body ∈ [0, 2] → Runs (.pldmRequest m) s (fun t =>
      t = w.emit (.mctp m.src 1 (Config.pldmBody m.body w.powerData)))) ∧
    (up → (w.inRecovery = true ∨ pldmType m.body ∉ [0, 2]) → Runs (.pldmRequest m) s (fun t => t = w)) ∧
    (∀ eid, up → Runs (.setEndpointId eid) s (fun t => t = { w with shp := { w.shp with eid := eid % 256 } })))

/-! ## Security and Shepherd -/

/-- The SPDM responder answers requests in their order (R312 to R314).
On any connection: GET_VERSION starts afresh with 1.3; capabilities need a version, algorithms capabilities, and the rest Ed25519 and SHA3-256 selected from the offer; a request too early is answered ERROR unexpected, and a bad slot or index ERROR invalid, with no
change. Each answered request joins the transcript with its response. A signed response carries the Ed25519 signature over the transcript hash, which PQSIG then signs with ML-DSA-65. While pair 1's duty is not served nothing
is answered. Request codes and layouts are the model's (log entry 3). -/
def Obligations.SpdmAnswersInOrder : Prop :=
  ∀ (c : Nat) (req : List Byte) (s : State),
    let w := s.w
    let x := w.conn c
    let f := fieldAt req
    let up := w.dutyUp 1 = true
    let err := fun (e : Nat) (t : Wafer) => t = w.spdmSend c (Config.spdmBody 0x7F (natLE 1 e))
    let tells := fun (code : Nat) (content : List Byte) (y : SpdmConn) (t : Wafer) => t = (w.setConn c { y with
      transcript := y.transcript ++ req ++ Config.spdmBody code content, signed := none }).spdmSend c (Config.spdmBody code content)
    let signs := fun (code : Nat) (content : List Byte) (t : Wafer) =>
      let h := Config.transcriptHash (x.transcript ++ req ++ Config.spdmBody code content)
      t = (w.setConn c { x with transcript := [], signed := some h }).spdmSend c (Config.spdmBody code content ++ Config.edSign h)
    let slot := f 2 1 % 16
    (w.dutyUp 1 = false → ∀ i ∈ [Instr.getVersion c req, .getCapabilities c req, .negotiateAlgorithms c req, .getDigests c req,
      .getCertificate c req, .challenge c req, .getMeasurements c req, .pqsig c req], Runs i s (fun t => t = w)) ∧
    (up → Runs (.getVersion c req) s (tells 0x04 (natLE 2 0x0103) { version := true })) ∧
    (up → x.version = true → Runs (.getCapabilities c req) s (tells 0x61 (natLE 4 spdmFlags) { x with caps := true })) ∧
    (up → x.version = false → Runs (.getCapabilities c req) s (err 4)) ∧
    (up → x.caps = true → Runs (.negotiateAlgorithms c req) s
      (tells 0x63 (spdmSelect req) { x with algs := offerAsym req && offerHash req })) ∧
    (up → x.caps = false → Runs (.negotiateAlgorithms c req) s (err 4)) ∧
    (up → x.algs = false → ∀ i ∈ [Instr.getDigests c req, .getCertificate c req, .challenge c req, .getMeasurements c req], Runs i s (err 4)) ∧
    (up → x.algs = true →
      Runs (.getDigests c req) s (tells 0x01 (natLE 32 (sha3 Config.edChain) ++ natLE 32 (sha3 Config.mlChain)) x) ∧
      (slot ≤ 1 → f 4 2 ≤ (certChain slot).length → Runs (.getCertificate c req) s
        (tells 0x02 (((certChain slot).drop (f 4 2)).take (f 6 2)) x)) ∧
      ((1 < slot ∨ (certChain slot).length < f 4 2) → Runs (.getCertificate c req) s (err 1)) ∧
      (f 2 1 = 0 → Runs (.challenge c req) s (signs 0x03 (natLE 32 (sha3 Config.edChain)))) ∧
      (f 2 1 ≠ 0 → Runs (.challenge c req) s (err 1)) ∧
      (∀ content, measurementsAsked w (f 3 1) = some content →
        (bit (f 2 1) 0 = true → Runs (.getMeasurements c req) s (signs 0x60 content)) ∧
        (bit (f 2 1) 0 = false → Runs (.getMeasurements c req) s (tells 0x60 content x))) ∧
      (measurementsAsked w (f 3 1) = none → Runs (.getMeasurements c req) s (err 1))) ∧
    (∀ h, up → x.signed = some h → Runs (.pqsig c req) s (fun t => t = w.spdmSend c (Config.spdmBody 0x7E (Config.mlSign h)))) ∧
    (up → x.signed = none → Runs (.pqsig c req) s (err 4))

/-- Lockstep pairs restart and retire, and Shepherd boots, flushes the tally, burns fuses and draws nonces (R305, R306, R308, R311, R317).
A mismatch or an expired sheepdog takes its pair down, the third time within an hour for good; the other pairs stand, and when the pair served commands those accepted and not applied leave. A restarted pair is up again; once
none is down the waiting events go out in order, and replies that waited for the interpreter leave. BOOT runs the first slot from the boot slot on that passes its checks, or the recovery service. FUSE_BURN raises the fuses to the running SVN only while they wait, pair 3 is served and the tally has
room. TALLY_FLUSH, a duty of pair 3 too, moves the oldest entries to flash and commits the head. SEC_NONCE_READ shows a free value. -/
def Obligations.ShepherdRestartsBootsAndRecords : Prop :=
  (∀ (k : Nat) (s : State), k < 4 → (s.w.pair k).up = true → (s.w.pair k).retired = false → ∀ i ∈ [Instr.pairLockstepMismatch k, .pairSheepdogExpiry k],
    let recent := s.w.countNow :: ((s.w.pair k).restarts.filter fun r => decide ((s.w.countNow + 2 ^ 64 - r) % 2 ^ 64 < 4500000000000))
    Runs i s (fun t => t.pair k = { up := false, retired := decide (3 ≤ recent.length), restarts := recent.take 3 } ∧
      (∀ j, j < 4 → j ≠ k → t.pair j = s.w.pair j) ∧
      t.cmd.inflight = (if s.w.carrier 0 = some k then s.w.cmd.inflight.filter (fun x => x.working) else s.w.cmd.inflight) ∧
      s.w.sameMemory t ∧ t.job = s.w.job ∧ t.cores = s.w.cores ∧ t.engines = s.w.engines)) ∧
  (∀ (k : Nat) (s : State), k < 4 → ((s.w.pair k).up = false ∨ (s.w.pair k).retired = true) →
    Runs (.pairLockstepMismatch k) s (fun t => t = s.w) ∧ Runs (.pairSheepdogExpiry k) s (fun t => t = s.w)) ∧
  (∀ (k : Nat) (s : State), k < 4 → (s.w.pair k).up = false → (s.w.pair k).retired = false → Runs (.pairRestartDone k) s (fun t =>
    let idle := s.w.cmd.msgs = [] ∧ s.w.power.capKept = none ∧ s.w.health.mapDue = none ∧ s.w.health.planDue = none
    t.pair k = { s.w.pair k with up := true } ∧ (∀ j, j < 4 → j ≠ k → t.pair j = s.w.pair j) ∧ s.w.sameMemory t ∧
    t.cmd.msgs = (if t.dutyUp 0 then [] else s.w.cmd.msgs) ∧ (t.dutyUp 2 = true → t.power.capKept = none) ∧
    (idle → t.shpDown = true → t.shp.evq = s.w.shp.evq ∧ t.out = s.w.out ∧ t.job = s.w.job) ∧
    (idle → t.shpDown = false → t.shp.evq = [] ∧ t.out = s.w.out ++ s.w.shp.evq.map Emit.mgmtEvent ∧ t.job = s.w.job))) ∧
  (∀ (s : State) (k : Nat), s.w.runnable = some k → Runs .boot s (fun t => t.rd 0 Reg.shpStatRecovery = 0 ∧
    t.rd secBase Reg.secFwstatRunslot = k ∧ t.rd secBase Reg.secFwstatVersion = s.w.fwVersion k ∧
    t.rd secBase Reg.secFwstatFellback = b2n (k != s.w.bootSlot) ∧
    t.shp.fusePending = (decide (s.w.shp.otp < s.w.fwSvn k) && Config.selfTest (s.w.fwDigest k)) ∧ s.w.sameMemory t ∧ t.job = s.w.job)) ∧
  (∀ s : State, s.w.runnable = none → Runs .boot s (fun t => t.rd 0 Reg.shpStatRecovery = 1 ∧ t.shp.fusePending = false ∧ s.w.sameMemory t)) ∧
  (∀ s : State, s.w.shp.fusePending = true → s.w.canCommit = true → Runs .fuseBurn s (fun t =>
    t.shp.otp = max s.w.shp.otp (s.w.rd secBase Reg.secSvnRun) ∧ t.shp.fusePending = false ∧ s.w.sameMemory t ∧ s.w.sameUnits t)) ∧
  (∀ s : State, (s.w.shp.fusePending = false ∨ s.w.canCommit = false) → Runs .fuseBurn s (fun t => t = s.w)) ∧
  (∀ (n : Nat) (s : State) (e : TallyEntry), s.w.dutyUp 3 = true → (s.w.shp.tallyBuf.take n).getLast? = some e → Runs (.tallyFlush n) s (fun t =>
    let idle := s.w.shp.gapDue = false ∧ s.w.health.mapDue = none ∧ s.w.health.planDue = none
    t.shp.tallyFlash = ((s.w.shp.tallyBuf.take n).reverse ++ s.w.shp.tallyFlash).take 1048576 ∧
    t.shp.tallyHead.value = some (e.index, chainOver ((s.w.shp.tallyHead.value.map (·.2)).getD 0) (s.w.shp.tallyBuf.take n)) ∧
    s.w.sameMemory t ∧ (idle → (s.w.shp.tallyLost = 0 → t.shp.tallyBuf = s.w.shp.tallyBuf.drop n) ∧ s.w.sameUnits t))) ∧
  (∀ (n : Nat) (s : State), (s.w.dutyUp 3 = false ∨ s.w.shp.tallyBuf.take n = []) → Runs (.tallyFlush n) s (fun t => t = s.w)) ∧
  (∀ s : State, Runs .secNonceRead s (fun t => ∃ x, x = Config.freeValue s.w.free ∧ t.free = s.w.free + 1 ∧
    t.rd secBase Reg.secNonce0Nonce = x % 2 ^ 64 ∧ t.rd secBase Reg.secNonce1Nonce = x / 2 ^ 64 % 2 ^ 64 ∧
    t.rd secBase Reg.secNonce2Nonce = x / 2 ^ 128 % 2 ^ 64 ∧ t.rd secBase Reg.secNonce3Nonce = x / 2 ^ 192 % 2 ^ 64 ∧
    t.shp.nonceAt = some s.w.countNow ∧ t.out = s.w.out ++ [.readData (natLE 8 x) false] ∧ s.w.sameMemory t ∧ s.w.sameUnits t))

/-! ## Power -/

/-- The input and the supplies act on the module and its fields (R327 to R331, R341, R347, R348).
Undervoltage sets its brake source; an input below its floor fences every field and port and cuts power: every port dark, no flood, every field bound for FALLOW, a job stopped; an overvoltage for
100 µs is the ordered shutdown, which does the same; a restored input powers the module again unless a shutdown holds it. A sample shows its readings and sets the overpower source when the last hundred average above 44 kW. A second failed phase, a lost region, a third failed assist regulator and a droop fence their units and mark
the wafer map; a reading again of what has failed changes nothing. -/
def Obligations.InputsAndSuppliesAct : Prop :=
  ∀ s : State,
    let w := s.w
    let dark := fun (t : Wafer) => (∀ i, i < 176 → linkState t i = 0 ∨ linkState t i = 7) ∧ t.health.flood = none ∧
      (∀ k, k < 112 → t.fieldTarget k = 3) ∧ (t.rd pwrBase Reg.pwrStatState = 3 ∨ t.rd pwrBase Reg.pwrStatState = 0) ∧
      (w.armedOrRunning = true → t.job.phase = .stopped)
    let fencedAll := fun (t : Wafer) => (∀ f, f < 112 → t.fieldFenced f = true) ∧ ∀ i, i < 176 → t.portFenced i = true
    let source := fun (k lvl : Nat) (t : Wafer) => t.power.levels = levelsWith w.power.levels k (some lvl) ∧
      (w.braking = false → ∀ f, f < 112 → w.fieldState f = 0 → t.applied f = 300) ∧ w.sameMemory t ∧ t.job = w.job
    (w.power.levels.getD 2 none = none → Runs .inputUndervoltage s (source 2 (pctOf w.brkpct w.cap))) ∧
    ((w.power.levels.getD 2 none).isSome = true → Runs .inputUndervoltage s (fun t => t = w)) ∧
    (w.powered = false → Runs .inputLow s (fun t => t = w)) ∧
    (w.powered = true → Runs .inputLow s (fun t => dark t ∧ fencedAll t)) ∧
    (Runs (.inputHigh false) s (fun t => w.onlyNotes t ∧ w.sameRegsBut t (fun off => off < 0x20 ∨ off = pwrBase + Reg.pwrEventValid.off))) ∧
    (w.power.shutdown = true → Runs (.inputHigh true) s (fun t => t = w)) ∧
    (w.power.shutdown = false → Runs (.inputHigh true) s (fun t => dark t ∧ t.power.shutdown = true ∧ fencedAll t)) ∧
    ((w.power.standby = false ∨ w.power.shutdown = true ∨ w.rd pwrBase Reg.pwrStatState ≠ 0) → Runs .inputRestored s (fun t => t = w)) ∧
    (w.power.standby = true → w.power.shutdown = false → w.rd pwrBase Reg.pwrStatState = 0 → Runs .inputRestored s (fun t =>
      (∀ f, f < 112 → 4 ∉ (t.fieldPower f).holds) ∧ (w.health.floodDue = none → t.rd pwrBase Reg.pwrStatState = 2) ∧
      (∀ d, w.health.floodDue = some d → t.rd pwrBase Reg.pwrStatState = 1 ∧ t.health.flood.isSome = true ∧ t.health.floodDue = none))) ∧
    (∀ v c tin tout, let l := ((v * c) :: w.power.samples).take 100
      let sum := l.foldl (· + ·) 0
      Runs (.inputSample v c tin tout) s (fun t => t.power.samples = l ∧
      t.rd pwrBase Reg.pwrCoolTin = min tin 0xFFFF ∧ t.rd pwrBase Reg.pwrCoolTout = min tout 0xFFFF ∧
      t.rd pwrBase Reg.pwrInputVolt = v % 2 ^ 16 ∧ t.rd pwrBase Reg.pwrInputCurr = c % 2 ^ 16 ∧
      t.rd pwrBase Reg.pwrInputPower = sum / 10000000 % 2 ^ 16 ∧
      (44000000000 < sum → w.power.levels.getD 4 none = none → source 4 (pctOf w.brkpct 44000) t) ∧
      (sum ≤ 44000000000 → t.power.levels = w.power.levels ∧ w.sameMemory t ∧ t.job = w.job))) ∧
    (∀ f k, f < 112 → k < 24 →
      let failed := fun (m : Nat) => countIf (fun j => bit m j) (List.range 24)
      let m := w.rd (fieldBase f) Reg.fpwSupplyPhasefail
      (bit m k = true → Runs (.phaseFail f k) s (fun t => t = w)) ∧
      (m = 0 → Runs (.phaseFail f k) s (fun t => w.onlyNotes t ∧ t.rd (fieldBase f) Reg.fpwSupplyPhasefail = 2 ^ k)) ∧
      (1 < failed m → bit m k = false → Runs (.phaseFail f k) s (fun t => w.onlyNotes t ∧ t.rd (fieldBase f) Reg.fpwSupplyPhasefail = m + 2 ^ k)) ∧
      (failed m = 1 → bit m k = false → Runs (.phaseFail f k) s (fun t => t.fieldFenced f = true ∧ (t.fieldRec f).status % 8 ≠ 0 ∧
        t.rd (fieldBase f) Reg.fpwSupplyPhasefail = m + 2 ^ k ∧ (w.fieldInRun f = true → t.job.phase = .stopped)))) ∧
    (∀ r, r < 16 →
      (bit (w.rd pwrBase Reg.pwrStatRegionlost) r = true → Runs (.powerRegionLost r) s (fun t => t = w)) ∧
      (bit (w.rd pwrBase Reg.pwrStatRegionlost) r = false → Runs (.powerRegionLost r) s (fun t => bit (t.rd pwrBase Reg.pwrStatRegionlost) r = true ∧
        bit t.map.regions r = true ∧ ∀ f, 7 * r ≤ f → f < 7 * r + 7 → t.fieldFenced f = true ∧ t.portFenced (64 + f) = true ∧ t.fieldState f = 3 ∧
          (t.fieldRec f).status % 8 = 4 ∧ (w.fieldInRun f = true → t.job.phase = .stopped)))) ∧
    (∀ cl k, cl < 448 → k < 8 →
      let m := w.rd (fieldBase (cl / 4)) Reg.fpwSupplyAssistfail
      let n := countIf (fun j => bit m (8 * (cl % 4) + j)) (List.range 8)
      (bit m (8 * (cl % 4) + k) = true → Runs (.assistFail cl k) s (fun t => t = w)) ∧
      (bit m (8 * (cl % 4) + k) = false → n < 2 → Runs (.assistFail cl k) s (fun t => w.onlyNotes t ∧
        t.rd (fieldBase (cl / 4)) Reg.fpwSupplyAssistfail = m + 2 ^ (8 * (cl % 4) + k) ∧
        bit (t.rd (fieldBase (cl / 4)) Reg.fpwSupplyStagger) (cl % 4) = true)) ∧
      (bit m (8 * (cl % 4) + k) = false → n = 2 → Runs (.assistFail cl k) s (fun t => t.clusterFenced cl = true ∧
        (t.fieldRec (cl / 4)).status % 8 ≠ 0 ∧ t.rd (coremapBase cl) Reg.cluCoremapRetired = 1)) ∧
      (bit m (8 * (cl % 4) + k) = false → 2 < n → Runs (.assistFail cl k) s (fun t => w.onlyNotes t ∧
        t.rd (fieldBase (cl / 4)) Reg.fpwSupplyAssistfail = m + 2 ^ (8 * (cl % 4) + k)))) ∧
    (∀ f, f < 112 → (w.fieldState f = 3 → Runs (.powerDroop f) s (fun t => t = w)) ∧
      (w.fieldState f ≠ 3 → Runs (.powerDroop f) s (fun t => t.fieldFenced f = true ∧ (w.fieldInRun f = true → t.job.phase = .stopped) ∧
        (w.rd (fieldBase f) Reg.fpwDroop + 10 < 2 ^ 48 - 1 → w.rd (fieldBase f) Reg.fpwDroop + 10 ≤ t.rd (fieldBase f) Reg.fpwDroop))))

/-- Fields go to a power state and wake from it (R332 to R336).
An entry that ends latches its target and, with a level wake source standing that the field may take, wakes at once; a wake event starts a wake from REST, DOZE or FALLOW unless the field moves or is held. The wake's steps set the rail, then lock,
zero memory from FALLOW, and reach RUN; a step that fails holds the field, bound for FALLOW. A wake message repeats until RUN. A crack reading on a RUN field above 12 mV marks the field suspect, and a
second suspect group makes it unusable. -/
def Obligations.FieldsChangePowerState : Prop :=
  ∀ (f : Nat) (s : State), f < 112 →
    let w := s.w
    let p := w.fieldPower f
    let still := w.fieldMoving f = false
    let b := fieldBase f
    let waking := fun (src : Nat) (t : Wafer) => t.fieldTarget f = 0 ∧ t.fieldMoving f = true ∧ t.rd b Reg.fpwStateLastwake = src ∧
      t.rd b Reg.fpwStateWaketick = w.tick % 2 ^ 48
    (∀ lvl, (still ∨ w.fieldTarget f = 0) → Runs (.fieldEntryDone f lvl) s (fun t => t = w)) ∧
    (w.fieldMoving f = true → w.fieldTarget f ≠ 0 → p.goal = none → w.rd pwrBase Reg.pwrStatState ≠ 3 → Runs (.fieldEntryDone f 0) s (fun t =>
      t.fieldState f = w.fieldTarget f ∧ t.fieldMoving f = false ∧
      ∀ x ∈ t.cmd.inflight, fieldStateOf f x ≠ some (w.fieldTarget f))) ∧
    (∀ lvl, (lvl = 1 ∨ lvl = 4) → w.fieldMoving f = true → w.fieldTarget f ≠ 0 → w.canWake f = true →
      Runs (.fieldEntryDone f lvl) s (waking lvl)) ∧
    (∀ src, (w.fieldMoving f = true ∨ w.fieldState f = 0 ∨ w.canWake f = false) → Runs (.fieldWakeEvent f src) s (fun t => t = w)) ∧
    (∀ src, 1 ≤ src → src ≤ 4 → still → w.fieldState f ≠ 0 → w.canWake f = true → Runs (.fieldWakeEvent f src) s (fun t => waking src t ∧
      w.sameMemory t ∧ (w.fieldState f ≠ 1 → (t.fieldPower f).step = 1) ∧
      (w.fieldState f = 2 → t.rd b Reg.fpwVoltVset = w.railFor f (if w.braking then 300 else w.gearTarget f) % 2 ^ 10))) ∧
    ((p.repeating = false ∨ w.fieldState f = 0) → Runs (.wakeRepeat f) s (fun t => (t.fieldPower f).repeating = false ∧ t.out = w.out ∧ t.regs = w.regs)) ∧
    (p.repeating = true → w.fieldState f ≠ 0 → (w.fieldMoving f = true ∨ w.canWake f = false) →
      Runs (.wakeRepeat f) s (fun t => t = w.emit (.signal (.wake f)))) ∧
    (p.repeating = true → w.fieldState f ≠ 0 → still → w.canWake f = true → Runs (.wakeRepeat f) s (waking 2)) ∧
    (p.step = 1 → Runs (.fieldWakeStepDone f) s (fun t => (t.fieldPower f).step = 2 ∧ t.rd b Reg.fpwVoltVset = w.rd b Reg.fpwVoltVset ∧
      (∃ x, x ≤ 20 ∧ t.rd b Reg.fpwVoltVmeas = (w.rd b Reg.fpwVoltVset - 10 + x) % 2 ^ 10) ∧ w.sameMemory t)) ∧
    (p.step = 2 → Runs (.fieldWakeStepDone f) s (fun t => (t.fieldPower f).step = (if w.fieldState f = 3 then 3 else 4) ∧ w.sameMemory t)) ∧
    (p.step = 3 → Runs (.fieldWakeStepDone f) s (fun t => (t.fieldPower f).step = 4 ∧
      (∀ a, coreAddr (20 * f) 0 ≤ a → a < coreAddr (20 * f + 20) 0 → t.coreMem.get a = 0#8) ∧
      (∀ a, a < coreAddr (20 * f) 0 ∨ coreAddr (20 * f + 20) 0 ≤ a → t.coreMem.get a = w.coreMem.get a) ∧ t.stkMem = w.stkMem)) ∧
    (p.step = 4 → p.goal = none → w.job.placing = none → Runs (.fieldWakeStepDone f) s (fun t => t.fieldState f = 0 ∧ t.fieldMoving f = false ∧
      (t.fieldPower f).step = 0 ∧ t.applied f = (if w.braking then 300 else w.gearTarget f) % 2 ^ 10)) ∧
    (p.step = 0 → Runs (.fieldWakeFail f) s (fun t => t = w)) ∧
    (p.step ≠ 0 → w.job.placing = none → Runs (.fieldWakeFail f) s (fun t => t.fieldTarget f = 3 ∧ 0x10 ∈ (t.fieldPower f).holds ∧
      (t.fieldPower f).step = 0 ∧ (t.fieldRec f).status % 8 ≠ 0 ∧ w.sameMemory t)) ∧
    (∀ l, (w.fieldState f ≠ 0 ∨ w.fieldMoving f = true) → Runs (.crackCheck f l) s (fun t => t = w)) ∧
    (∀ r rise, w.fieldState f = 0 → still → crackRise (w.marginRec f) r = some rise → w.rd b Reg.fpwCrackFailed = 0 → p.suspects = [] →
      (rise ≤ 12000000 → Runs (.crackCheck f [r]) s (fun t => w.onlyNotes t ∧ t.rd b Reg.fpwCrackSuspect = w.rd b Reg.fpwCrackSuspect)) ∧
      (12000000 < rise → Runs (.crackCheck f [r]) s (fun t => t.rd b Reg.fpwCrackSuspect = 1 ∧ (t.fieldPower f).suspects = [(r.group, rise)] ∧
        (t.fieldPower f).derate = true ∧ t.fieldState f = 0))) ∧
    (∀ r rise x, w.fieldState f = 0 → still → crackRise (w.marginRec f) r = some rise → w.rd b Reg.fpwCrackFailed = 0 → p.suspects = [x] →
      x.1 ≠ r.group → 12000000 < rise → Runs (.crackCheck f [r]) s (fun t => t.rd b Reg.fpwCrackFailed = 1 ∧ t.fieldTarget f = 3 ∧
        (t.fieldRec f).status % 8 ≠ 0))

/-- The brake, the cap loop and the gear interlock (R338 to R343).
Each brake source is set by its own command and released by its own; a level is fixed when its source is set. BRAKE_TRIM, by the average of the last ten samples, sets the pulse fraction anew after a change of level and moves it by an eighth after that.
CAP_LOOP_SAMPLE takes a measurement of the input and brakes when that average passes the cap by more than 10 %; the cap loop brakes too when CAP_PRESSURE has stood for its grace. GEAR_PREPARE slews the rail of each RUN field that is to rise, unless the brake holds; RAIL_READY arms the raise. PWR_BRAKE writes act at once and PWR_CAP
writes at the next boundary, while the tally has room. -/
def Obligations.BrakesCapsAndGears : Prop :=
  ∀ s : State,
    let w := s.w
    let lv := fun k => w.power.levels.getD k none
    let room := w.tallyFull = false
    let avg := fun (l : List Nat) => 10 * (l.take 10).foldl (· + ·) 0
    let a := avg w.power.samples
    let pressed := w.rd pwrBase Reg.pwrStatCappress = 1 ∧ w.power.pressAt + 1250000 * w.rd pwrBase Reg.pwrCapGrace ≤ w.time.passed + w.period
    let sets := fun (k : Nat) (l : Option Nat) (t : Wafer) => t.power.levels = levelsWith w.power.levels k l ∧ w.sameMemory t ∧ t.job = w.job ∧
      t.health = w.health ∧ t.ports = w.ports ∧ (l.isSome = true → w.braking = false → ∀ f, f < 112 → w.fieldState f = 0 → t.applied f = 300)
    let pulse := fun (dt k : Nat) (t : Wafer) => t.pulse = k ∧ (w.elapseWithin dt).onlyNotes { t with power := w.power } ∧ t.power.levels = w.power.levels
    (lv 0 = none → Runs .brakeNAssert s (sets 0 (some (pctOf w.brkpct w.cap)))) ∧ ((lv 0).isSome = true → Runs .brakeNAssert s (fun t => t = w)) ∧
    Runs .brakeNDeassert s (sets 0 none) ∧
    (∀ k, 2 ≤ k → k ≤ 4 → Runs (.brakeSourceRelease k) s (sets k none)) ∧
    (∀ v c, let l := ((v * c) :: w.power.samples).take 100
      let sum := l.foldl (· + ·) 0
      let hit := levelsWith w.power.levels 4 (some (pctOf w.brkpct 44000))
      Runs (.capLoopSample v c) s (fun t => t.power.samples = l ∧
        t.rd pwrBase Reg.pwrInputVolt = v % 2 ^ 16 ∧ t.rd pwrBase Reg.pwrInputCurr = c % 2 ^ 16 ∧ t.rd pwrBase Reg.pwrInputPower = sum / 10000000 % 2 ^ 16 ∧
        w.sameMemory t ∧ t.job = w.job ∧ t.health = w.health ∧ t.ports = w.ports ∧
        (11000000 * w.loopCap < 10 * avg l → lv 3 = none → (sum ≤ 44000000000 ∨ (lv 4).isSome = true) → t.power.levels = levelsWith w.power.levels 3 (some w.loopCap)) ∧
        ((10 * avg l ≤ 11000000 * w.loopCap ∨ (lv 3).isSome = true) → (sum ≤ 44000000000 ∨ (lv 4).isSome = true) → t.power.levels = w.power.levels) ∧
        (11000000 * w.loopCap < 10 * avg l → lv 3 = none → 44000000000 < sum → lv 4 = none → t.power.levels = levelsWith hit 3 (some w.loopCap)) ∧
        ((10 * avg l ≤ 11000000 * w.loopCap ∨ (lv 3).isSome = true) → 44000000000 < sum → lv 4 = none → t.power.levels = hit))) ∧
    (pressed → lv 3 = none → Runs .capGraceExpiry s (sets 3 (some w.loopCap))) ∧
    ((¬ pressed ∨ (lv 3).isSome = true) → Runs .capGraceExpiry s (fun t => t = w)) ∧
    (∀ dt, w.brakeLevel = none → Runs (.brakeTrim dt) s (fun t => t = w.elapseWithin dt)) ∧
    (∀ dt watts, w.brakeLevel = some watts → let level := 1000000 * watts
      (w.power.fresh = true →
        (∀ k, k < 8 → a * (8 - k) ≤ level * (8 - w.pulse) → (∀ j, j < k → level * (8 - w.pulse) < a * (8 - j)) → Runs (.brakeTrim dt) s (pulse dt k)) ∧
        ((∀ j, j < 8 → level * (8 - w.pulse) < a * (8 - j)) → Runs (.brakeTrim dt) s (pulse dt 7))) ∧
      (w.power.fresh = false →
        (level < a → Runs (.brakeTrim dt) s (pulse dt (min (w.pulse + 1) 7))) ∧
        (a ≤ level → a * 100 < 98 * level → Runs (.brakeTrim dt) s (pulse dt (w.pulse - 1))) ∧
        (a ≤ level → 98 * level ≤ a * 100 → Runs (.brakeTrim dt) s (pulse dt w.pulse)))) ∧
    (w.braking = true → Runs .gearPrepare s (fun t => t = w)) ∧
    (w.braking = false → Runs .gearPrepare s (fun t => ∀ f, f < 112 → t.applied f = w.applied f ∧
      (w.fieldState f = 0 → w.applied f < w.gearTarget f → (t.fieldPower f).raising = some (w.gearTarget f)) ∧
      (w.fieldState f = 0 → w.gearTarget f ≤ w.applied f → (t.fieldPower f).raising = none) ∧
      (w.fieldState f ≠ 0 → t.fieldPower f = w.fieldPower f))) ∧
    (∀ f, f < 112 → ((w.fieldPower f).raising.isSome = true → Runs (.railReady f) s (fun t =>
        t.fieldPower f = { w.fieldPower f with railReady := true } ∧ t.regs = w.regs ∧ w.sameMemory t)) ∧
      ((w.fieldPower f).raising = none → Runs (.railReady f) s (fun t => t = w))) ∧
    (∀ path lvl, room → Runs (.pwrBrakeApply path true lvl) s (fun t => t.rd pwrBase Reg.pwrBrakeApply = 1 ∧
      t.rd pwrBase Reg.pwrBrakeLevel = lvl % 128 ∧ t.power.levels = levelsWith w.power.levels 1 (some (pctOf (if lvl % 128 = 0 then w.brkpct else lvl % 128) w.cap)))) ∧
    (∀ path lvl, room → Runs (.pwrBrakeApply path false lvl) s (fun t => t.rd pwrBase Reg.pwrBrakeApply = 0 ∧
      t.power.levels = levelsWith w.power.levels 1 none)) ∧
    (∀ path lvl, room → w.rd pwrBase Reg.pwrBrakeApply = 1 → Runs (.pwrBrakeLevel path lvl) s (fun t => t.rd pwrBase Reg.pwrBrakeLevel = lvl % 128 ∧
      t.power.levels = levelsWith w.power.levels 1 (some (pctOf (if lvl % 128 = 0 then w.brkpct else lvl % 128) w.cap)))) ∧
    (∀ path lvl, room → w.rd pwrBase Reg.pwrBrakeApply = 0 → Runs (.pwrBrakeLevel path lvl) s (fun t => t.rd pwrBase Reg.pwrBrakeLevel = lvl % 128 ∧
      t.power = w.power)) ∧
    (∀ path v, room → Runs (.pwrCapWrite path v) s (fun t => t = { w with time := { w.time with
      late := w.time.late ++ [⟨path, pwrBase + Reg.pwrCapCap.off, v.toNat, 0xFF, w.rd lckBase Reg.lckPdselPort, none⟩] } })) ∧
    (¬ room → ∀ path a lvl v, Runs (.pwrBrakeApply path a lvl) s (fun t => t = w) ∧ Runs (.pwrBrakeLevel path lvl) s (fun t => t = w) ∧
      Runs (.pwrCapWrite path v) s (fun t => t = w))

/-- Temperatures and the coolant (R306, R344 to R347).
THERMAL_POLL shows each field's readings; but in FALLOW, 95 °C or more lowers the thermal gear by one for the next boundary, and ten readings in a row below 90 °C raise it. THERMAL_FALLOW holds its field in FALLOW with cause 0x0C, which THERMAL_COOLDOWN
ends. THERMAL_SHUTDOWN is the ordered shutdown, and so is COOLANT_DT where the outlet last measured is above the inlet by more than 18 K. COOLANT_WARM shows the inlet; one above 35 °C is an event. -/
def Obligations.TemperaturesHoldTheGears : Prop :=
  ∀ s : State,
    let w := s.w
    (∀ l, w.dutyUp 2 = false → (∀ t ∈ l, t.field < 112) → Runs (.thermalPoll l) s (fun t => t = w)) ∧
    (∀ t : FieldTemps, t.field < 112 → w.dutyUp 2 = true →
      let f := t.field
      let hot := max (max t.t0 t.t1) (max t.t2 t.t3)
      let g := w.rd (fieldBase f) Reg.fpwGearThermal
      let p := w.fieldPower f
      let shown := fun (v : Wafer) => v.rd (fieldBase f) Reg.fpwTjTj0 = min t.t0 255 ∧ v.rd (fieldBase f) Reg.fpwTjTj1 = min t.t1 255 ∧
        v.rd (fieldBase f) Reg.fpwTjTj2 = min t.t2 255 ∧ v.rd (fieldBase f) Reg.fpwTjTj3 = min t.t3 255
      (w.fieldState f = 3 → Runs (.thermalPoll [t]) s (fun v => shown v ∧ w.onlyNotes v ∧ v.out = w.out)) ∧
      (w.fieldState f ≠ 3 → Runs (.thermalPoll [t]) s (fun v => shown v ∧ v.rd (fieldBase f) Reg.fpwGearThermal = g ∧ w.sameMemory v ∧ v.job = w.job ∧
        (95 ≤ hot → (v.fieldPower f).thermal = gearDown g ∧ (v.fieldPower f).cool = 0) ∧
        (90 ≤ hot → hot < 95 → v.fieldPower f = { p with cool := 0 }) ∧
        (hot < 90 → p.cool < 9 → v.fieldPower f = { p with cool := p.cool + 1 }) ∧
        (hot < 90 → 9 ≤ p.cool → g ≠ 600 → (v.fieldPower f).thermal = gearUp g)))) ∧
    (∀ f c, f < 112 → c < 4 →
      (w.fieldTarget f = 3 → Runs (.thermalFallow f c) s (fun t => t = w)) ∧
      (w.fieldTarget f ≠ 3 → Runs (.thermalFallow f c) s (fun t => t.fieldTarget f = 3 ∧ t.fieldMoving f = true ∧
        0x0C ∈ (t.fieldPower f).holds ∧ t.fieldFenced f = true ∧ (w.fieldInRun f = true → t.job.phase = .stopped))) ∧
      Runs (.thermalCooldown f) s (fun t => 0x0C ∉ (t.fieldPower f).holds ∧ t.regs = w.regs ∧ w.sameMemory t) ∧
      (w.power.shutdown = true → Runs (.thermalShutdown f c) s (fun t => t = w)) ∧
      (w.power.shutdown = false → Runs (.thermalShutdown f c) s (fun t => t.power.shutdown = true ∧ (∀ k, k < 112 → t.fieldTarget k = 3) ∧
        (∀ i, i < 176 → linkState t i = 0 ∨ linkState t i = 7)))) ∧
    (let tin := w.rd pwrBase Reg.pwrCoolTin
      let tout := w.rd pwrBase Reg.pwrCoolTout
      ((w.power.shutdown = true ∨ tout ≤ tin + 1800) → Runs .coolantDt s (fun t => t = w)) ∧
      (w.power.shutdown = false → tin + 1800 < tout → Runs .coolantDt s (fun t => t.power.shutdown = true ∧
        (∀ k, k < 112 → t.fieldTarget k = 3) ∧ (∀ i, i < 176 → linkState t i = 0 ∨ linkState t i = 7)))) ∧
    (∀ tin,
      Runs (.coolantWarm tin) s (fun t => t.rd pwrBase Reg.pwrCoolTin = min tin 0xFFFF ∧ t.rd pwrBase Reg.pwrCoolTout = w.rd pwrBase Reg.pwrCoolTout ∧
        w.onlyNotes t ∧ (tin ≤ 3500 → t.out = w.out) ∧
        (3500 < tin → w.shpDown = false → t.out = w.out ++ [.mgmtEvent ⟨0x0A0F, detailNone⟩])))

/-! ## Floods, surveys and errors -/

/-- A flood goes from its start to its commit (R350 to R360).
FLOOD_START begins the flood that is due, once powered. When the service complex passes, the fields of row 0 that no record keeps out are tested, waking with source 3; a service complex that fails abandons the flood. A level's results give each field
under test its record; a field that passes as a relay rests, with its memory zero, and another is FALLOW. The test after a FIELD reset does the same for its field alone. A stack's test is recorded. The commit, once nothing is left to test, stores map and plan, ends the flood, zeroes a quay that was
lost, powers the module on and answers FLOOD_TEST. All of it pauses while pair 2 is not served. -/
def Obligations.FloodsTestRecordAndCommit : Prop :=
  (∀ (s : State) (full step1 ok : Bool) (l : List FieldTest) (k cf a b : Nat), s.w.dutyUp 2 = false → k < 32 →
    ∀ i ∈ [Instr.floodStart (b2n full) step1, .floodServiceTestDone ok, .floodLevelDone l, .floodStackTestDone k cf a b, .floodCommit],
      Runs i s (fun t => t = s.w)) ∧
  ∀ s : State, s.w.dutyUp 2 = true →
    let w := s.w
    let tested := fun (f : Nat) (t : Wafer) => t.fieldState f = 1 ∧
      ∀ a, coreAddr (20 * f) 0 ≤ a → a < coreAddr (20 * f + 20) 0 → t.coreMem.get a = 0#8
    (∀ full commanded step1, w.health.floodDue = some (full, commanded, step1) → w.powered = true → w.health.flood = none → w.armedOrRunning = false →
      Runs (.floodStart (b2n full) step1) s (fun t => (∃ fl, t.health.flood = some fl ∧ fl.full = full ∧ fl.commanded = commanded ∧
        fl.step = (if step1 then 1 else 2) ∧ fl.fields = []) ∧ t.health.floodDue = none ∧ t.rd hltBase Reg.hltFloodState = 1 ∧
        (∀ k, k < 112 → t.fieldState k = 3) ∧ t.coreMem = {} ∧ t.stkMem = w.stkMem)) ∧
    (∀ k b, (w.health.floodDue = none ∨ w.powered = false) → Runs (.floodStart k b) s (fun t => t = w)) ∧
    (∀ ok, w.health.flood = none → Runs (.floodServiceTestDone ok) s (fun t => t = w)) ∧
    (∀ fl, w.health.flood = some fl → fl.step < 3 →
      Runs (.floodServiceTestDone false) s (fun t => t.health.flood = none ∧ t.rd hltBase Reg.hltFloodState = 3) ∧
      Runs (.floodServiceTestDone true) s (fun t => (∃ fl', t.health.flood = some fl' ∧ fl'.step = 3 ∧ fl'.level = 0 ∧
        fl'.testing = (List.range 4).filter fun f => !w.untested fl f) ∧
        (∀ f, f < 4 → w.untested fl f = false → t.fieldTarget f = 0 ∧ t.fieldMoving f = true ∧ t.rd (fieldBase f) Reg.fpwStateLastwake = 3) ∧
        (∀ f, f < 112 → 0x10 ∉ (t.fieldPower f).holds))) ∧
    (∀ l, w.health.flood = none → (∀ r ∈ l, r.field ∉ w.health.retests) → Runs (.floodLevelDone l) s (fun t => t = w)) ∧
    (∀ (r : FieldTest), w.health.flood = none → r.field ∈ w.health.retests → r.field < 112 →
      let fl : FloodRun := ⟨false, false, true, 4, (w.fieldRec r.field).depth, [r.field], w.map.fields, [], [], []⟩
      Runs (.floodLevelDone [r]) s (fun t => r.field ∉ t.health.retests ∧ (∀ k, k ≠ r.field → t.fieldRec k = w.fieldRec k) ∧
        (2 ≤ (w.verdict fl r).1 → t.fieldState r.field = 3) ∧ ((w.verdict fl r).1 < 2 → tested r.field t))) ∧
    (∀ fl (r : FieldTest), w.health.flood = some fl → 3 ≤ fl.step → fl.testing = [r.field] → r.field < 112 →
      Runs (.floodLevelDone [r]) s (fun t => (∃ fl', t.health.flood = some fl' ∧ fl'.level = fl.level + 1 ∧ fl'.step = 4 ∧
        (fl'.recAt r.field).status = (w.recordOf fl r).status ∧ (fl'.recAt r.field).cause = (w.recordOf fl r).cause ∧
        (∀ f, f ≠ r.field → fl'.recAt f = fl.recAt f)) ∧
        ((w.verdict fl r).1 < 2 → tested r.field t) ∧
        (2 ≤ (w.verdict fl r).1 → t.fieldState r.field = 3))) ∧
    (∀ k cf a b, k < 32 → w.health.flood = none → Runs (.floodStackTestDone k cf a b) s (fun t => t = w)) ∧
    (∀ fl k cf a b, k < 32 → w.health.flood = some fl → fl.stackDue k = true → Runs (.floodStackTestDone k cf a b) s (fun t =>
      ∃ fl', t = { w with health := { w.health with flood := some fl' } } ∧ fl'.fields = fl.fields ∧ fl'.testing = fl.testing ∧
        ∀ j, j < 32 → bit (mapGet (fun _ => ({ status := 3 } : StackRec)) fl'.stackRecs k).active j = true → bit cf j = false)) ∧
    (w.health.flood = none → Runs .floodCommit s (fun t => t = w)) ∧
    (∀ fl, w.health.flood = some fl → 3 ≤ fl.step → fl.testing = [] → w.armedOrRunning = false →
      (∀ k, k < 32 → fl.stackDue k = true → (fl.stackRecs.any fun e => e.1 == k) = true) → Runs .floodCommit s (fun t => t.health.flood = none ∧
        t.rd hltBase Reg.hltFloodState = 2 ∧ t.rd pwrBase Reg.pwrStatState = 2 ∧ t.rd pwrBase Reg.pwrStatRegionlost = t.map.regions % 2 ^ 16 ∧
        (∀ f, f < 112 → t.fieldRec f = if bit t.map.regions (f / 7) then { w.fieldRec f with status := 4, cause := 0x0A, retired := true }
          else if w.untested fl f then w.fieldRec f else { fl.recAt f with links := fl.linksOf f }) ∧
        (w.health.quayLost = true → ∀ k a, k < 32 → t.quayStart k ≤ a → a < t.rd (stkBase k) Reg.stkCapCap * 2 ^ 21 →
          t.stkMem.get (stkAddr k a) = 0#8) ∧
        (∀ x ∈ t.cmd.inflight, ¬ (x.opcode = 0x0603 ∧ x.working = true)) ∧ (fl.full = true → t.stkMem = {}) ∧ t.job = w.job))

/-- Surveys and canary watches keep the margin plan (R361 to R364).
A survey that falls due, its field's last one being old enough, is overdue while a job holds the field, and is taken otherwise. The end of a field's survey records its minimum voltage, worst wear and time in the survey's plan, ends its overdue mark, and leaves the field. A canary watch
shows the slacks; below 20 ps it asks for one offset step more, or at the ceiling for one gear less, at the next boundary. All of it pauses while pair 2 is not served. -/
def Obligations.SurveysKeepTheMargins : Prop :=
  (∀ (f : Nat) (m : SurveyMeas) (l : List Nat) (s : State), f < 112 → s.w.dutyUp 2 = false →
    ∀ i ∈ [Instr.surveyPeriodExpiry f, .surveyFieldDone f m, .canaryWatch f l], Runs i s (fun t => t = s.w)) ∧
  ∀ (f : Nat) (s : State), f < 112 → s.w.dutyUp 2 = true →
    let w := s.w
    let at_ := (w.marginRec f).wall
    let old := at_ = 0 ∨ w.wall = 0 ∨ at_ + 3600000000000 * w.rd hltBase Reg.hltCtlPeriod < w.wall
    let g := gearIdx (w.applied f)
    let off := (w.marginRec f).offsets.getD g 0
    (¬ old → Runs (.surveyPeriodExpiry f) s (fun t => t = w)) ∧
    (old → w.fieldHeld f = true → Runs (.surveyPeriodExpiry f) s (fun t => t.rd (agmBase f) Reg.agmVminOverdue = 1 ∧
      t.rd hltBase Reg.hltSurveyOverdue = 1 ∧ t.health = w.health ∧ w.sameMemory t)) ∧
    (old → w.fieldHeld f = false → w.health.flood = none → (w.fieldRec f).status % 8 = 0 → w.health.map.current.isSome = true →
      Runs (.surveyPeriodExpiry f) s (fun t => (f ∈ t.health.surveying ∨ f ∈ t.health.surveyTodo) ∧ w.sameMemory t ∧ t.job = w.job)) ∧
    (∀ m, (w.health.surveyPlan = none ∨ f ∉ w.health.surveying) → Runs (.surveyFieldDone f m) s (fun t => t = w)) ∧
    (∀ m plan g', w.health.surveyPlan = some plan → f ∈ w.health.surveying → g' ∈ w.health.surveying → g' / 7 ≠ f / 7 →
      f ∉ w.health.surveyTodo → w.job.placing = none → Runs (.surveyFieldDone f m) s (fun t => f ∉ t.health.surveying ∧ g' ∈ t.health.surveying ∧
        t.rd (agmBase f) Reg.agmVminOverdue = 0 ∧ t.rd (agmBase f) Reg.agmWearWear0 = m.wear.getD 0 0 % 2 ^ 16 ∧
        t.rd (agmBase f) Reg.agmWearWear3 = m.wear.getD 3 0 % 2 ^ 16 ∧ (∃ plan', t.health.surveyPlan = some plan' ∧
          (mapGet (fun _ => ({} : MarginRec)) plan'.fields f).vmin = m.vmin ∧ (mapGet (fun _ => ({} : MarginRec)) plan'.fields f).wear = m.wear.foldl max 0 ∧
          (mapGet (fun _ => ({} : MarginRec)) plan'.fields f).tick = w.tick ∧
          ∀ k, k ≠ f → mapGet (fun _ => ({} : MarginRec)) plan'.fields k = mapGet (fun _ => ({} : MarginRec)) plan.fields k))) ∧
    (∀ l, (w.fieldInRun f = false ∨ w.fieldState f ≠ 0) → Runs (.canaryWatch f l) s (fun t => t = w)) ∧
    (∀ a b c d, w.fieldInRun f = true → w.fieldState f = 0 → a < 0x10000 → b < 0x10000 → c < 0x10000 → d < 0x10000 →
      let shown := fun (t : Wafer) => t.rd (agmBase f) Reg.agmSlackSlack0 = a ∧ t.rd (agmBase f) Reg.agmSlackSlack1 = b ∧
        t.rd (agmBase f) Reg.agmSlackSlack2 = c ∧ t.rd (agmBase f) Reg.agmSlackSlack3 = d ∧ w.sameMemory t ∧ t.job = w.job
      let least := min (min a b) (min c d)
      (20 ≤ least → Runs (.canaryWatch f [a, b, c, d]) s (fun t => shown t ∧ t.power = w.power)) ∧
      (least < 20 → gearRail.getD g 480 + 5 * (off + 1) ≤ 750 → Runs (.canaryWatch f [a, b, c, d]) s (fun t => shown t ∧
        t.fieldPower f = { w.fieldPower f with offsetNew := some (g, off + 1) })) ∧
      (least < 20 → 750 < gearRail.getD g 480 + 5 * (off + 1) → gearIdx (w.rd (fieldBase f) Reg.fpwGearTop) < 5 →
        Runs (.canaryWatch f [a, b, c, d]) s (fun t => shown t ∧ t.fieldPower f = { w.fieldPower f with
          topNew := some (gearMHz.getD (gearIdx (w.rd (fieldBase f) Reg.fpwGearTop) + 1) 300) })))

/-- Errors are classified, and repairs and notices follow (R129, R366, R367, R370, R372).
A corrected error joins its location's last three ticks and is counted; the fourth within 2^20 ticks, or an uncorrectable one (but of kinds 6 and 7), makes the location permanent. An uncorrectable word gets its poison bit. A remap waits for the job to leave the field. A notice of this job on
a link that is up stops it, and goes on to every other port that is up; another is dropped and counted. A proposal that is being computed is completed: usable fields stay, and each other goes to the nearest free usable field.
The patrol scrubber corrects one or two flipped bits and poisons a word with three (R200, R201). With no code bit flipped, or where a fence keeps it away, a scrub changes nothing. With one or two, the word reads as before, with its poison bit as before, and is reported as a
corrected error; with three, its poison bit is set and it is reported as uncorrectable. With more, the word is a free value (log entry 5). No
other memory changes before the report is classified. -/
def Obligations.ErrorsRepairsAndNotices : Prop :=
  ((
  (∀ (l : ErrLoc) (n : Nat) (s : State), errLocOk l = true → s.w.dutyUp 2 = true →
    let w := s.w
    let entry := (w.health.errs.find? fun e => e.loc == l).getD ⟨l, [], false⟩
    (l.kind ≠ 8 → entry.ticks.length < 3 → Runs (.errorReport l none) s (fun t => w.countedBy t hltBase Reg.hltCe 1 ∧
      t.health = { w.health with errs := (⟨l, w.tick :: entry.ticks, entry.perm⟩ :: w.health.errs.filter fun e => e.loc != l).take 65536 } ∧
      w.onlyNotes { t with health := w.health })) ∧
    ((l.kind = 8 ∨ (entry.ticks.length = 3 ∧ tickDiff w.tick (entry.ticks.getD 2 0) < 2 ^ 20)) → Runs (.errorReport l none) s (fun t =>
      w.countedBy t hltBase Reg.hltCe 1 ∧ t.rd hltBase Reg.hltPermValid = 1 ∧ t.rd hltBase Reg.hltPermKind = l.kind ∧
      w.countedBy t hltBase Reg.hltPerms 1)) ∧
    (l.kind ∉ [3, 6, 7] → Runs (.errorReport l (some n)) s (fun t => t.rd hltBase Reg.hltPermValid = 1 ∧ t.rd hltBase Reg.hltPermKind = l.kind ∧
      w.countedBy t hltBase Reg.hltPerms 1))) ∧
  (∀ (l : ErrLoc) (n : Nat) (s : State), errLocOk l = true → s.w.dutyUp 2 = false → l.kind ∉ [3, 4] →
    Runs (.errorReport l none) s (fun t => t = s.w) ∧ Runs (.errorReport l (some n)) s (fun t => t = s.w.poisonAt l n)) ∧
  (∀ (l : ErrLoc) (n mem a : Nat) (s : State), errLocOk l = true → l.kind ≠ 3 → s.w.locWord l n = some (mem, a) →
    Runs (.errorReport l (some n)) s (fun t => ∃ v : Wafer, t = v.classify l true ∧ (v.scrubMem mem).badAt a = true ∧
      (∀ j, j < 5 → j ≠ mem → v.scrubMem j = s.w.scrubMem j) ∧
      ∀ x, x / 8 ≠ a / 8 → (v.scrubMem mem).get x = (s.w.scrubMem mem).get x ∧ (v.scrubMem mem).badAt x = (s.w.scrubMem mem).badAt x)) ∧
  (∀ (cl : Nat) (s : State), cl < 448 →
    ((s.w.fieldHeld (cl / 4) = true ∨ s.w.dutyUp 2 = false) → Runs (.spareRemap cl) s (fun t => t = s.w)) ∧
    (s.w.dutyUp 2 = true → s.w.fieldHeld (cl / 4) = false → cl ∉ s.w.health.retireClusters → (∀ x ∈ s.w.health.markSites, siteCluster x ≠ cl) →
      (s.w.health.retireSites.any fun x => siteCluster x == cl) = true →
      coremapFor (bits (s.w.fieldRec (cl / 4)).siteFail (5 * (cl % 4)) 5) < 2 ^ 16 → Runs (.spareRemap cl) s (fun t =>
        (t.fieldRec (cl / 4)).coremap = listSet (s.w.fieldRec (cl / 4)).coremap (cl % 4)
          (coremapFor (bits (s.w.fieldRec (cl / 4)).siteFail (5 * (cl % 4)) 5)) ∧
        t.rd (coremapBase cl) Reg.cluCoremapRetired = 0 ∧ (∀ x ∈ t.health.retireSites, siteCluster x ≠ cl) ∧ s.w.sameMemory t ∧
        t.fences = s.w.fences))) ∧
  (∀ (port : Nat) (n : Notice) (s : State), port < 176 →
    let live := linkState s.w port = 5 ∨ linkState s.w port = 6
    (¬ live → Runs (.jobFaultNotice port n) s (fun t => t = s.w.rxTook port 3 0 (noticeBytes n))) ∧
    (live → (s.w.armedOrRunning = false ∨ s.w.job.tag ≠ n.tag) → Runs (.jobFaultNotice port n) s (fun t =>
      s.w.countedBy t hltBase Reg.hltNotices 1 ∧ s.w.onlyNotes { t with ports := s.w.ports })) ∧
    (live → s.w.armedOrRunning = true → s.w.job.tag = n.tag → Runs (.jobFaultNotice port n) s (fun t =>
      t.job.phase = .stopped ∧ t.job.faulted = true ∧ ∀ k, k ≠ port → linkState s.w k = 6 → k < 176 →
        ∃ f ∈ (t.port k).egress ++ (t.port k).replay, f.requester = 0 ∧ f.vl = 3 ∧ f.ftype = 0 ∧ f.payload = noticeBytes n))) ∧
  (∀ s : State,
    ((s.w.rd hltBase Reg.hltReplaceState ≠ 1 ∨ s.w.dutyUp 2 = false) → Runs .replaceReady s (fun t => t = s.w)) ∧
    (s.w.rd hltBase Reg.hltReplaceState = 1 → s.w.dutyUp 2 = true → Runs .replaceReady s (fun t => t.health.proposal.length = s.w.job.placement.length ∧
      (∀ i, i < s.w.job.placement.length → s.w.fieldUsable (s.w.job.placement.getD i 0) = true →
        t.health.proposal.getD i 0 = s.w.job.placement.getD i 0) ∧
      (∀ i, i < s.w.job.placement.length → t.health.proposal.getD i 0 = 0xFF ∨ s.w.fieldUsable (t.health.proposal.getD i 0) = true) ∧
      (0xFF ∈ t.health.proposal → t.rd hltBase Reg.hltReplaceState = 3) ∧ s.w.sameMemory t ∧ t.job = s.w.job)))) : Prop) ∧
  ((
  ∀ (mem addr : Nat) (flips : List Nat) (s : State), mem < 5 → addr < scrubLimit mem →
    let a := addr / 8 * 8
    let n := (flips.eraseDups.filter (· < 80)).length
    let m := s.w.scrubMem mem
    let others := fun (v : Wafer) => ∀ j, j < 5 → j ≠ mem → v.scrubMem j = s.w.scrubMem j
    let loc := s.w.scrubLoc mem a
    let shut := (mem = 3 ∧ s.w.lineFenced (a / 2 ^ 37) (a % 2 ^ 37) = true) ∨ (mem = 1 ∧ s.w.groupsShut (a / 2 ^ 25) (a % 2 ^ 25) 8 = true)
    ((n = 0 ∨ shut) → Runs (.patrolScrub mem addr flips) s (fun t => t = s.w)) ∧
    (¬ shut → 1 ≤ n → n ≤ 2 → Runs (.patrolScrub mem addr flips) s (fun t => ∃ v : Wafer, t = v.classify loc false ∧ others v ∧
      ∀ x, (v.scrubMem mem).get x = m.get x ∧ (v.scrubMem mem).badAt x = m.badAt x)) ∧
    (¬ shut → n = 3 → Runs (.patrolScrub mem addr flips) s (fun t => ∃ v : Wafer, t = v.classify loc true ∧ others v ∧
      (v.scrubMem mem).badAt a = true ∧ ∀ x, x / 8 ≠ a / 8 → (v.scrubMem mem).get x = m.get x ∧ (v.scrubMem mem).badAt x = m.badAt x)) ∧
    (¬ shut → 3 < n → Runs (.patrolScrub mem addr flips) s (fun t => ∃ v : Wafer, (t = v ∨ t = v.classify loc true) ∧ others v ∧
      v.free = s.w.free + 1 ∧ ∀ x, x / 8 ≠ a / 8 → (v.scrubMem mem).get x = m.get x))) : Prop)

/-! ## Resets and time -/

/-- Resets from outside and losses of power (R179, R303, R317, R374, R375, R386).
Standby power, and RESET_N, are COLD resets: the job, memories and sessions are gone, every field is FALLOW, a cold flood is due, the persistent records, fuses and tally stand, the strap is sampled, and HLT_RESET shows class 5 with its
source. PERST_N, a CXL hot reset and a CXL link that goes down each empty one port's replies, held and produced, and leave the rest; the first two are recorded as LINK resets. A loss of all power leaves what flash and the fuses hold, and the first boot after it writes a KIND 6 entry with the number of entries lost. -/
def Obligations.ResetsAndPowerLoss : Prop :=
  (∀ (strap : Nat) (s : State),
    let cold := fun (src : Nat) (t : Wafer) => t.job = {} ∧ t.coreMem = {} ∧ t.cluMem = {} ∧ t.accMem = {} ∧ t.stkMem = {} ∧ t.chamber = {} ∧
      t.fwMem = s.w.fwMem ∧ t.ports = [] ∧ t.cores = [] ∧ t.ingest = {} ∧ t.reduce = {} ∧ t.cmd.inflight = [] ∧ t.period = 125000 ∧
      (∀ k, k < 112 → t.fieldState k = 3) ∧ t.health.floodDue = some (false, false, true) ∧ t.health.map = s.w.health.map ∧
      t.health.plan = s.w.health.plan ∧ t.shp.boot = s.w.shp.boot ∧ t.shp.slotA = s.w.shp.slotA ∧ t.shp.slotB = s.w.shp.slotB ∧
      t.shp.place = s.w.shp.place ∧ t.shp.roots = s.w.shp.roots ∧ t.shp.otp = s.w.shp.otp ∧ t.shp.tallyFlash = s.w.shp.tallyFlash ∧
      t.shp.strap = strap % 4 ∧ t.rd hltBase Reg.hltResetCls = 5 ∧ t.rd hltBase Reg.hltResetSource = src ∧
      (∀ r ∈ t.fences, r ∈ s.w.fences ∧ s.w.mapRetired r.unit = true)
    Runs (.standbyPowerUp strap) s (cold 0) ∧ (s.w.power.standby = true → Runs (.resetNAssert strap) s (cold 2)) ∧
    (s.w.power.standby = false → Runs (.resetNAssert strap) s (fun t => t = s.w))) ∧
  (∀ (x : Nat) (s : State), x < 2 →
    let link := fun (t : Wafer) => (t.cmdPort x).held = [] ∧ (t.cmdPort x).outgoing = [] ∧ t.cmdPort (1 - x) = s.w.cmdPort (1 - x) ∧
      t.cmd.inflight = s.w.cmd.inflight ∧ t.rd (cmdBase x) Reg.cmdSeqRheld = 0 ∧ s.w.sameMemory t ∧ s.w.sameUnits t ∧ t.cores = s.w.cores
    Runs (.perstN x) s (fun t => link t ∧ t.rd hltBase Reg.hltResetCls = 0 ∧ t.rd hltBase Reg.hltResetSource = 2) ∧
    Runs (.cxlHotReset x) s (fun t => link t ∧ t.rd hltBase Reg.hltResetCls = 0 ∧ t.rd hltBase Reg.hltResetSource = 3) ∧
    Runs (.cxlLinkDown x) s (fun t => link t ∧ t.rd hltBase Reg.hltResetCls = s.w.rd hltBase Reg.hltResetCls)) ∧
  (∀ s : State, Runs .allPowerLost s (fun t => t.job = {} ∧ t.coreMem = {} ∧ t.stkMem = {} ∧ t.fwMem = s.w.fwMem ∧ t.fences = [] ∧
    t.shp.tallyBuf = [] ∧ t.shp.tallyLost = s.w.shp.tallyLost + s.w.shp.tallyBuf.length ∧ t.shp.tallyFlash = s.w.shp.tallyFlash ∧
    t.shp.otp = s.w.shp.otp ∧ t.shp.roots = s.w.shp.roots ∧ t.health.map = s.w.health.map ∧ t.shp.gapDue = true ∧ t.power.standby = false ∧
    t.rd secBase Reg.secTallyNext = (((s.w.shp.tallyHead.value.map fun h => h.1 + 1)).getD 0) % 2 ^ 64)) ∧
  (∀ v : Wafer, v.shp.gapDue = true → v.tallyFull = false → ∃ e, v.tallyGap.shp.tallyBuf = v.shp.tallyBuf ++ [e] ∧ e.kind = 6 ∧
    e.ref = v.shp.tallyLost ∧ v.tallyGap.shp.gapDue = false ∧ v.tallyGap.shp.tallyLost = 0)

/-- The tick wave, heartbeats and references across the wafer (R28, R37 to R40, R387).
The master sends the coming tick with its start and any pending period change; a running field arms its tick from it, and loses itself to a change that comes later than its tick, or to 64 ticks without a wave: fenced with TICK_WAVE_LOST (0x0103), and a job fault if it is in the run.
A reference switches to a running alternate, else to the rim. A heartbeat on a link that is up is remembered; one that disagrees while the port is in the run is the job fault 0x0102, otherwise it is counted. REFCLK comes and goes. -/
def Obligations.WavesHeartbeatsAndReferences : Prop :=
  ∀ s : State,
    let w := s.w
    (Runs .tickWaveSend s (fun t => ∃ n c, n = (w.tick + 1) % 2 ^ 48 ∧ c = w.nextStart ∧
      t.time = { w.time with wave := some ⟨n, c, w.pendingRate, w.time.passed, w.countNow⟩ } ∧
      t.out = w.out ++ [.signal (.wave n c ((w.pendingRate.map (·.1)).getD 0) ((w.pendingRate.map (·.2)).getD 0))] ∧ t.regs = w.regs ∧ w.sameMemory t)) ∧
    (∀ f, f < 112 → (w.runs f = false ∨ w.time.wave = none ∨ w.waveCorr f (w.fieldTime f).waveParent = 0xFFFF) →
      Runs (.tickWave f) s (fun t => t = w)) ∧
    (∀ f (m : WaveMsg), f < 112 → w.runs f = true → w.time.wave = some m → w.waveCorr f (w.fieldTime f).waveParent ≠ 0xFFFF →
      let ft := w.fieldTime f
      let told := w.time.changed = none ∨ ft.applied = w.time.changed ∨ ft.pend = w.time.changed
      (told → Runs (.tickWave f) s (fun t =>
        (t.fieldTime f).heardAt = w.time.boundaries ∧ (t.fieldTime f).armTick = m.tick ∧ (t.fieldTime f).armStart = m.start ∧
        (t.fieldTime f).setAt = t.time.passed ∧ w.time.passed ≤ t.time.passed ∧
        (t.fieldTime f).replica = 8 * m.sentCount + ft.corr + (8 * (t.time.passed - m.sentAt) - ft.corr) ∧
        (m.pend ≠ w.time.changed → (t.fieldTime f).pend = m.pend) ∧ (t.fieldTime f).applied = w.time.changed ∧
        (∀ k, k ≠ f → t.fieldTime k = w.fieldTime k) ∧ t.fences = w.fences ∧ t.job = w.job ∧ w.sameMemory t)) ∧
      (¬ told → Runs (.tickWave f) s (fun t => t.fieldFenced f = true ∧ (fField f, 0x0103) ∈ t.raised ∧
        (w.fieldInRun f = true → t.job.phase = .stopped ∧ t.job.faulted = true)))) ∧
    (∀ f, f < 112 →
      ((w.fieldTime f).heardAt + 64 ≤ w.time.boundaries → Runs (.tickWaveLost f) s (fun t => t.fieldFenced f = true ∧ (fField f, 0x0103) ∈ t.raised ∧
        (w.fieldInRun f = true → t.job.phase = .stopped ∧ t.job.faulted = true))) ∧
      (w.time.boundaries < (w.fieldTime f).heardAt + 64 → Runs (.tickWaveLost f) s (fun t => t = w)) ∧
      ((w.fieldTime f).refSource = 2 → Runs (.referenceSwitch f) s (fun t => t = w)) ∧
      ((w.fieldTime f).refSource = 1 → Runs (.referenceSwitch f) s (fun t => (t.fieldTime f).refSource = 2)) ∧
      (∀ g, (w.fieldTime f).refSource = 0 → fieldNeighbour f (w.fieldRec f).refAlt = some g → w.runs g = true →
        (w.fieldTime g).refSource = 0 → Runs (.referenceSwitch f) s (fun t => (t.fieldTime f).refSource = 1)) ∧
      Runs (.tickWaveReroot f) s (fun t => w.sameMemory t ∧ t.job = w.job ∧ ∀ k, k < 112 →
        ((w.fieldTime k).waveParent ≠ 0 ∨ waveFrom w k f = false → t.fieldTime k = w.fieldTime k) ∧
        (t.fieldTime k = w.fieldTime k ∨ t.fieldTime k = { w.fieldTime k with waveParent := 1, corr := w.waveCorr k 1 }) ∧
        (∀ g, (w.fieldTime k).waveParent = 0 → waveFrom w k f = true → fieldNeighbour k (w.fieldRec k).waveAlt = some g → w.runs g = true →
          (w.fieldTime g).waveParent = 0 → waveFrom w g f = false → (t.fieldTime k).waveParent = 1))) ∧
    (∀ port hb, port < 176 →
      let took := w.rxTook port 3 5 (heartbeatBytes hb)
      (linkState w port ≠ 5 → linkState w port ≠ 6 → Runs (.heartbeat port hb) s (fun t => t = took)) ∧
      ((linkState w port = 5 ∨ linkState w port = 6) →
        (heartbeatOk w port hb = true → Runs (.heartbeat port hb) s (fun t =>
          t.port port = { took.port port with hbSeen := true, hbTick := true, hbMissed := 0 } ∧ t.regs = w.regs ∧ t.job = w.job ∧ t.time = w.time)) ∧
        (heartbeatOk w port hb = false → w.portInRun port = true → Runs (.heartbeat port hb) s (fun t => t.job.phase = .stopped ∧
          t.job.faulted = true)) ∧
        (heartbeatOk w port hb = false → w.portInRun port = false → Runs (.heartbeat port hb) s (fun t =>
          t.time.hbMismatch = w.time.hbMismatch + 1 ∧ t.job = w.job ∧ t.regs = w.regs)))) ∧
    Runs .refclkLoss s (fun t => t = { w with time := { w.time with refclk := false } }) ∧
    Runs .refclkPresent s (fun t => t = { w with time := { w.time with refclk := true } })

/-- Servos, PPS and the wall clock (R48, R50, R52 to R56, R391, R392).
A two-step Sync notes when it came; a Delay_Req on a port that is not the upstream is answered; a Delay_Resp is kept; and the Follow_Up that matches the Sync gives its port's delay and offset, less its asymmetry, and asks again. The active upstream's steers the counter, which steps at once when it is off by more than 1 µs and no job holds it. A lost upstream hands over to ALT1, then ALT2. A job faults with 0x0104
in holdover over 10 s or on re-acquisition above 5 µs. PPSSEED arms one load, outside a job, which the next good edge performs; an edge within half a second of the last good one is counted and ignored. PPS_OUT pulses 100 µs, or 50 µs unlocked. A wall
read latches the count. A server of the list disciplines the wall clock within 2 µs (a free error). -/
def Obligations.ServosPpsAndWallClock : Prop :=
  ∀ s : State,
    let w := s.w
    let live := fun port => linkState w port = 5 ∨ linkState w port = 6
    (∀ port msg dt e, port < 176 →
      let v := (w.elapseWithin dt).rxTook port 3 6 msg
      let p := v.portTime port
      (¬ live port → Runs (.timingFrame port msg dt e) s (fun t => t = v)) ∧
      (live port → ptpType msg ∉ [0, 1, 8, 9] → Runs (.timingFrame port msg dt e) s (fun t => t = v)) ∧
      (live port → ptpType msg = 0 → Runs (.timingFrame port msg dt e) s (fun t =>
        (ptpTwoStep msg = false → t = v) ∧ (ptpTwoStep msg = true →
          t.portTime port = { p with syncSeq := ptpSeq msg, t2 := some ((8 * v.countNow + e % 8 : Nat) : Int), syncCorr := ptpCorrection msg } ∧
          (∀ j, j ≠ port → t.portTime j = v.portTime j) ∧ t.regs = v.regs ∧ t.job = w.job ∧ w.sameMemory t))) ∧
      (live port → ptpType msg = 1 → Runs (.timingFrame port msg dt e) s (fun t =>
        (w.activePort = port → t = v) ∧ (w.activePort ≠ port → t.countNow = v.countNow ∧ t.job = w.job ∧ w.sameMemory t ∧
          ∃ f ∈ (t.port port).egress ++ (t.port port).replay, f.requester = 0 ∧ f.vl = 3 ∧ f.ftype = 6 ∧ ptpType f.payload = 9 ∧
            ptpSeq f.payload = ptpSeq msg))) ∧
      (live port → ptpType msg = 9 → Runs (.timingFrame port msg dt e) s (fun t =>
        (ptpSeq msg ≠ p.reqSeq → t = v) ∧ (ptpSeq msg = p.reqSeq → t.portTime port = { p with t4 := some (ptpTime msg - ptpCorrection msg) } ∧
          (∀ j, j ≠ port → t.portTime j = v.portTime j) ∧ t.regs = v.regs ∧ t.job = w.job ∧ w.sameMemory t))) ∧
      (live port → ptpType msg = 8 → (p.t2 = none ∨ ptpSeq msg ≠ p.syncSeq) → Runs (.timingFrame port msg dt e) s (fun t => t = v)) ∧
      (∀ t2 t3 t4, live port → ptpType msg = 8 → p.t2 = some t2 → ptpSeq msg = p.syncSeq → p.t3 = some t3 → p.t4 = some t4 →
        let t1 := ptpTime msg + p.syncCorr + ptpCorrection msg
        let d := ((t2 - t1) + (t4 - t3)) / 2
        let off := 100 * (t2 - t1 - d) - toInt 32 p.asym
        let steers := w.rd lckBase Reg.lckSrcPhase = 1 ∧ w.activePort = port
        Runs (.timingFrame port msg dt e) s (fun t =>
          (t.portTime port).delay = (100 * d).toNat ∧ (t.portTime port).offset = ofInt 32 off ∧ (t.portTime port).t2 = none ∧
          (t.portTime port).t4 = none ∧ (t.portTime port).reqSeq = (p.reqSeq + 1) % 2 ^ 16 ∧
          (∀ j, j ≠ port → t.portTime j = v.portTime j) ∧ t.job = w.job ∧ w.sameMemory t ∧
          (steers → off.natAbs ≤ 1000000 → t.syncState = 2 ∧ t.countNow = v.countNow) ∧
          (steers → 1000000 < off.natAbs → w.armedOrRunning = true → t.syncState = 1 ∧ t.countNow = v.countNow) ∧
          (steers → 1000000 < off.natAbs → w.armedOrRunning = false → t.countNow = ofInt 64 ((v.countNow : Int) - off / 800) ∧
            t.rd lckBase Reg.lckTickStepped = 1 ∧ t.tick = t.tickAt t.countNow) ∧
          (¬ steers → t.countNow = v.countNow ∧ t.tick = w.tick ∧ t.syncState = w.syncState)))) ∧
    ((w.rd lckBase Reg.lckSrcPhase ≠ 1 ∨ w.activePort = 0xFF) → Runs .upstreamLost s (fun t => t = w)) ∧
    (w.rd lckBase Reg.lckSrcPhase = 1 → w.activePort ≠ 0xFF → Runs .upstreamLost s (fun t => t.syncState = 3 ∧ t.countNow = w.countNow ∧
      w.onlyNotes t ∧ (w.activePort = w.rd lckBase Reg.lckSrcUpstream → w.rd lckBase Reg.lckSrcAlt1 ≠ 0xFF → t.activePort = w.rd lckBase Reg.lckSrcAlt1 % 2 ^ 8) ∧
      (w.activePort ≠ w.rd lckBase Reg.lckSrcUpstream → w.activePort ≠ w.rd lckBase Reg.lckSrcAlt2 → t.activePort = w.rd lckBase Reg.lckSrcAlt2 % 2 ^ 8))) ∧
    (∀ b, w.running = true → (if b then 5000000 < (toInt 32 (w.rd lckBase Reg.lckSyncstatOffset)).natAbs else w.syncState = 3) →
      Runs (.timeLost b) s (fun t => t.job.phase = .stopped ∧ t.job.faulted = true)) ∧
    (∀ b, w.running = false → Runs (.timeLost b) s (fun t => t = w)) ∧
    (∀ path value,
      let off := lckBase + Reg.lckSrcPpsseed.off
      let val := (value ||| 16#64).toNat
      let held := fun (at_ : Option Nat) => ({ path := path, off := off, value := val, lanes := 0xFF, sel := w.rd lckBase Reg.lckPdselPort, refused := at_ } : LateWrite)
      (w.tallyFull = true → Runs (.ppsseed ⟨path, value⟩) s (fun t => t = w)) ∧
      (w.tallyFull = false → w.armedOrRunning = true → Runs (.ppsseed ⟨path, value⟩) s (fun t =>
        t.time = { w.time with late := w.time.late ++ [held (some w.tick)] } ∧ t.regs = w.regs ∧ w.sameMemory t)) ∧
      (w.tallyFull = false → w.armedOrRunning = false → Runs (.ppsseed ⟨path, value⟩) s (fun t =>
        t.time.late = w.time.late ++ [held none] ∧ t.time.seedArmed = some (path, val) ∧
        t.countNow = w.countNow ∧ w.sameMemory t))) ∧
    (∀ c, w.countNow < 2 ^ 64 → w.time.ppsAt = some c → (w.countNow + 2 ^ 64 - c) % 2 ^ 64 < 625000000 → Runs (.ppsEdge 0) s (fun t =>
      t.time.ppsBad = w.time.ppsBad + 1 ∧ t.time.seedArmed = w.time.seedArmed ∧ t.countNow = w.countNow)) ∧
    (∀ path val, w.time.ppsAt = none → w.time.seedArmed = some (path, val) → w.armedOrRunning = true → w.countNow < 2 ^ 64 →
      w.rd lckBase Reg.lckSrcPhase ≠ 2 → Runs (.ppsEdge 0) s (fun t => t.countNow = w.countNow ∧ t.time.seedArmed = none ∧
        t.time.ppsAt = some w.countNow)) ∧
    (∀ path val, w.time.ppsAt = none → w.time.seedArmed = some (path, val) → w.armedOrRunning = false → w.rd lckBase Reg.lckSrcPhase ≠ 2 →
      Runs (.ppsEdge 0) s (fun t => t.countNow = w.rd lckBase Reg.lckPpsloadSeed % 2 ^ 64 ∧ t.time.seedArmed = none ∧
        t.time.ppsAt = some t.countNow ∧ t.rd lckBase Reg.lckTickStepped = 1)) ∧
    (w.countNow < 2 ^ 64 → w.time.ppsAt = none → w.time.seedArmed = none → w.rd lckBase Reg.lckSrcPhase ≠ 2 → Runs (.ppsEdge 0) s (fun t =>
      t.time = { w.time with ppsAt := some w.countNow } ∧ t.countNow = w.countNow)) ∧
    (w.power.standby = true → w.countNow < 2 ^ 64 → w.countNow % 1250000000 = 0 → Runs (.ppsOutPulse 0) s (fun t =>
      t.out = w.out ++ [.ppsOut (if w.syncState < 2 then 50 else 100)] ∧ t.countNow = w.countNow ∧ t.time = w.time)) ∧
    ((w.power.standby = false ∨ w.countNow % 1250000000 ≠ 0) → Runs (.ppsOutPulse 0) s (fun t => t.out = w.out ∧ t.time = w.time)) ∧
    (w.countNow < 2 ^ 64 → w.wall < 2 ^ 64 → Runs (.lckWallRead 0) s (fun t => t.rd lckBase Reg.lckWallcntCount = w.countNow ∧
      t.out = w.out ++ [.readData (natLE 8 w.wall) false] ∧ t.time = w.time ∧ w.sameMemory t)) ∧
    (∀ srv o, (srv ∉ w.time.servers ∨ w.dutyUp 1 = false) → Runs (.ntpPacket srv o) s (fun t => t = w)) ∧
    (∀ srv o, srv ∈ w.time.servers → w.dutyUp 1 = true → Runs (.ntpPacket srv o) s (fun t => t.time = { w.time with wallSet := true } ∧
      ∃ e : Int, -2000 ≤ e ∧ e ≤ 2000 ∧ t.rd lckBase Reg.lckWallWall = ofInt 64 ((w.wall : Int) + o + e)))

/-! ## The tick boundary and the scans -/

/-- A boundary keeps the schedule, closes the old tick and opens the new one (R25, R31, R34, R35, R41, R42, R111, R126).
With no command, late write or clear waiting: the counter reaches the next start value and LCK_TICK is the tick there. A pending rate change whose tick has come moves E, B and P. A snapshot is taken at its interval. A core that has not passed its
mark is an overrun: LCK_OVRSTAT holds the first, and the job stops with a fault. Otherwise every core with a part in the stage starts it at its entry.
A scan takes, holds or leaves a packet of the lane's inbox, and its time bound is counted (R287 to R289). In the tick that begins, a packet that waits in the management lane's inbox is taken when its number is the one its source expects, which then expects the next; one that is ahead by up to 4,095 stays. When the bound comes first the packet stays, and
SCAN_TIME_BOUND counts each scan so cut; with no scan cut it does nothing. -/
def Obligations.BoundariesKeepTheSchedule : Prop :=
  ((
  (∀ (k : Nat) (s : State), Runs (.tickBoundary k) s (fun _ => True)) ∧
  ∀ s : State,
    let w := s.w
    let now := (w.countNow + w.toNextStart) % 2 ^ 64
    let n := w.tickAt now
    w.cmd.inflight = [] → w.cmd.clears = [] → w.cmd.swaps = [] → w.time.late = [] → w.cmd.lifts = [] → w.job.placing = none →
    Runs (.tickBoundary 0) s (fun t => t.countNow = now ∧ t.tick = n ∧ t.time.boundaries = w.time.boundaries + 1 ∧
      (w.armedOrRunning = false → t.job.phase = w.job.phase) ∧
      (∀ p T, w.pendingRate = some (p, T) →
        (tickFuture T n = true → t.pendingRate = some (p, T) ∧ t.period = w.period) ∧
        (tickFuture T n = false → t.pendingRate = none ∧ t.period = p % 2 ^ 19 ∧ t.rd lckBase Reg.lckBasetickBase = T % 2 ^ 48 ∧
          t.rd lckBase Reg.lckEpochEpoch = w.startOf T)) ∧
      (w.pendingRate = none → t.period = w.period) ∧
      (if n % 2 ^ w.rd 0 Reg.shpSnapctlInterval = 0 then
        t.rd 0 Reg.shpSnaptickTick = n ∧ t.rd 0 Reg.shpSnaptickValid = 1 ∧ ∃ c, t.time.snaps = ((n, c) :: w.time.snaps).take 2
      else t.time.snaps = w.time.snaps) ∧
      (∀ x l, w.overruns = x :: l → t.job.phase = .stopped ∧ t.job.faulted = true ∧ (w.rd lckBase Reg.lckOvrstatValid ≠ 1 →
        t.rd lckBase Reg.lckOvrstatValid = 1 ∧ t.rd lckBase Reg.lckOvrstatField = x / 20 % 2 ^ 7 ∧
        t.rd lckBase Reg.lckOvrstatCluster = x % 20 / 5 ∧ t.rd lckBase Reg.lckOvrstatCause = (w.overrunCause x).1 % 2 ^ 4 ∧
        t.rd lckBase Reg.lckOvrstatCount = min (l.length + 1) 0xFFFF ∧ t.rd lckBase Reg.lckOvrtickTick = w.tick % 2 ^ 48)) ∧
      (∀ img k, w.overruns = [] → w.job.image = some img → w.reduce = {} → w.rd wstBase Reg.wstFlipValid = 0 → k < 2240 → k ∈ w.jobSites →
        (w.core k).hasStage = true → w.coreFenced k = false → (w.elapse w.toNextStart).fieldFires (k / 20) = true → w.fieldState (k / 20) = 0 → t.job.phase = .running →
        t.core k = { w.core k with marked := false, q := 0, qr := 0 } ∧ t.rd (siteBase k) Reg.seqStatState = 1 ∧
        t.rd (siteBase k) Reg.seqPcPc = ((w.core k).codeBase + (w.core k).entries.getD (stageOf img w.job.t0 n) 0) % 2 ^ 24 ∧
        t.rd (siteBase k) Reg.seqStatStage = stageOf img w.job.t0 n % 2 ^ 24))) : Prop) ∧
  ((
  (∀ (k op : Nat) (p : Packet) (s : State),
    let w := s.w
    w.cmd.inflight = [] → w.inflightTotal = 0 → w.cmd.clears = [] → w.cmd.swaps = [] → w.time.late = [] → w.running = false →
    w.job.placing = none → w.job.tagsDue = none → w.chamber = {} → w.cmd.inboxMctp = [] → w.cmd.inboxMl = [(op, p)] → p.path = 2 →
    w.interprets 2 = true → op ≠ 0x0002 → op ≠ 0x0706 →
    (0 < k → seqClass (w.nextSeq p) p.seq = .take → Runs (.tickBoundary k) s (fun t => t.cmd.inboxMl = [] ∧
      t.nextSeq p = (p.seq + 1) % 2 ^ 32)) ∧
    (seqClass (w.nextSeq p) p.seq = .hold → Runs (.tickBoundary k) s (fun t => t.cmd.inboxMl = [(op, p)] ∧ t.nextSeq p = w.nextSeq p)) ∧
    (seqClass (w.nextSeq p) p.seq = .take → Runs (.tickBoundary 0) s (fun t => t.cmd.inboxMl = [(op, p)] ∧ t.nextSeq p = w.nextSeq p ∧
      t.cmd.scanCut = w.cmd.scanCut + 1))) ∧
  ∀ s : State,
    (s.w.cmd.scanCut = 0 → Runs .scanTimeBound s (fun t => t = s.w)) ∧
    (s.w.cmd.scanCut ≠ 0 → Runs .scanTimeBound s (fun t => t.cmd.scanCut = 0 ∧ s.w.countedBy t cmdmBase Reg.cmdFullscans s.w.cmd.scanCut ∧
      s.w.sameMemory t ∧ t.job = s.w.job ∧ t.time = s.w.time))) : Prop)

/-! ## Words and invariants -/

/-- Words and frames decode and encode back (R104, R200, R209, R210, Table 5-2).
Decoding the word of any instruction gives that instruction, every field at every value; a word that decodes is the word of what it decodes to; and exactly the words whose CLASS field is 7 to 15 decode to nothing.
A frame of 256 bytes reads back as the frame it was made of, its CRC fits, and the header of the example of Table 9-4 comes out as the spec prints it. A code word of 80 bits is one by the check that a read makes, and gives back its 64 data bits and its poison bit. -/
def Obligations.WordsRoundTrip : Prop :=
  (∀ i : InstrWord, decodeWord (encodeWord i) = .ok i) ∧
  (∀ (w : BitVec 64) (i : InstrWord), decodeWord w = .ok i → encodeWord i = w) ∧
  (∀ w : BitVec 64, (∃ e, decodeWord w = .error e) ↔ 7 * 2 ^ 60 ≤ w.toNat) ∧
  (∀ (f : Frame) (mac : List Byte), f.vl < 4 → f.ftype < 16 → f.seq < 2 ^ 16 → f.plen ≤ 232 → f.payload.length = f.plen → f.tag < 2 ^ 32 →
    (frameBytes f mac).length = 256 ∧ frameOf (frameBytes f mac) = f ∧ crcOk (frameBytes f mac) = true ∧
    (mac.length = 12 → frameMac (frameBytes f mac) = mac)) ∧
  (∀ p, frameHeader ⟨1, 0, true, false, 0x1234, 232, 0x00270003, p⟩ = [0x41#8, 0x34#8, 0x12#8, 0xE8#8, 0x03#8, 0x00#8, 0x27#8, 0x00#8]) ∧
  codeWord 0 false = 0 ∧
  (∀ (d : Nat) (p : Bool), d < 2 ^ 64 → codeData (codeWord d p) = d ∧ codePoison (codeWord d p) = p ∧ codeValid (codeWord d p) = true)

/-- Every step keeps registers and memories in their canonical form.
Whatever command stands in front: if registers and all memories are in canonical form (keys rising, nothing listed that equals what is not listed) and the step answers a next state, they are so there. So equal memories stay equal data. -/
def Obligations.StepsKeepMemoriesCanonical : Prop :=
  ∀ s t : State, s.w.memOk = true → step s = .next t → t.w.memOk = true
end

