-- ==== Sys2Proof/Laws/Map.lean ====
section
/-!
SUPPORT. Sys2Proof/Laws/Map.lean: what reading and writing a sparse table do, once. The read laws hold of
every list, canonical or not.
-/

namespace Sys2Proof.Machine

theorem mapGet_filter {α : Type} (d : Nat → α) (l : List (Nat × α)) (k j : Nat) (h : k < j) :
    mapGet d (l.filter (fun e => k < e.1)) j = mapGet d l j := by
  induction l with
  | nil => rfl
  | cons e l ih =>
    obtain ⟨ke, ve⟩ := e
    by_cases he : k < ke
    · simp [he, mapGet, ih]
    · have h1 : ¬ j < ke := by omega
      have h2 : ¬ j = ke := by omega
      simp [he, mapGet, h1, h2, ih]

theorem mapGet_filter_self {α : Type} (d : Nat → α) (l : List (Nat × α)) (k j : Nat) (h : j ≤ k) :
    mapGet d (l.filter (fun e => k < e.1)) j = d j := by
  induction l with
  | nil => rfl
  | cons e l ih =>
    obtain ⟨ke, ve⟩ := e
    by_cases he : k < ke
    · have : j < ke := by omega
      simp [he, mapGet, this]
    · simp [he, ih]

/-- A read after a write of the same key gives the value written. -/
@[simp] theorem mapGet_mapSet {α : Type} [DecidableEq α] (d : Nat → α) (l : List (Nat × α)) (k : Nat) (v : α) :
    mapGet d (mapSet d l k v) k = v := by
  induction l with
  | nil => by_cases h : v = d k <;> simp [mapSet, mapGet, h]
  | cons e l ih =>
    obtain ⟨ke, ve⟩ := e
    unfold mapSet
    split
    · split
      · next h1 h2 => simp [mapGet, h1, h2]
      · simp [mapGet]
    · split
      · split
        · next h1 h2 h3 => rw [mapGet_filter_self _ _ _ _ (Nat.le_refl _), h3]
        · simp [mapGet]
      · next h1 h2 => simp [mapGet, h1, h2, ih]

/-- A write leaves every other key as it was. -/
theorem mapGet_mapSet_ne {α : Type} [DecidableEq α] (d : Nat → α) (l : List (Nat × α)) (k j : Nat) (v : α)
    (hne : j ≠ k) : mapGet d (mapSet d l k v) j = mapGet d l j := by
  induction l with
  | nil =>
    by_cases h : v = d k
    · simp [mapSet, h]
    · by_cases h2 : j < k <;> simp [mapSet, mapGet, h, h2, hne]
  | cons e l ih =>
    obtain ⟨ke, ve⟩ := e
    unfold mapSet
    split
    · next h1 =>
      split
      · rfl
      · by_cases h2 : j < k
        · have : j < ke := by omega
          simp [mapGet, h2, this]
        · simp [mapGet, h2, hne]
    · split
      · next h1 h2 =>
        subst h2
        split
        · by_cases h3 : j < k
          · simp [mapGet, h3, mapGet_filter_self _ _ _ _ (Nat.le_of_lt h3)]
          · have h4 : k < j := by omega
            simp [mapGet, h3, hne, mapGet_filter _ _ _ _ h4]
        · by_cases h3 : j < k <;> simp [mapGet, h3, hne]
      · by_cases h3 : j < ke
        · simp [mapGet, h3]
        · by_cases h4 : j = ke <;> simp [mapGet, h3, h4, ih]

theorem mapSet_keys {α : Type} [DecidableEq α] (d : Nat → α) (l : List (Nat × α)) (k : Nat) (v : α) :
    ∀ e ∈ mapSet d l k v, e.1 = k ∨ e ∈ l := by
  induction l with
  | nil =>
    intro e he
    by_cases h : v = d k
    · simp [mapSet, h] at he
    · simp only [mapSet, h, if_false, List.mem_singleton] at he
      exact .inl (by rw [he])
  | cons x l ih =>
    obtain ⟨kx, vx⟩ := x
    intro e he
    unfold mapSet at he
    split at he
    · split at he
      · exact .inr he
      · rcases List.mem_cons.1 he with rfl | he
        · exact .inl rfl
        · exact .inr he
    · split at he
      · split at he
        · exact .inr (List.mem_cons_of_mem _ (List.mem_filter.1 he).1)
        · rcases List.mem_cons.1 he with rfl | he
          · exact .inl rfl
          · exact .inr (List.mem_cons_of_mem _ he)
      · rcases List.mem_cons.1 he with rfl | he
        · exact .inr (List.mem_cons_self ..)
        · rcases ih e he with h | h
          · exact .inl h
          · exact .inr (List.mem_cons_of_mem _ h)

/-- A write keeps the canonical form. -/
theorem mapWf_mapSet {α : Type} [DecidableEq α] (d : Nat → α) (l : List (Nat × α)) (k : Nat) (v : α)
    (h : mapWf d l = true) : mapWf d (mapSet d l k v) = true := by
  simp only [mapWf, Bool.and_eq_true, decide_eq_true_eq, List.all_eq_true] at h ⊢
  induction l with
  | nil => by_cases hv : v = d k <;> simp [mapSet, hv]
  | cons x l ih =>
    obtain ⟨kx, vx⟩ := x
    obtain ⟨hp, ha⟩ := h
    have hpc := List.pairwise_cons.1 hp
    have hal : ∀ e ∈ l, e.2 ≠ d e.1 := fun e he => ha e (List.mem_cons_of_mem _ he)
    have ih' := ih ⟨hpc.2, hal⟩
    unfold mapSet
    split
    · next h1 =>
      split
      · exact ⟨hp, ha⟩
      · next h2 =>
        refine ⟨List.pairwise_cons.2 ⟨?_, hp⟩, ?_⟩
        · intro e he
          rcases List.mem_cons.1 he with rfl | he
          · exact h1
          · exact Nat.lt_trans h1 (hpc.1 e he)
        · intro e he
          rcases List.mem_cons.1 he with rfl | he
          · exact h2
          · exact ha e he
    · split
      · next h1 h2 =>
        subst h2
        split
        · exact ⟨hpc.2.filter _, fun e he => hal e (List.mem_filter.1 he).1⟩
        · next h3 =>
          refine ⟨List.pairwise_cons.2 ⟨hpc.1, hpc.2⟩, ?_⟩
          intro e he
          rcases List.mem_cons.1 he with rfl | he
          · exact h3
          · exact hal e he
      · next h1 h2 =>
        refine ⟨List.pairwise_cons.2 ⟨?_, ih'.1⟩, ?_⟩
        · intro e he
          rcases mapSet_keys d l k v e he with h | h
          · show kx < e.1
            omega
          · exact hpc.1 e h
        · intro e he
          rcases List.mem_cons.1 he with rfl | he
          · exact ha _ (List.mem_cons_self ..)
          · exact ih'.2 e he

/-- Forgetting keys keeps the canonical form. -/
theorem mapWf_mapClear {α : Type} [DecidableEq α] (d : Nat → α) (p : Nat → Bool) (l : List (Nat × α))
    (h : mapWf d l = true) : mapWf d (mapClear p l) = true := by
  simp only [mapWf, Bool.and_eq_true, decide_eq_true_eq, List.all_eq_true] at h ⊢
  exact ⟨h.1.filter _, fun e he => h.2 e (List.mem_filter.1 he).1⟩

@[simp] theorem mapGet_mapUpd {α : Type} [DecidableEq α] (d : Nat → α) (l : List (Nat × α)) (k : Nat) (f : α → α) :
    mapGet d (mapUpd d l k f) k = f (mapGet d l k) := by simp [mapUpd]

theorem mapGet_mapUpd_ne {α : Type} [DecidableEq α] (d : Nat → α) (l : List (Nat × α)) (k j : Nat) (f : α → α)
    (hne : j ≠ k) : mapGet d (mapUpd d l k f) j = mapGet d l j :=
  mapGet_mapSet_ne _ _ _ _ _ hne

end Sys2Proof.Machine
end

