-- ==== Sys2Proof/Laws/State.lean ====
section
/-!
SUPPORT. Sys2Proof/Laws/State.lean: what each update of the module leaves as it was, one lemma for each field and update, and
what reading a register gives after each.
-/

namespace Sys2Proof.Machine

/-! ### wr -/
@[simp] theorem Wafer.wr_coreMem (w : Wafer) (b : Nat) (f : Fld) (v : Nat) : (w.wr b f v).coreMem = w.coreMem := rfl
@[simp] theorem Wafer.wr_cluMem (w : Wafer) (b : Nat) (f : Fld) (v : Nat) : (w.wr b f v).cluMem = w.cluMem := rfl
@[simp] theorem Wafer.wr_accMem (w : Wafer) (b : Nat) (f : Fld) (v : Nat) : (w.wr b f v).accMem = w.accMem := rfl
@[simp] theorem Wafer.wr_stkMem (w : Wafer) (b : Nat) (f : Fld) (v : Nat) : (w.wr b f v).stkMem = w.stkMem := rfl
@[simp] theorem Wafer.wr_chamber (w : Wafer) (b : Nat) (f : Fld) (v : Nat) : (w.wr b f v).chamber = w.chamber := rfl
@[simp] theorem Wafer.wr_fwMem (w : Wafer) (b : Nat) (f : Fld) (v : Nat) : (w.wr b f v).fwMem = w.fwMem := rfl
@[simp] theorem Wafer.wr_cores (w : Wafer) (b : Nat) (f : Fld) (v : Nat) : (w.wr b f v).cores = w.cores := rfl
@[simp] theorem Wafer.wr_coresLost (w : Wafer) (b : Nat) (f : Fld) (v : Nat) : (w.wr b f v).coresLost = w.coresLost := rfl
@[simp] theorem Wafer.wr_engines (w : Wafer) (b : Nat) (f : Fld) (v : Nat) : (w.wr b f v).engines = w.engines := rfl
@[simp] theorem Wafer.wr_gmes (w : Wafer) (b : Nat) (f : Fld) (v : Nat) : (w.wr b f v).gmes = w.gmes := rfl
@[simp] theorem Wafer.wr_tiers (w : Wafer) (b : Nat) (f : Fld) (v : Nat) : (w.wr b f v).tiers = w.tiers := rfl
@[simp] theorem Wafer.wr_canal (w : Wafer) (b : Nat) (f : Fld) (v : Nat) : (w.wr b f v).canal = w.canal := rfl
@[simp] theorem Wafer.wr_stackRecs (w : Wafer) (b : Nat) (f : Fld) (v : Nat) : (w.wr b f v).stackRecs = w.stackRecs := rfl
@[simp] theorem Wafer.wr_reservoir (w : Wafer) (b : Nat) (f : Fld) (v : Nat) : (w.wr b f v).reservoir = w.reservoir := rfl
@[simp] theorem Wafer.wr_ports (w : Wafer) (b : Nat) (f : Fld) (v : Nat) : (w.wr b f v).ports = w.ports := rfl
@[simp] theorem Wafer.wr_ingest (w : Wafer) (b : Nat) (f : Fld) (v : Nat) : (w.wr b f v).ingest = w.ingest := rfl
@[simp] theorem Wafer.wr_reduce (w : Wafer) (b : Nat) (f : Fld) (v : Nat) : (w.wr b f v).reduce = w.reduce := rfl
@[simp] theorem Wafer.wr_time (w : Wafer) (b : Nat) (f : Fld) (v : Nat) : (w.wr b f v).time = w.time := rfl
@[simp] theorem Wafer.wr_fences (w : Wafer) (b : Nat) (f : Fld) (v : Nat) : (w.wr b f v).fences = w.fences := rfl
@[simp] theorem Wafer.wr_fenceSerial (w : Wafer) (b : Nat) (f : Fld) (v : Nat) : (w.wr b f v).fenceSerial = w.fenceSerial := rfl
@[simp] theorem Wafer.wr_raised (w : Wafer) (b : Nat) (f : Fld) (v : Nat) : (w.wr b f v).raised = w.raised := rfl
@[simp] theorem Wafer.wr_cmd (w : Wafer) (b : Nat) (f : Fld) (v : Nat) : (w.wr b f v).cmd = w.cmd := rfl
@[simp] theorem Wafer.wr_job (w : Wafer) (b : Nat) (f : Fld) (v : Nat) : (w.wr b f v).job = w.job := rfl
@[simp] theorem Wafer.wr_shp (w : Wafer) (b : Nat) (f : Fld) (v : Nat) : (w.wr b f v).shp = w.shp := rfl
@[simp] theorem Wafer.wr_power (w : Wafer) (b : Nat) (f : Fld) (v : Nat) : (w.wr b f v).power = w.power := rfl
@[simp] theorem Wafer.wr_health (w : Wafer) (b : Nat) (f : Fld) (v : Nat) : (w.wr b f v).health = w.health := rfl
@[simp] theorem Wafer.wr_out (w : Wafer) (b : Nat) (f : Fld) (v : Nat) : (w.wr b f v).out = w.out := rfl
@[simp] theorem Wafer.wr_free (w : Wafer) (b : Nat) (f : Fld) (v : Nat) : (w.wr b f v).free = w.free := rfl

/-! ### emit -/
@[simp] theorem Wafer.emit_regs (w : Wafer) (e : Emit) : (w.emit e).regs = w.regs := rfl
@[simp] theorem Wafer.emit_coreMem (w : Wafer) (e : Emit) : (w.emit e).coreMem = w.coreMem := rfl
@[simp] theorem Wafer.emit_cluMem (w : Wafer) (e : Emit) : (w.emit e).cluMem = w.cluMem := rfl
@[simp] theorem Wafer.emit_accMem (w : Wafer) (e : Emit) : (w.emit e).accMem = w.accMem := rfl
@[simp] theorem Wafer.emit_stkMem (w : Wafer) (e : Emit) : (w.emit e).stkMem = w.stkMem := rfl
@[simp] theorem Wafer.emit_chamber (w : Wafer) (e : Emit) : (w.emit e).chamber = w.chamber := rfl
@[simp] theorem Wafer.emit_fwMem (w : Wafer) (e : Emit) : (w.emit e).fwMem = w.fwMem := rfl
@[simp] theorem Wafer.emit_cores (w : Wafer) (e : Emit) : (w.emit e).cores = w.cores := rfl
@[simp] theorem Wafer.emit_coresLost (w : Wafer) (e : Emit) : (w.emit e).coresLost = w.coresLost := rfl
@[simp] theorem Wafer.emit_engines (w : Wafer) (e : Emit) : (w.emit e).engines = w.engines := rfl
@[simp] theorem Wafer.emit_gmes (w : Wafer) (e : Emit) : (w.emit e).gmes = w.gmes := rfl
@[simp] theorem Wafer.emit_tiers (w : Wafer) (e : Emit) : (w.emit e).tiers = w.tiers := rfl
@[simp] theorem Wafer.emit_canal (w : Wafer) (e : Emit) : (w.emit e).canal = w.canal := rfl
@[simp] theorem Wafer.emit_stackRecs (w : Wafer) (e : Emit) : (w.emit e).stackRecs = w.stackRecs := rfl
@[simp] theorem Wafer.emit_reservoir (w : Wafer) (e : Emit) : (w.emit e).reservoir = w.reservoir := rfl
@[simp] theorem Wafer.emit_ports (w : Wafer) (e : Emit) : (w.emit e).ports = w.ports := rfl
@[simp] theorem Wafer.emit_ingest (w : Wafer) (e : Emit) : (w.emit e).ingest = w.ingest := rfl
@[simp] theorem Wafer.emit_reduce (w : Wafer) (e : Emit) : (w.emit e).reduce = w.reduce := rfl
@[simp] theorem Wafer.emit_time (w : Wafer) (e : Emit) : (w.emit e).time = w.time := rfl
@[simp] theorem Wafer.emit_fences (w : Wafer) (e : Emit) : (w.emit e).fences = w.fences := rfl
@[simp] theorem Wafer.emit_fenceSerial (w : Wafer) (e : Emit) : (w.emit e).fenceSerial = w.fenceSerial := rfl
@[simp] theorem Wafer.emit_raised (w : Wafer) (e : Emit) : (w.emit e).raised = w.raised := rfl
@[simp] theorem Wafer.emit_cmd (w : Wafer) (e : Emit) : (w.emit e).cmd = w.cmd := rfl
@[simp] theorem Wafer.emit_job (w : Wafer) (e : Emit) : (w.emit e).job = w.job := rfl
@[simp] theorem Wafer.emit_shp (w : Wafer) (e : Emit) : (w.emit e).shp = w.shp := rfl
@[simp] theorem Wafer.emit_power (w : Wafer) (e : Emit) : (w.emit e).power = w.power := rfl
@[simp] theorem Wafer.emit_health (w : Wafer) (e : Emit) : (w.emit e).health = w.health := rfl
@[simp] theorem Wafer.emit_free (w : Wafer) (e : Emit) : (w.emit e).free = w.free := rfl

/-! ### post -/
@[simp] theorem Wafer.post_regs (w : Wafer) (e : Event) : (w.post e).regs = w.regs := rfl
@[simp] theorem Wafer.post_coreMem (w : Wafer) (e : Event) : (w.post e).coreMem = w.coreMem := rfl
@[simp] theorem Wafer.post_cluMem (w : Wafer) (e : Event) : (w.post e).cluMem = w.cluMem := rfl
@[simp] theorem Wafer.post_accMem (w : Wafer) (e : Event) : (w.post e).accMem = w.accMem := rfl
@[simp] theorem Wafer.post_stkMem (w : Wafer) (e : Event) : (w.post e).stkMem = w.stkMem := rfl
@[simp] theorem Wafer.post_chamber (w : Wafer) (e : Event) : (w.post e).chamber = w.chamber := rfl
@[simp] theorem Wafer.post_fwMem (w : Wafer) (e : Event) : (w.post e).fwMem = w.fwMem := rfl
@[simp] theorem Wafer.post_cores (w : Wafer) (e : Event) : (w.post e).cores = w.cores := rfl
@[simp] theorem Wafer.post_coresLost (w : Wafer) (e : Event) : (w.post e).coresLost = w.coresLost := rfl
@[simp] theorem Wafer.post_engines (w : Wafer) (e : Event) : (w.post e).engines = w.engines := rfl
@[simp] theorem Wafer.post_gmes (w : Wafer) (e : Event) : (w.post e).gmes = w.gmes := rfl
@[simp] theorem Wafer.post_tiers (w : Wafer) (e : Event) : (w.post e).tiers = w.tiers := rfl
@[simp] theorem Wafer.post_canal (w : Wafer) (e : Event) : (w.post e).canal = w.canal := rfl
@[simp] theorem Wafer.post_stackRecs (w : Wafer) (e : Event) : (w.post e).stackRecs = w.stackRecs := rfl
@[simp] theorem Wafer.post_reservoir (w : Wafer) (e : Event) : (w.post e).reservoir = w.reservoir := rfl
@[simp] theorem Wafer.post_ports (w : Wafer) (e : Event) : (w.post e).ports = w.ports := rfl
@[simp] theorem Wafer.post_ingest (w : Wafer) (e : Event) : (w.post e).ingest = w.ingest := rfl
@[simp] theorem Wafer.post_reduce (w : Wafer) (e : Event) : (w.post e).reduce = w.reduce := rfl
@[simp] theorem Wafer.post_time (w : Wafer) (e : Event) : (w.post e).time = w.time := rfl
@[simp] theorem Wafer.post_fences (w : Wafer) (e : Event) : (w.post e).fences = w.fences := rfl
@[simp] theorem Wafer.post_fenceSerial (w : Wafer) (e : Event) : (w.post e).fenceSerial = w.fenceSerial := rfl
@[simp] theorem Wafer.post_raised (w : Wafer) (e : Event) : (w.post e).raised = w.raised := rfl
@[simp] theorem Wafer.post_job (w : Wafer) (e : Event) : (w.post e).job = w.job := rfl
@[simp] theorem Wafer.post_shp (w : Wafer) (e : Event) : (w.post e).shp = w.shp := rfl
@[simp] theorem Wafer.post_power (w : Wafer) (e : Event) : (w.post e).power = w.power := rfl
@[simp] theorem Wafer.post_health (w : Wafer) (e : Event) : (w.post e).health = w.health := rfl
@[simp] theorem Wafer.post_out (w : Wafer) (e : Event) : (w.post e).out = w.out := rfl
@[simp] theorem Wafer.post_free (w : Wafer) (e : Event) : (w.post e).free = w.free := rfl

/-! ### setCore -/
@[simp] theorem Wafer.setCore_regs (w : Wafer) (i : Nat) (c : Core) : (w.setCore i c).regs = w.regs := rfl
@[simp] theorem Wafer.setCore_coreMem (w : Wafer) (i : Nat) (c : Core) : (w.setCore i c).coreMem = w.coreMem := rfl
@[simp] theorem Wafer.setCore_cluMem (w : Wafer) (i : Nat) (c : Core) : (w.setCore i c).cluMem = w.cluMem := rfl
@[simp] theorem Wafer.setCore_accMem (w : Wafer) (i : Nat) (c : Core) : (w.setCore i c).accMem = w.accMem := rfl
@[simp] theorem Wafer.setCore_stkMem (w : Wafer) (i : Nat) (c : Core) : (w.setCore i c).stkMem = w.stkMem := rfl
@[simp] theorem Wafer.setCore_chamber (w : Wafer) (i : Nat) (c : Core) : (w.setCore i c).chamber = w.chamber := rfl
@[simp] theorem Wafer.setCore_fwMem (w : Wafer) (i : Nat) (c : Core) : (w.setCore i c).fwMem = w.fwMem := rfl
@[simp] theorem Wafer.setCore_coresLost (w : Wafer) (i : Nat) (c : Core) : (w.setCore i c).coresLost = w.coresLost := rfl
@[simp] theorem Wafer.setCore_engines (w : Wafer) (i : Nat) (c : Core) : (w.setCore i c).engines = w.engines := rfl
@[simp] theorem Wafer.setCore_gmes (w : Wafer) (i : Nat) (c : Core) : (w.setCore i c).gmes = w.gmes := rfl
@[simp] theorem Wafer.setCore_tiers (w : Wafer) (i : Nat) (c : Core) : (w.setCore i c).tiers = w.tiers := rfl
@[simp] theorem Wafer.setCore_canal (w : Wafer) (i : Nat) (c : Core) : (w.setCore i c).canal = w.canal := rfl
@[simp] theorem Wafer.setCore_stackRecs (w : Wafer) (i : Nat) (c : Core) : (w.setCore i c).stackRecs = w.stackRecs := rfl
@[simp] theorem Wafer.setCore_reservoir (w : Wafer) (i : Nat) (c : Core) : (w.setCore i c).reservoir = w.reservoir := rfl
@[simp] theorem Wafer.setCore_ports (w : Wafer) (i : Nat) (c : Core) : (w.setCore i c).ports = w.ports := rfl
@[simp] theorem Wafer.setCore_ingest (w : Wafer) (i : Nat) (c : Core) : (w.setCore i c).ingest = w.ingest := rfl
@[simp] theorem Wafer.setCore_reduce (w : Wafer) (i : Nat) (c : Core) : (w.setCore i c).reduce = w.reduce := rfl
@[simp] theorem Wafer.setCore_time (w : Wafer) (i : Nat) (c : Core) : (w.setCore i c).time = w.time := rfl
@[simp] theorem Wafer.setCore_fences (w : Wafer) (i : Nat) (c : Core) : (w.setCore i c).fences = w.fences := rfl
@[simp] theorem Wafer.setCore_fenceSerial (w : Wafer) (i : Nat) (c : Core) : (w.setCore i c).fenceSerial = w.fenceSerial := rfl
@[simp] theorem Wafer.setCore_raised (w : Wafer) (i : Nat) (c : Core) : (w.setCore i c).raised = w.raised := rfl
@[simp] theorem Wafer.setCore_cmd (w : Wafer) (i : Nat) (c : Core) : (w.setCore i c).cmd = w.cmd := rfl
@[simp] theorem Wafer.setCore_job (w : Wafer) (i : Nat) (c : Core) : (w.setCore i c).job = w.job := rfl
@[simp] theorem Wafer.setCore_shp (w : Wafer) (i : Nat) (c : Core) : (w.setCore i c).shp = w.shp := rfl
@[simp] theorem Wafer.setCore_power (w : Wafer) (i : Nat) (c : Core) : (w.setCore i c).power = w.power := rfl
@[simp] theorem Wafer.setCore_health (w : Wafer) (i : Nat) (c : Core) : (w.setCore i c).health = w.health := rfl
@[simp] theorem Wafer.setCore_out (w : Wafer) (i : Nat) (c : Core) : (w.setCore i c).out = w.out := rfl
@[simp] theorem Wafer.setCore_free (w : Wafer) (i : Nat) (c : Core) : (w.setCore i c).free = w.free := rfl

/-! ### updCore -/
@[simp] theorem Wafer.updCore_regs (w : Wafer) (i : Nat) (f : Core → Core) : (w.updCore i f).regs = w.regs := rfl
@[simp] theorem Wafer.updCore_coreMem (w : Wafer) (i : Nat) (f : Core → Core) : (w.updCore i f).coreMem = w.coreMem := rfl
@[simp] theorem Wafer.updCore_cluMem (w : Wafer) (i : Nat) (f : Core → Core) : (w.updCore i f).cluMem = w.cluMem := rfl
@[simp] theorem Wafer.updCore_accMem (w : Wafer) (i : Nat) (f : Core → Core) : (w.updCore i f).accMem = w.accMem := rfl
@[simp] theorem Wafer.updCore_stkMem (w : Wafer) (i : Nat) (f : Core → Core) : (w.updCore i f).stkMem = w.stkMem := rfl
@[simp] theorem Wafer.updCore_chamber (w : Wafer) (i : Nat) (f : Core → Core) : (w.updCore i f).chamber = w.chamber := rfl
@[simp] theorem Wafer.updCore_fwMem (w : Wafer) (i : Nat) (f : Core → Core) : (w.updCore i f).fwMem = w.fwMem := rfl
@[simp] theorem Wafer.updCore_coresLost (w : Wafer) (i : Nat) (f : Core → Core) : (w.updCore i f).coresLost = w.coresLost := rfl
@[simp] theorem Wafer.updCore_engines (w : Wafer) (i : Nat) (f : Core → Core) : (w.updCore i f).engines = w.engines := rfl
@[simp] theorem Wafer.updCore_gmes (w : Wafer) (i : Nat) (f : Core → Core) : (w.updCore i f).gmes = w.gmes := rfl
@[simp] theorem Wafer.updCore_tiers (w : Wafer) (i : Nat) (f : Core → Core) : (w.updCore i f).tiers = w.tiers := rfl
@[simp] theorem Wafer.updCore_canal (w : Wafer) (i : Nat) (f : Core → Core) : (w.updCore i f).canal = w.canal := rfl
@[simp] theorem Wafer.updCore_stackRecs (w : Wafer) (i : Nat) (f : Core → Core) : (w.updCore i f).stackRecs = w.stackRecs := rfl
@[simp] theorem Wafer.updCore_reservoir (w : Wafer) (i : Nat) (f : Core → Core) : (w.updCore i f).reservoir = w.reservoir := rfl
@[simp] theorem Wafer.updCore_ports (w : Wafer) (i : Nat) (f : Core → Core) : (w.updCore i f).ports = w.ports := rfl
@[simp] theorem Wafer.updCore_ingest (w : Wafer) (i : Nat) (f : Core → Core) : (w.updCore i f).ingest = w.ingest := rfl
@[simp] theorem Wafer.updCore_reduce (w : Wafer) (i : Nat) (f : Core → Core) : (w.updCore i f).reduce = w.reduce := rfl
@[simp] theorem Wafer.updCore_time (w : Wafer) (i : Nat) (f : Core → Core) : (w.updCore i f).time = w.time := rfl
@[simp] theorem Wafer.updCore_fences (w : Wafer) (i : Nat) (f : Core → Core) : (w.updCore i f).fences = w.fences := rfl
@[simp] theorem Wafer.updCore_fenceSerial (w : Wafer) (i : Nat) (f : Core → Core) : (w.updCore i f).fenceSerial = w.fenceSerial := rfl
@[simp] theorem Wafer.updCore_raised (w : Wafer) (i : Nat) (f : Core → Core) : (w.updCore i f).raised = w.raised := rfl
@[simp] theorem Wafer.updCore_cmd (w : Wafer) (i : Nat) (f : Core → Core) : (w.updCore i f).cmd = w.cmd := rfl
@[simp] theorem Wafer.updCore_job (w : Wafer) (i : Nat) (f : Core → Core) : (w.updCore i f).job = w.job := rfl
@[simp] theorem Wafer.updCore_shp (w : Wafer) (i : Nat) (f : Core → Core) : (w.updCore i f).shp = w.shp := rfl
@[simp] theorem Wafer.updCore_power (w : Wafer) (i : Nat) (f : Core → Core) : (w.updCore i f).power = w.power := rfl
@[simp] theorem Wafer.updCore_health (w : Wafer) (i : Nat) (f : Core → Core) : (w.updCore i f).health = w.health := rfl
@[simp] theorem Wafer.updCore_out (w : Wafer) (i : Nat) (f : Core → Core) : (w.updCore i f).out = w.out := rfl
@[simp] theorem Wafer.updCore_free (w : Wafer) (i : Nat) (f : Core → Core) : (w.updCore i f).free = w.free := rfl

/-! ### setEngine -/
@[simp] theorem Wafer.setEngine_regs (w : Wafer) (i : Nat) (c : Engine) : (w.setEngine i c).regs = w.regs := rfl
@[simp] theorem Wafer.setEngine_coreMem (w : Wafer) (i : Nat) (c : Engine) : (w.setEngine i c).coreMem = w.coreMem := rfl
@[simp] theorem Wafer.setEngine_cluMem (w : Wafer) (i : Nat) (c : Engine) : (w.setEngine i c).cluMem = w.cluMem := rfl
@[simp] theorem Wafer.setEngine_accMem (w : Wafer) (i : Nat) (c : Engine) : (w.setEngine i c).accMem = w.accMem := rfl
@[simp] theorem Wafer.setEngine_stkMem (w : Wafer) (i : Nat) (c : Engine) : (w.setEngine i c).stkMem = w.stkMem := rfl
@[simp] theorem Wafer.setEngine_chamber (w : Wafer) (i : Nat) (c : Engine) : (w.setEngine i c).chamber = w.chamber := rfl
@[simp] theorem Wafer.setEngine_fwMem (w : Wafer) (i : Nat) (c : Engine) : (w.setEngine i c).fwMem = w.fwMem := rfl
@[simp] theorem Wafer.setEngine_cores (w : Wafer) (i : Nat) (c : Engine) : (w.setEngine i c).cores = w.cores := rfl
@[simp] theorem Wafer.setEngine_coresLost (w : Wafer) (i : Nat) (c : Engine) : (w.setEngine i c).coresLost = w.coresLost := rfl
@[simp] theorem Wafer.setEngine_gmes (w : Wafer) (i : Nat) (c : Engine) : (w.setEngine i c).gmes = w.gmes := rfl
@[simp] theorem Wafer.setEngine_tiers (w : Wafer) (i : Nat) (c : Engine) : (w.setEngine i c).tiers = w.tiers := rfl
@[simp] theorem Wafer.setEngine_canal (w : Wafer) (i : Nat) (c : Engine) : (w.setEngine i c).canal = w.canal := rfl
@[simp] theorem Wafer.setEngine_stackRecs (w : Wafer) (i : Nat) (c : Engine) : (w.setEngine i c).stackRecs = w.stackRecs := rfl
@[simp] theorem Wafer.setEngine_reservoir (w : Wafer) (i : Nat) (c : Engine) : (w.setEngine i c).reservoir = w.reservoir := rfl
@[simp] theorem Wafer.setEngine_ports (w : Wafer) (i : Nat) (c : Engine) : (w.setEngine i c).ports = w.ports := rfl
@[simp] theorem Wafer.setEngine_ingest (w : Wafer) (i : Nat) (c : Engine) : (w.setEngine i c).ingest = w.ingest := rfl
@[simp] theorem Wafer.setEngine_reduce (w : Wafer) (i : Nat) (c : Engine) : (w.setEngine i c).reduce = w.reduce := rfl
@[simp] theorem Wafer.setEngine_time (w : Wafer) (i : Nat) (c : Engine) : (w.setEngine i c).time = w.time := rfl
@[simp] theorem Wafer.setEngine_fences (w : Wafer) (i : Nat) (c : Engine) : (w.setEngine i c).fences = w.fences := rfl
@[simp] theorem Wafer.setEngine_fenceSerial (w : Wafer) (i : Nat) (c : Engine) : (w.setEngine i c).fenceSerial = w.fenceSerial := rfl
@[simp] theorem Wafer.setEngine_raised (w : Wafer) (i : Nat) (c : Engine) : (w.setEngine i c).raised = w.raised := rfl
@[simp] theorem Wafer.setEngine_cmd (w : Wafer) (i : Nat) (c : Engine) : (w.setEngine i c).cmd = w.cmd := rfl
@[simp] theorem Wafer.setEngine_job (w : Wafer) (i : Nat) (c : Engine) : (w.setEngine i c).job = w.job := rfl
@[simp] theorem Wafer.setEngine_shp (w : Wafer) (i : Nat) (c : Engine) : (w.setEngine i c).shp = w.shp := rfl
@[simp] theorem Wafer.setEngine_power (w : Wafer) (i : Nat) (c : Engine) : (w.setEngine i c).power = w.power := rfl
@[simp] theorem Wafer.setEngine_health (w : Wafer) (i : Nat) (c : Engine) : (w.setEngine i c).health = w.health := rfl
@[simp] theorem Wafer.setEngine_out (w : Wafer) (i : Nat) (c : Engine) : (w.setEngine i c).out = w.out := rfl
@[simp] theorem Wafer.setEngine_free (w : Wafer) (i : Nat) (c : Engine) : (w.setEngine i c).free = w.free := rfl

/-! ### setGme -/
@[simp] theorem Wafer.setGme_regs (w : Wafer) (i : Nat) (c : Gme) : (w.setGme i c).regs = w.regs := rfl
@[simp] theorem Wafer.setGme_coreMem (w : Wafer) (i : Nat) (c : Gme) : (w.setGme i c).coreMem = w.coreMem := rfl
@[simp] theorem Wafer.setGme_cluMem (w : Wafer) (i : Nat) (c : Gme) : (w.setGme i c).cluMem = w.cluMem := rfl
@[simp] theorem Wafer.setGme_accMem (w : Wafer) (i : Nat) (c : Gme) : (w.setGme i c).accMem = w.accMem := rfl
@[simp] theorem Wafer.setGme_stkMem (w : Wafer) (i : Nat) (c : Gme) : (w.setGme i c).stkMem = w.stkMem := rfl
@[simp] theorem Wafer.setGme_chamber (w : Wafer) (i : Nat) (c : Gme) : (w.setGme i c).chamber = w.chamber := rfl
@[simp] theorem Wafer.setGme_fwMem (w : Wafer) (i : Nat) (c : Gme) : (w.setGme i c).fwMem = w.fwMem := rfl
@[simp] theorem Wafer.setGme_cores (w : Wafer) (i : Nat) (c : Gme) : (w.setGme i c).cores = w.cores := rfl
@[simp] theorem Wafer.setGme_coresLost (w : Wafer) (i : Nat) (c : Gme) : (w.setGme i c).coresLost = w.coresLost := rfl
@[simp] theorem Wafer.setGme_engines (w : Wafer) (i : Nat) (c : Gme) : (w.setGme i c).engines = w.engines := rfl
@[simp] theorem Wafer.setGme_tiers (w : Wafer) (i : Nat) (c : Gme) : (w.setGme i c).tiers = w.tiers := rfl
@[simp] theorem Wafer.setGme_canal (w : Wafer) (i : Nat) (c : Gme) : (w.setGme i c).canal = w.canal := rfl
@[simp] theorem Wafer.setGme_stackRecs (w : Wafer) (i : Nat) (c : Gme) : (w.setGme i c).stackRecs = w.stackRecs := rfl
@[simp] theorem Wafer.setGme_reservoir (w : Wafer) (i : Nat) (c : Gme) : (w.setGme i c).reservoir = w.reservoir := rfl
@[simp] theorem Wafer.setGme_ports (w : Wafer) (i : Nat) (c : Gme) : (w.setGme i c).ports = w.ports := rfl
@[simp] theorem Wafer.setGme_ingest (w : Wafer) (i : Nat) (c : Gme) : (w.setGme i c).ingest = w.ingest := rfl
@[simp] theorem Wafer.setGme_reduce (w : Wafer) (i : Nat) (c : Gme) : (w.setGme i c).reduce = w.reduce := rfl
@[simp] theorem Wafer.setGme_time (w : Wafer) (i : Nat) (c : Gme) : (w.setGme i c).time = w.time := rfl
@[simp] theorem Wafer.setGme_fences (w : Wafer) (i : Nat) (c : Gme) : (w.setGme i c).fences = w.fences := rfl
@[simp] theorem Wafer.setGme_fenceSerial (w : Wafer) (i : Nat) (c : Gme) : (w.setGme i c).fenceSerial = w.fenceSerial := rfl
@[simp] theorem Wafer.setGme_raised (w : Wafer) (i : Nat) (c : Gme) : (w.setGme i c).raised = w.raised := rfl
@[simp] theorem Wafer.setGme_cmd (w : Wafer) (i : Nat) (c : Gme) : (w.setGme i c).cmd = w.cmd := rfl
@[simp] theorem Wafer.setGme_job (w : Wafer) (i : Nat) (c : Gme) : (w.setGme i c).job = w.job := rfl
@[simp] theorem Wafer.setGme_shp (w : Wafer) (i : Nat) (c : Gme) : (w.setGme i c).shp = w.shp := rfl
@[simp] theorem Wafer.setGme_power (w : Wafer) (i : Nat) (c : Gme) : (w.setGme i c).power = w.power := rfl
@[simp] theorem Wafer.setGme_health (w : Wafer) (i : Nat) (c : Gme) : (w.setGme i c).health = w.health := rfl
@[simp] theorem Wafer.setGme_out (w : Wafer) (i : Nat) (c : Gme) : (w.setGme i c).out = w.out := rfl
@[simp] theorem Wafer.setGme_free (w : Wafer) (i : Nat) (c : Gme) : (w.setGme i c).free = w.free := rfl

/-! ### setTier -/
@[simp] theorem Wafer.setTier_regs (w : Wafer) (i : Nat) (c : Tier) : (w.setTier i c).regs = w.regs := rfl
@[simp] theorem Wafer.setTier_coreMem (w : Wafer) (i : Nat) (c : Tier) : (w.setTier i c).coreMem = w.coreMem := rfl
@[simp] theorem Wafer.setTier_cluMem (w : Wafer) (i : Nat) (c : Tier) : (w.setTier i c).cluMem = w.cluMem := rfl
@[simp] theorem Wafer.setTier_accMem (w : Wafer) (i : Nat) (c : Tier) : (w.setTier i c).accMem = w.accMem := rfl
@[simp] theorem Wafer.setTier_stkMem (w : Wafer) (i : Nat) (c : Tier) : (w.setTier i c).stkMem = w.stkMem := rfl
@[simp] theorem Wafer.setTier_chamber (w : Wafer) (i : Nat) (c : Tier) : (w.setTier i c).chamber = w.chamber := rfl
@[simp] theorem Wafer.setTier_fwMem (w : Wafer) (i : Nat) (c : Tier) : (w.setTier i c).fwMem = w.fwMem := rfl
@[simp] theorem Wafer.setTier_cores (w : Wafer) (i : Nat) (c : Tier) : (w.setTier i c).cores = w.cores := rfl
@[simp] theorem Wafer.setTier_coresLost (w : Wafer) (i : Nat) (c : Tier) : (w.setTier i c).coresLost = w.coresLost := rfl
@[simp] theorem Wafer.setTier_engines (w : Wafer) (i : Nat) (c : Tier) : (w.setTier i c).engines = w.engines := rfl
@[simp] theorem Wafer.setTier_gmes (w : Wafer) (i : Nat) (c : Tier) : (w.setTier i c).gmes = w.gmes := rfl
@[simp] theorem Wafer.setTier_canal (w : Wafer) (i : Nat) (c : Tier) : (w.setTier i c).canal = w.canal := rfl
@[simp] theorem Wafer.setTier_stackRecs (w : Wafer) (i : Nat) (c : Tier) : (w.setTier i c).stackRecs = w.stackRecs := rfl
@[simp] theorem Wafer.setTier_reservoir (w : Wafer) (i : Nat) (c : Tier) : (w.setTier i c).reservoir = w.reservoir := rfl
@[simp] theorem Wafer.setTier_ports (w : Wafer) (i : Nat) (c : Tier) : (w.setTier i c).ports = w.ports := rfl
@[simp] theorem Wafer.setTier_ingest (w : Wafer) (i : Nat) (c : Tier) : (w.setTier i c).ingest = w.ingest := rfl
@[simp] theorem Wafer.setTier_reduce (w : Wafer) (i : Nat) (c : Tier) : (w.setTier i c).reduce = w.reduce := rfl
@[simp] theorem Wafer.setTier_time (w : Wafer) (i : Nat) (c : Tier) : (w.setTier i c).time = w.time := rfl
@[simp] theorem Wafer.setTier_fences (w : Wafer) (i : Nat) (c : Tier) : (w.setTier i c).fences = w.fences := rfl
@[simp] theorem Wafer.setTier_fenceSerial (w : Wafer) (i : Nat) (c : Tier) : (w.setTier i c).fenceSerial = w.fenceSerial := rfl
@[simp] theorem Wafer.setTier_raised (w : Wafer) (i : Nat) (c : Tier) : (w.setTier i c).raised = w.raised := rfl
@[simp] theorem Wafer.setTier_cmd (w : Wafer) (i : Nat) (c : Tier) : (w.setTier i c).cmd = w.cmd := rfl
@[simp] theorem Wafer.setTier_job (w : Wafer) (i : Nat) (c : Tier) : (w.setTier i c).job = w.job := rfl
@[simp] theorem Wafer.setTier_shp (w : Wafer) (i : Nat) (c : Tier) : (w.setTier i c).shp = w.shp := rfl
@[simp] theorem Wafer.setTier_power (w : Wafer) (i : Nat) (c : Tier) : (w.setTier i c).power = w.power := rfl
@[simp] theorem Wafer.setTier_health (w : Wafer) (i : Nat) (c : Tier) : (w.setTier i c).health = w.health := rfl
@[simp] theorem Wafer.setTier_out (w : Wafer) (i : Nat) (c : Tier) : (w.setTier i c).out = w.out := rfl
@[simp] theorem Wafer.setTier_free (w : Wafer) (i : Nat) (c : Tier) : (w.setTier i c).free = w.free := rfl

/-! ### setStack -/
@[simp] theorem Wafer.setStack_regs (w : Wafer) (i : Nat) (c : StackSt) : (w.setStack i c).regs = w.regs := rfl
@[simp] theorem Wafer.setStack_coreMem (w : Wafer) (i : Nat) (c : StackSt) : (w.setStack i c).coreMem = w.coreMem := rfl
@[simp] theorem Wafer.setStack_cluMem (w : Wafer) (i : Nat) (c : StackSt) : (w.setStack i c).cluMem = w.cluMem := rfl
@[simp] theorem Wafer.setStack_accMem (w : Wafer) (i : Nat) (c : StackSt) : (w.setStack i c).accMem = w.accMem := rfl
@[simp] theorem Wafer.setStack_stkMem (w : Wafer) (i : Nat) (c : StackSt) : (w.setStack i c).stkMem = w.stkMem := rfl
@[simp] theorem Wafer.setStack_chamber (w : Wafer) (i : Nat) (c : StackSt) : (w.setStack i c).chamber = w.chamber := rfl
@[simp] theorem Wafer.setStack_fwMem (w : Wafer) (i : Nat) (c : StackSt) : (w.setStack i c).fwMem = w.fwMem := rfl
@[simp] theorem Wafer.setStack_cores (w : Wafer) (i : Nat) (c : StackSt) : (w.setStack i c).cores = w.cores := rfl
@[simp] theorem Wafer.setStack_coresLost (w : Wafer) (i : Nat) (c : StackSt) : (w.setStack i c).coresLost = w.coresLost := rfl
@[simp] theorem Wafer.setStack_engines (w : Wafer) (i : Nat) (c : StackSt) : (w.setStack i c).engines = w.engines := rfl
@[simp] theorem Wafer.setStack_gmes (w : Wafer) (i : Nat) (c : StackSt) : (w.setStack i c).gmes = w.gmes := rfl
@[simp] theorem Wafer.setStack_tiers (w : Wafer) (i : Nat) (c : StackSt) : (w.setStack i c).tiers = w.tiers := rfl
@[simp] theorem Wafer.setStack_canal (w : Wafer) (i : Nat) (c : StackSt) : (w.setStack i c).canal = w.canal := rfl
@[simp] theorem Wafer.setStack_reservoir (w : Wafer) (i : Nat) (c : StackSt) : (w.setStack i c).reservoir = w.reservoir := rfl
@[simp] theorem Wafer.setStack_ports (w : Wafer) (i : Nat) (c : StackSt) : (w.setStack i c).ports = w.ports := rfl
@[simp] theorem Wafer.setStack_ingest (w : Wafer) (i : Nat) (c : StackSt) : (w.setStack i c).ingest = w.ingest := rfl
@[simp] theorem Wafer.setStack_reduce (w : Wafer) (i : Nat) (c : StackSt) : (w.setStack i c).reduce = w.reduce := rfl
@[simp] theorem Wafer.setStack_time (w : Wafer) (i : Nat) (c : StackSt) : (w.setStack i c).time = w.time := rfl
@[simp] theorem Wafer.setStack_fences (w : Wafer) (i : Nat) (c : StackSt) : (w.setStack i c).fences = w.fences := rfl
@[simp] theorem Wafer.setStack_fenceSerial (w : Wafer) (i : Nat) (c : StackSt) : (w.setStack i c).fenceSerial = w.fenceSerial := rfl
@[simp] theorem Wafer.setStack_raised (w : Wafer) (i : Nat) (c : StackSt) : (w.setStack i c).raised = w.raised := rfl
@[simp] theorem Wafer.setStack_cmd (w : Wafer) (i : Nat) (c : StackSt) : (w.setStack i c).cmd = w.cmd := rfl
@[simp] theorem Wafer.setStack_job (w : Wafer) (i : Nat) (c : StackSt) : (w.setStack i c).job = w.job := rfl
@[simp] theorem Wafer.setStack_shp (w : Wafer) (i : Nat) (c : StackSt) : (w.setStack i c).shp = w.shp := rfl
@[simp] theorem Wafer.setStack_power (w : Wafer) (i : Nat) (c : StackSt) : (w.setStack i c).power = w.power := rfl
@[simp] theorem Wafer.setStack_health (w : Wafer) (i : Nat) (c : StackSt) : (w.setStack i c).health = w.health := rfl
@[simp] theorem Wafer.setStack_out (w : Wafer) (i : Nat) (c : StackSt) : (w.setStack i c).out = w.out := rfl
@[simp] theorem Wafer.setStack_free (w : Wafer) (i : Nat) (c : StackSt) : (w.setStack i c).free = w.free := rfl

/-! ### setPort -/
@[simp] theorem Wafer.setPort_regs (w : Wafer) (i : Nat) (c : Port) : (w.setPort i c).regs = w.regs := rfl
@[simp] theorem Wafer.setPort_coreMem (w : Wafer) (i : Nat) (c : Port) : (w.setPort i c).coreMem = w.coreMem := rfl
@[simp] theorem Wafer.setPort_cluMem (w : Wafer) (i : Nat) (c : Port) : (w.setPort i c).cluMem = w.cluMem := rfl
@[simp] theorem Wafer.setPort_accMem (w : Wafer) (i : Nat) (c : Port) : (w.setPort i c).accMem = w.accMem := rfl
@[simp] theorem Wafer.setPort_stkMem (w : Wafer) (i : Nat) (c : Port) : (w.setPort i c).stkMem = w.stkMem := rfl
@[simp] theorem Wafer.setPort_chamber (w : Wafer) (i : Nat) (c : Port) : (w.setPort i c).chamber = w.chamber := rfl
@[simp] theorem Wafer.setPort_fwMem (w : Wafer) (i : Nat) (c : Port) : (w.setPort i c).fwMem = w.fwMem := rfl
@[simp] theorem Wafer.setPort_cores (w : Wafer) (i : Nat) (c : Port) : (w.setPort i c).cores = w.cores := rfl
@[simp] theorem Wafer.setPort_coresLost (w : Wafer) (i : Nat) (c : Port) : (w.setPort i c).coresLost = w.coresLost := rfl
@[simp] theorem Wafer.setPort_engines (w : Wafer) (i : Nat) (c : Port) : (w.setPort i c).engines = w.engines := rfl
@[simp] theorem Wafer.setPort_gmes (w : Wafer) (i : Nat) (c : Port) : (w.setPort i c).gmes = w.gmes := rfl
@[simp] theorem Wafer.setPort_tiers (w : Wafer) (i : Nat) (c : Port) : (w.setPort i c).tiers = w.tiers := rfl
@[simp] theorem Wafer.setPort_canal (w : Wafer) (i : Nat) (c : Port) : (w.setPort i c).canal = w.canal := rfl
@[simp] theorem Wafer.setPort_stackRecs (w : Wafer) (i : Nat) (c : Port) : (w.setPort i c).stackRecs = w.stackRecs := rfl
@[simp] theorem Wafer.setPort_reservoir (w : Wafer) (i : Nat) (c : Port) : (w.setPort i c).reservoir = w.reservoir := rfl
@[simp] theorem Wafer.setPort_ingest (w : Wafer) (i : Nat) (c : Port) : (w.setPort i c).ingest = w.ingest := rfl
@[simp] theorem Wafer.setPort_reduce (w : Wafer) (i : Nat) (c : Port) : (w.setPort i c).reduce = w.reduce := rfl
@[simp] theorem Wafer.setPort_time (w : Wafer) (i : Nat) (c : Port) : (w.setPort i c).time = w.time := rfl
@[simp] theorem Wafer.setPort_fences (w : Wafer) (i : Nat) (c : Port) : (w.setPort i c).fences = w.fences := rfl
@[simp] theorem Wafer.setPort_fenceSerial (w : Wafer) (i : Nat) (c : Port) : (w.setPort i c).fenceSerial = w.fenceSerial := rfl
@[simp] theorem Wafer.setPort_raised (w : Wafer) (i : Nat) (c : Port) : (w.setPort i c).raised = w.raised := rfl
@[simp] theorem Wafer.setPort_cmd (w : Wafer) (i : Nat) (c : Port) : (w.setPort i c).cmd = w.cmd := rfl
@[simp] theorem Wafer.setPort_job (w : Wafer) (i : Nat) (c : Port) : (w.setPort i c).job = w.job := rfl
@[simp] theorem Wafer.setPort_shp (w : Wafer) (i : Nat) (c : Port) : (w.setPort i c).shp = w.shp := rfl
@[simp] theorem Wafer.setPort_power (w : Wafer) (i : Nat) (c : Port) : (w.setPort i c).power = w.power := rfl
@[simp] theorem Wafer.setPort_health (w : Wafer) (i : Nat) (c : Port) : (w.setPort i c).health = w.health := rfl
@[simp] theorem Wafer.setPort_out (w : Wafer) (i : Nat) (c : Port) : (w.setPort i c).out = w.out := rfl
@[simp] theorem Wafer.setPort_free (w : Wafer) (i : Nat) (c : Port) : (w.setPort i c).free = w.free := rfl

/-! ### updPort -/
@[simp] theorem Wafer.updPort_regs (w : Wafer) (i : Nat) (f : Port → Port) : (w.updPort i f).regs = w.regs := rfl
@[simp] theorem Wafer.updPort_coreMem (w : Wafer) (i : Nat) (f : Port → Port) : (w.updPort i f).coreMem = w.coreMem := rfl
@[simp] theorem Wafer.updPort_cluMem (w : Wafer) (i : Nat) (f : Port → Port) : (w.updPort i f).cluMem = w.cluMem := rfl
@[simp] theorem Wafer.updPort_accMem (w : Wafer) (i : Nat) (f : Port → Port) : (w.updPort i f).accMem = w.accMem := rfl
@[simp] theorem Wafer.updPort_stkMem (w : Wafer) (i : Nat) (f : Port → Port) : (w.updPort i f).stkMem = w.stkMem := rfl
@[simp] theorem Wafer.updPort_chamber (w : Wafer) (i : Nat) (f : Port → Port) : (w.updPort i f).chamber = w.chamber := rfl
@[simp] theorem Wafer.updPort_fwMem (w : Wafer) (i : Nat) (f : Port → Port) : (w.updPort i f).fwMem = w.fwMem := rfl
@[simp] theorem Wafer.updPort_cores (w : Wafer) (i : Nat) (f : Port → Port) : (w.updPort i f).cores = w.cores := rfl
@[simp] theorem Wafer.updPort_coresLost (w : Wafer) (i : Nat) (f : Port → Port) : (w.updPort i f).coresLost = w.coresLost := rfl
@[simp] theorem Wafer.updPort_engines (w : Wafer) (i : Nat) (f : Port → Port) : (w.updPort i f).engines = w.engines := rfl
@[simp] theorem Wafer.updPort_gmes (w : Wafer) (i : Nat) (f : Port → Port) : (w.updPort i f).gmes = w.gmes := rfl
@[simp] theorem Wafer.updPort_tiers (w : Wafer) (i : Nat) (f : Port → Port) : (w.updPort i f).tiers = w.tiers := rfl
@[simp] theorem Wafer.updPort_canal (w : Wafer) (i : Nat) (f : Port → Port) : (w.updPort i f).canal = w.canal := rfl
@[simp] theorem Wafer.updPort_stackRecs (w : Wafer) (i : Nat) (f : Port → Port) : (w.updPort i f).stackRecs = w.stackRecs := rfl
@[simp] theorem Wafer.updPort_reservoir (w : Wafer) (i : Nat) (f : Port → Port) : (w.updPort i f).reservoir = w.reservoir := rfl
@[simp] theorem Wafer.updPort_ingest (w : Wafer) (i : Nat) (f : Port → Port) : (w.updPort i f).ingest = w.ingest := rfl
@[simp] theorem Wafer.updPort_reduce (w : Wafer) (i : Nat) (f : Port → Port) : (w.updPort i f).reduce = w.reduce := rfl
@[simp] theorem Wafer.updPort_time (w : Wafer) (i : Nat) (f : Port → Port) : (w.updPort i f).time = w.time := rfl
@[simp] theorem Wafer.updPort_fences (w : Wafer) (i : Nat) (f : Port → Port) : (w.updPort i f).fences = w.fences := rfl
@[simp] theorem Wafer.updPort_fenceSerial (w : Wafer) (i : Nat) (f : Port → Port) : (w.updPort i f).fenceSerial = w.fenceSerial := rfl
@[simp] theorem Wafer.updPort_raised (w : Wafer) (i : Nat) (f : Port → Port) : (w.updPort i f).raised = w.raised := rfl
@[simp] theorem Wafer.updPort_cmd (w : Wafer) (i : Nat) (f : Port → Port) : (w.updPort i f).cmd = w.cmd := rfl
@[simp] theorem Wafer.updPort_job (w : Wafer) (i : Nat) (f : Port → Port) : (w.updPort i f).job = w.job := rfl
@[simp] theorem Wafer.updPort_shp (w : Wafer) (i : Nat) (f : Port → Port) : (w.updPort i f).shp = w.shp := rfl
@[simp] theorem Wafer.updPort_power (w : Wafer) (i : Nat) (f : Port → Port) : (w.updPort i f).power = w.power := rfl
@[simp] theorem Wafer.updPort_health (w : Wafer) (i : Nat) (f : Port → Port) : (w.updPort i f).health = w.health := rfl
@[simp] theorem Wafer.updPort_out (w : Wafer) (i : Nat) (f : Port → Port) : (w.updPort i f).out = w.out := rfl
@[simp] theorem Wafer.updPort_free (w : Wafer) (i : Nat) (f : Port → Port) : (w.updPort i f).free = w.free := rfl

/-! ### setFieldPower -/
@[simp] theorem Wafer.setFieldPower_regs (w : Wafer) (i : Nat) (c : FieldPower) : (w.setFieldPower i c).regs = w.regs := rfl
@[simp] theorem Wafer.setFieldPower_coreMem (w : Wafer) (i : Nat) (c : FieldPower) : (w.setFieldPower i c).coreMem = w.coreMem := rfl
@[simp] theorem Wafer.setFieldPower_cluMem (w : Wafer) (i : Nat) (c : FieldPower) : (w.setFieldPower i c).cluMem = w.cluMem := rfl
@[simp] theorem Wafer.setFieldPower_accMem (w : Wafer) (i : Nat) (c : FieldPower) : (w.setFieldPower i c).accMem = w.accMem := rfl
@[simp] theorem Wafer.setFieldPower_stkMem (w : Wafer) (i : Nat) (c : FieldPower) : (w.setFieldPower i c).stkMem = w.stkMem := rfl
@[simp] theorem Wafer.setFieldPower_chamber (w : Wafer) (i : Nat) (c : FieldPower) : (w.setFieldPower i c).chamber = w.chamber := rfl
@[simp] theorem Wafer.setFieldPower_fwMem (w : Wafer) (i : Nat) (c : FieldPower) : (w.setFieldPower i c).fwMem = w.fwMem := rfl
@[simp] theorem Wafer.setFieldPower_cores (w : Wafer) (i : Nat) (c : FieldPower) : (w.setFieldPower i c).cores = w.cores := rfl
@[simp] theorem Wafer.setFieldPower_coresLost (w : Wafer) (i : Nat) (c : FieldPower) : (w.setFieldPower i c).coresLost = w.coresLost := rfl
@[simp] theorem Wafer.setFieldPower_engines (w : Wafer) (i : Nat) (c : FieldPower) : (w.setFieldPower i c).engines = w.engines := rfl
@[simp] theorem Wafer.setFieldPower_gmes (w : Wafer) (i : Nat) (c : FieldPower) : (w.setFieldPower i c).gmes = w.gmes := rfl
@[simp] theorem Wafer.setFieldPower_tiers (w : Wafer) (i : Nat) (c : FieldPower) : (w.setFieldPower i c).tiers = w.tiers := rfl
@[simp] theorem Wafer.setFieldPower_canal (w : Wafer) (i : Nat) (c : FieldPower) : (w.setFieldPower i c).canal = w.canal := rfl
@[simp] theorem Wafer.setFieldPower_stackRecs (w : Wafer) (i : Nat) (c : FieldPower) : (w.setFieldPower i c).stackRecs = w.stackRecs := rfl
@[simp] theorem Wafer.setFieldPower_reservoir (w : Wafer) (i : Nat) (c : FieldPower) : (w.setFieldPower i c).reservoir = w.reservoir := rfl
@[simp] theorem Wafer.setFieldPower_ports (w : Wafer) (i : Nat) (c : FieldPower) : (w.setFieldPower i c).ports = w.ports := rfl
@[simp] theorem Wafer.setFieldPower_ingest (w : Wafer) (i : Nat) (c : FieldPower) : (w.setFieldPower i c).ingest = w.ingest := rfl
@[simp] theorem Wafer.setFieldPower_reduce (w : Wafer) (i : Nat) (c : FieldPower) : (w.setFieldPower i c).reduce = w.reduce := rfl
@[simp] theorem Wafer.setFieldPower_time (w : Wafer) (i : Nat) (c : FieldPower) : (w.setFieldPower i c).time = w.time := rfl
@[simp] theorem Wafer.setFieldPower_fences (w : Wafer) (i : Nat) (c : FieldPower) : (w.setFieldPower i c).fences = w.fences := rfl
@[simp] theorem Wafer.setFieldPower_fenceSerial (w : Wafer) (i : Nat) (c : FieldPower) : (w.setFieldPower i c).fenceSerial = w.fenceSerial := rfl
@[simp] theorem Wafer.setFieldPower_raised (w : Wafer) (i : Nat) (c : FieldPower) : (w.setFieldPower i c).raised = w.raised := rfl
@[simp] theorem Wafer.setFieldPower_cmd (w : Wafer) (i : Nat) (c : FieldPower) : (w.setFieldPower i c).cmd = w.cmd := rfl
@[simp] theorem Wafer.setFieldPower_job (w : Wafer) (i : Nat) (c : FieldPower) : (w.setFieldPower i c).job = w.job := rfl
@[simp] theorem Wafer.setFieldPower_shp (w : Wafer) (i : Nat) (c : FieldPower) : (w.setFieldPower i c).shp = w.shp := rfl
@[simp] theorem Wafer.setFieldPower_health (w : Wafer) (i : Nat) (c : FieldPower) : (w.setFieldPower i c).health = w.health := rfl
@[simp] theorem Wafer.setFieldPower_out (w : Wafer) (i : Nat) (c : FieldPower) : (w.setFieldPower i c).out = w.out := rfl
@[simp] theorem Wafer.setFieldPower_free (w : Wafer) (i : Nat) (c : FieldPower) : (w.setFieldPower i c).free = w.free := rfl

/-! ### setFieldTime -/
@[simp] theorem Wafer.setFieldTime_regs (w : Wafer) (i : Nat) (c : FieldTime) : (w.setFieldTime i c).regs = w.regs := rfl
@[simp] theorem Wafer.setFieldTime_coreMem (w : Wafer) (i : Nat) (c : FieldTime) : (w.setFieldTime i c).coreMem = w.coreMem := rfl
@[simp] theorem Wafer.setFieldTime_cluMem (w : Wafer) (i : Nat) (c : FieldTime) : (w.setFieldTime i c).cluMem = w.cluMem := rfl
@[simp] theorem Wafer.setFieldTime_accMem (w : Wafer) (i : Nat) (c : FieldTime) : (w.setFieldTime i c).accMem = w.accMem := rfl
@[simp] theorem Wafer.setFieldTime_stkMem (w : Wafer) (i : Nat) (c : FieldTime) : (w.setFieldTime i c).stkMem = w.stkMem := rfl
@[simp] theorem Wafer.setFieldTime_chamber (w : Wafer) (i : Nat) (c : FieldTime) : (w.setFieldTime i c).chamber = w.chamber := rfl
@[simp] theorem Wafer.setFieldTime_fwMem (w : Wafer) (i : Nat) (c : FieldTime) : (w.setFieldTime i c).fwMem = w.fwMem := rfl
@[simp] theorem Wafer.setFieldTime_cores (w : Wafer) (i : Nat) (c : FieldTime) : (w.setFieldTime i c).cores = w.cores := rfl
@[simp] theorem Wafer.setFieldTime_coresLost (w : Wafer) (i : Nat) (c : FieldTime) : (w.setFieldTime i c).coresLost = w.coresLost := rfl
@[simp] theorem Wafer.setFieldTime_engines (w : Wafer) (i : Nat) (c : FieldTime) : (w.setFieldTime i c).engines = w.engines := rfl
@[simp] theorem Wafer.setFieldTime_gmes (w : Wafer) (i : Nat) (c : FieldTime) : (w.setFieldTime i c).gmes = w.gmes := rfl
@[simp] theorem Wafer.setFieldTime_tiers (w : Wafer) (i : Nat) (c : FieldTime) : (w.setFieldTime i c).tiers = w.tiers := rfl
@[simp] theorem Wafer.setFieldTime_canal (w : Wafer) (i : Nat) (c : FieldTime) : (w.setFieldTime i c).canal = w.canal := rfl
@[simp] theorem Wafer.setFieldTime_stackRecs (w : Wafer) (i : Nat) (c : FieldTime) : (w.setFieldTime i c).stackRecs = w.stackRecs := rfl
@[simp] theorem Wafer.setFieldTime_reservoir (w : Wafer) (i : Nat) (c : FieldTime) : (w.setFieldTime i c).reservoir = w.reservoir := rfl
@[simp] theorem Wafer.setFieldTime_ports (w : Wafer) (i : Nat) (c : FieldTime) : (w.setFieldTime i c).ports = w.ports := rfl
@[simp] theorem Wafer.setFieldTime_ingest (w : Wafer) (i : Nat) (c : FieldTime) : (w.setFieldTime i c).ingest = w.ingest := rfl
@[simp] theorem Wafer.setFieldTime_reduce (w : Wafer) (i : Nat) (c : FieldTime) : (w.setFieldTime i c).reduce = w.reduce := rfl
@[simp] theorem Wafer.setFieldTime_fences (w : Wafer) (i : Nat) (c : FieldTime) : (w.setFieldTime i c).fences = w.fences := rfl
@[simp] theorem Wafer.setFieldTime_fenceSerial (w : Wafer) (i : Nat) (c : FieldTime) : (w.setFieldTime i c).fenceSerial = w.fenceSerial := rfl
@[simp] theorem Wafer.setFieldTime_raised (w : Wafer) (i : Nat) (c : FieldTime) : (w.setFieldTime i c).raised = w.raised := rfl
@[simp] theorem Wafer.setFieldTime_cmd (w : Wafer) (i : Nat) (c : FieldTime) : (w.setFieldTime i c).cmd = w.cmd := rfl
@[simp] theorem Wafer.setFieldTime_job (w : Wafer) (i : Nat) (c : FieldTime) : (w.setFieldTime i c).job = w.job := rfl
@[simp] theorem Wafer.setFieldTime_shp (w : Wafer) (i : Nat) (c : FieldTime) : (w.setFieldTime i c).shp = w.shp := rfl
@[simp] theorem Wafer.setFieldTime_power (w : Wafer) (i : Nat) (c : FieldTime) : (w.setFieldTime i c).power = w.power := rfl
@[simp] theorem Wafer.setFieldTime_health (w : Wafer) (i : Nat) (c : FieldTime) : (w.setFieldTime i c).health = w.health := rfl
@[simp] theorem Wafer.setFieldTime_out (w : Wafer) (i : Nat) (c : FieldTime) : (w.setFieldTime i c).out = w.out := rfl
@[simp] theorem Wafer.setFieldTime_free (w : Wafer) (i : Nat) (c : FieldTime) : (w.setFieldTime i c).free = w.free := rfl

/-! ### setPortTime -/
@[simp] theorem Wafer.setPortTime_regs (w : Wafer) (i : Nat) (c : PortTime) : (w.setPortTime i c).regs = w.regs := rfl
@[simp] theorem Wafer.setPortTime_coreMem (w : Wafer) (i : Nat) (c : PortTime) : (w.setPortTime i c).coreMem = w.coreMem := rfl
@[simp] theorem Wafer.setPortTime_cluMem (w : Wafer) (i : Nat) (c : PortTime) : (w.setPortTime i c).cluMem = w.cluMem := rfl
@[simp] theorem Wafer.setPortTime_accMem (w : Wafer) (i : Nat) (c : PortTime) : (w.setPortTime i c).accMem = w.accMem := rfl
@[simp] theorem Wafer.setPortTime_stkMem (w : Wafer) (i : Nat) (c : PortTime) : (w.setPortTime i c).stkMem = w.stkMem := rfl
@[simp] theorem Wafer.setPortTime_chamber (w : Wafer) (i : Nat) (c : PortTime) : (w.setPortTime i c).chamber = w.chamber := rfl
@[simp] theorem Wafer.setPortTime_fwMem (w : Wafer) (i : Nat) (c : PortTime) : (w.setPortTime i c).fwMem = w.fwMem := rfl
@[simp] theorem Wafer.setPortTime_cores (w : Wafer) (i : Nat) (c : PortTime) : (w.setPortTime i c).cores = w.cores := rfl
@[simp] theorem Wafer.setPortTime_coresLost (w : Wafer) (i : Nat) (c : PortTime) : (w.setPortTime i c).coresLost = w.coresLost := rfl
@[simp] theorem Wafer.setPortTime_engines (w : Wafer) (i : Nat) (c : PortTime) : (w.setPortTime i c).engines = w.engines := rfl
@[simp] theorem Wafer.setPortTime_gmes (w : Wafer) (i : Nat) (c : PortTime) : (w.setPortTime i c).gmes = w.gmes := rfl
@[simp] theorem Wafer.setPortTime_tiers (w : Wafer) (i : Nat) (c : PortTime) : (w.setPortTime i c).tiers = w.tiers := rfl
@[simp] theorem Wafer.setPortTime_canal (w : Wafer) (i : Nat) (c : PortTime) : (w.setPortTime i c).canal = w.canal := rfl
@[simp] theorem Wafer.setPortTime_stackRecs (w : Wafer) (i : Nat) (c : PortTime) : (w.setPortTime i c).stackRecs = w.stackRecs := rfl
@[simp] theorem Wafer.setPortTime_reservoir (w : Wafer) (i : Nat) (c : PortTime) : (w.setPortTime i c).reservoir = w.reservoir := rfl
@[simp] theorem Wafer.setPortTime_ports (w : Wafer) (i : Nat) (c : PortTime) : (w.setPortTime i c).ports = w.ports := rfl
@[simp] theorem Wafer.setPortTime_ingest (w : Wafer) (i : Nat) (c : PortTime) : (w.setPortTime i c).ingest = w.ingest := rfl
@[simp] theorem Wafer.setPortTime_reduce (w : Wafer) (i : Nat) (c : PortTime) : (w.setPortTime i c).reduce = w.reduce := rfl
@[simp] theorem Wafer.setPortTime_fences (w : Wafer) (i : Nat) (c : PortTime) : (w.setPortTime i c).fences = w.fences := rfl
@[simp] theorem Wafer.setPortTime_fenceSerial (w : Wafer) (i : Nat) (c : PortTime) : (w.setPortTime i c).fenceSerial = w.fenceSerial := rfl
@[simp] theorem Wafer.setPortTime_raised (w : Wafer) (i : Nat) (c : PortTime) : (w.setPortTime i c).raised = w.raised := rfl
@[simp] theorem Wafer.setPortTime_cmd (w : Wafer) (i : Nat) (c : PortTime) : (w.setPortTime i c).cmd = w.cmd := rfl
@[simp] theorem Wafer.setPortTime_job (w : Wafer) (i : Nat) (c : PortTime) : (w.setPortTime i c).job = w.job := rfl
@[simp] theorem Wafer.setPortTime_shp (w : Wafer) (i : Nat) (c : PortTime) : (w.setPortTime i c).shp = w.shp := rfl
@[simp] theorem Wafer.setPortTime_power (w : Wafer) (i : Nat) (c : PortTime) : (w.setPortTime i c).power = w.power := rfl
@[simp] theorem Wafer.setPortTime_health (w : Wafer) (i : Nat) (c : PortTime) : (w.setPortTime i c).health = w.health := rfl
@[simp] theorem Wafer.setPortTime_out (w : Wafer) (i : Nat) (c : PortTime) : (w.setPortTime i c).out = w.out := rfl
@[simp] theorem Wafer.setPortTime_free (w : Wafer) (i : Nat) (c : PortTime) : (w.setPortTime i c).free = w.free := rfl

/-! ### setCmdPort -/
@[simp] theorem Wafer.setCmdPort_regs (w : Wafer) (i : Nat) (c : CmdPort) : (w.setCmdPort i c).regs = w.regs := rfl
@[simp] theorem Wafer.setCmdPort_coreMem (w : Wafer) (i : Nat) (c : CmdPort) : (w.setCmdPort i c).coreMem = w.coreMem := rfl
@[simp] theorem Wafer.setCmdPort_cluMem (w : Wafer) (i : Nat) (c : CmdPort) : (w.setCmdPort i c).cluMem = w.cluMem := rfl
@[simp] theorem Wafer.setCmdPort_accMem (w : Wafer) (i : Nat) (c : CmdPort) : (w.setCmdPort i c).accMem = w.accMem := rfl
@[simp] theorem Wafer.setCmdPort_stkMem (w : Wafer) (i : Nat) (c : CmdPort) : (w.setCmdPort i c).stkMem = w.stkMem := rfl
@[simp] theorem Wafer.setCmdPort_chamber (w : Wafer) (i : Nat) (c : CmdPort) : (w.setCmdPort i c).chamber = w.chamber := rfl
@[simp] theorem Wafer.setCmdPort_fwMem (w : Wafer) (i : Nat) (c : CmdPort) : (w.setCmdPort i c).fwMem = w.fwMem := rfl
@[simp] theorem Wafer.setCmdPort_cores (w : Wafer) (i : Nat) (c : CmdPort) : (w.setCmdPort i c).cores = w.cores := rfl
@[simp] theorem Wafer.setCmdPort_coresLost (w : Wafer) (i : Nat) (c : CmdPort) : (w.setCmdPort i c).coresLost = w.coresLost := rfl
@[simp] theorem Wafer.setCmdPort_engines (w : Wafer) (i : Nat) (c : CmdPort) : (w.setCmdPort i c).engines = w.engines := rfl
@[simp] theorem Wafer.setCmdPort_gmes (w : Wafer) (i : Nat) (c : CmdPort) : (w.setCmdPort i c).gmes = w.gmes := rfl
@[simp] theorem Wafer.setCmdPort_tiers (w : Wafer) (i : Nat) (c : CmdPort) : (w.setCmdPort i c).tiers = w.tiers := rfl
@[simp] theorem Wafer.setCmdPort_canal (w : Wafer) (i : Nat) (c : CmdPort) : (w.setCmdPort i c).canal = w.canal := rfl
@[simp] theorem Wafer.setCmdPort_stackRecs (w : Wafer) (i : Nat) (c : CmdPort) : (w.setCmdPort i c).stackRecs = w.stackRecs := rfl
@[simp] theorem Wafer.setCmdPort_reservoir (w : Wafer) (i : Nat) (c : CmdPort) : (w.setCmdPort i c).reservoir = w.reservoir := rfl
@[simp] theorem Wafer.setCmdPort_ports (w : Wafer) (i : Nat) (c : CmdPort) : (w.setCmdPort i c).ports = w.ports := rfl
@[simp] theorem Wafer.setCmdPort_ingest (w : Wafer) (i : Nat) (c : CmdPort) : (w.setCmdPort i c).ingest = w.ingest := rfl
@[simp] theorem Wafer.setCmdPort_reduce (w : Wafer) (i : Nat) (c : CmdPort) : (w.setCmdPort i c).reduce = w.reduce := rfl
@[simp] theorem Wafer.setCmdPort_time (w : Wafer) (i : Nat) (c : CmdPort) : (w.setCmdPort i c).time = w.time := rfl
@[simp] theorem Wafer.setCmdPort_fences (w : Wafer) (i : Nat) (c : CmdPort) : (w.setCmdPort i c).fences = w.fences := rfl
@[simp] theorem Wafer.setCmdPort_fenceSerial (w : Wafer) (i : Nat) (c : CmdPort) : (w.setCmdPort i c).fenceSerial = w.fenceSerial := rfl
@[simp] theorem Wafer.setCmdPort_raised (w : Wafer) (i : Nat) (c : CmdPort) : (w.setCmdPort i c).raised = w.raised := rfl
@[simp] theorem Wafer.setCmdPort_job (w : Wafer) (i : Nat) (c : CmdPort) : (w.setCmdPort i c).job = w.job := rfl
@[simp] theorem Wafer.setCmdPort_shp (w : Wafer) (i : Nat) (c : CmdPort) : (w.setCmdPort i c).shp = w.shp := rfl
@[simp] theorem Wafer.setCmdPort_power (w : Wafer) (i : Nat) (c : CmdPort) : (w.setCmdPort i c).power = w.power := rfl
@[simp] theorem Wafer.setCmdPort_health (w : Wafer) (i : Nat) (c : CmdPort) : (w.setCmdPort i c).health = w.health := rfl
@[simp] theorem Wafer.setCmdPort_out (w : Wafer) (i : Nat) (c : CmdPort) : (w.setCmdPort i c).out = w.out := rfl
@[simp] theorem Wafer.setCmdPort_free (w : Wafer) (i : Nat) (c : CmdPort) : (w.setCmdPort i c).free = w.free := rfl

/-! ### setJob -/
@[simp] theorem Wafer.setJob_regs (w : Wafer) (j : JobSt) : (w.setJob j).regs = w.regs := rfl
@[simp] theorem Wafer.setJob_coreMem (w : Wafer) (j : JobSt) : (w.setJob j).coreMem = w.coreMem := rfl
@[simp] theorem Wafer.setJob_cluMem (w : Wafer) (j : JobSt) : (w.setJob j).cluMem = w.cluMem := rfl
@[simp] theorem Wafer.setJob_accMem (w : Wafer) (j : JobSt) : (w.setJob j).accMem = w.accMem := rfl
@[simp] theorem Wafer.setJob_stkMem (w : Wafer) (j : JobSt) : (w.setJob j).stkMem = w.stkMem := rfl
@[simp] theorem Wafer.setJob_chamber (w : Wafer) (j : JobSt) : (w.setJob j).chamber = w.chamber := rfl
@[simp] theorem Wafer.setJob_fwMem (w : Wafer) (j : JobSt) : (w.setJob j).fwMem = w.fwMem := rfl
@[simp] theorem Wafer.setJob_cores (w : Wafer) (j : JobSt) : (w.setJob j).cores = w.cores := rfl
@[simp] theorem Wafer.setJob_coresLost (w : Wafer) (j : JobSt) : (w.setJob j).coresLost = w.coresLost := rfl
@[simp] theorem Wafer.setJob_engines (w : Wafer) (j : JobSt) : (w.setJob j).engines = w.engines := rfl
@[simp] theorem Wafer.setJob_gmes (w : Wafer) (j : JobSt) : (w.setJob j).gmes = w.gmes := rfl
@[simp] theorem Wafer.setJob_tiers (w : Wafer) (j : JobSt) : (w.setJob j).tiers = w.tiers := rfl
@[simp] theorem Wafer.setJob_canal (w : Wafer) (j : JobSt) : (w.setJob j).canal = w.canal := rfl
@[simp] theorem Wafer.setJob_stackRecs (w : Wafer) (j : JobSt) : (w.setJob j).stackRecs = w.stackRecs := rfl
@[simp] theorem Wafer.setJob_reservoir (w : Wafer) (j : JobSt) : (w.setJob j).reservoir = w.reservoir := rfl
@[simp] theorem Wafer.setJob_ports (w : Wafer) (j : JobSt) : (w.setJob j).ports = w.ports := rfl
@[simp] theorem Wafer.setJob_ingest (w : Wafer) (j : JobSt) : (w.setJob j).ingest = w.ingest := rfl
@[simp] theorem Wafer.setJob_reduce (w : Wafer) (j : JobSt) : (w.setJob j).reduce = w.reduce := rfl
@[simp] theorem Wafer.setJob_time (w : Wafer) (j : JobSt) : (w.setJob j).time = w.time := rfl
@[simp] theorem Wafer.setJob_fences (w : Wafer) (j : JobSt) : (w.setJob j).fences = w.fences := rfl
@[simp] theorem Wafer.setJob_fenceSerial (w : Wafer) (j : JobSt) : (w.setJob j).fenceSerial = w.fenceSerial := rfl
@[simp] theorem Wafer.setJob_raised (w : Wafer) (j : JobSt) : (w.setJob j).raised = w.raised := rfl
@[simp] theorem Wafer.setJob_cmd (w : Wafer) (j : JobSt) : (w.setJob j).cmd = w.cmd := rfl
@[simp] theorem Wafer.setJob_shp (w : Wafer) (j : JobSt) : (w.setJob j).shp = w.shp := rfl
@[simp] theorem Wafer.setJob_power (w : Wafer) (j : JobSt) : (w.setJob j).power = w.power := rfl
@[simp] theorem Wafer.setJob_health (w : Wafer) (j : JobSt) : (w.setJob j).health = w.health := rfl
@[simp] theorem Wafer.setJob_out (w : Wafer) (j : JobSt) : (w.setJob j).out = w.out := rfl
@[simp] theorem Wafer.setJob_free (w : Wafer) (j : JobSt) : (w.setJob j).free = w.free := rfl

/-! ### setPhase -/
@[simp] theorem Wafer.setPhase_coreMem (w : Wafer) (p : JobPhase) : (w.setPhase p).coreMem = w.coreMem := rfl
@[simp] theorem Wafer.setPhase_cluMem (w : Wafer) (p : JobPhase) : (w.setPhase p).cluMem = w.cluMem := rfl
@[simp] theorem Wafer.setPhase_accMem (w : Wafer) (p : JobPhase) : (w.setPhase p).accMem = w.accMem := rfl
@[simp] theorem Wafer.setPhase_stkMem (w : Wafer) (p : JobPhase) : (w.setPhase p).stkMem = w.stkMem := rfl
@[simp] theorem Wafer.setPhase_chamber (w : Wafer) (p : JobPhase) : (w.setPhase p).chamber = w.chamber := rfl
@[simp] theorem Wafer.setPhase_fwMem (w : Wafer) (p : JobPhase) : (w.setPhase p).fwMem = w.fwMem := rfl
@[simp] theorem Wafer.setPhase_cores (w : Wafer) (p : JobPhase) : (w.setPhase p).cores = w.cores := rfl
@[simp] theorem Wafer.setPhase_coresLost (w : Wafer) (p : JobPhase) : (w.setPhase p).coresLost = w.coresLost := rfl
@[simp] theorem Wafer.setPhase_engines (w : Wafer) (p : JobPhase) : (w.setPhase p).engines = w.engines := rfl
@[simp] theorem Wafer.setPhase_gmes (w : Wafer) (p : JobPhase) : (w.setPhase p).gmes = w.gmes := rfl
@[simp] theorem Wafer.setPhase_tiers (w : Wafer) (p : JobPhase) : (w.setPhase p).tiers = w.tiers := rfl
@[simp] theorem Wafer.setPhase_canal (w : Wafer) (p : JobPhase) : (w.setPhase p).canal = w.canal := rfl
@[simp] theorem Wafer.setPhase_stackRecs (w : Wafer) (p : JobPhase) : (w.setPhase p).stackRecs = w.stackRecs := rfl
@[simp] theorem Wafer.setPhase_reservoir (w : Wafer) (p : JobPhase) : (w.setPhase p).reservoir = w.reservoir := rfl
@[simp] theorem Wafer.setPhase_ports (w : Wafer) (p : JobPhase) : (w.setPhase p).ports = w.ports := rfl
@[simp] theorem Wafer.setPhase_ingest (w : Wafer) (p : JobPhase) : (w.setPhase p).ingest = w.ingest := rfl
@[simp] theorem Wafer.setPhase_reduce (w : Wafer) (p : JobPhase) : (w.setPhase p).reduce = w.reduce := rfl
@[simp] theorem Wafer.setPhase_time (w : Wafer) (p : JobPhase) : (w.setPhase p).time = w.time := rfl
@[simp] theorem Wafer.setPhase_fences (w : Wafer) (p : JobPhase) : (w.setPhase p).fences = w.fences := rfl
@[simp] theorem Wafer.setPhase_fenceSerial (w : Wafer) (p : JobPhase) : (w.setPhase p).fenceSerial = w.fenceSerial := rfl
@[simp] theorem Wafer.setPhase_raised (w : Wafer) (p : JobPhase) : (w.setPhase p).raised = w.raised := rfl
@[simp] theorem Wafer.setPhase_cmd (w : Wafer) (p : JobPhase) : (w.setPhase p).cmd = w.cmd := rfl
@[simp] theorem Wafer.setPhase_shp (w : Wafer) (p : JobPhase) : (w.setPhase p).shp = w.shp := rfl
@[simp] theorem Wafer.setPhase_power (w : Wafer) (p : JobPhase) : (w.setPhase p).power = w.power := rfl
@[simp] theorem Wafer.setPhase_health (w : Wafer) (p : JobPhase) : (w.setPhase p).health = w.health := rfl
@[simp] theorem Wafer.setPhase_out (w : Wafer) (p : JobPhase) : (w.setPhase p).out = w.out := rfl
@[simp] theorem Wafer.setPhase_free (w : Wafer) (p : JobPhase) : (w.setPhase p).free = w.free := rfl

/-! ### clearCount -/
@[simp] theorem Wafer.clearCount_coreMem (w : Wafer) (b : Nat) (f : Fld) : (w.clearCount b f).coreMem = w.coreMem := rfl
@[simp] theorem Wafer.clearCount_cluMem (w : Wafer) (b : Nat) (f : Fld) : (w.clearCount b f).cluMem = w.cluMem := rfl
@[simp] theorem Wafer.clearCount_accMem (w : Wafer) (b : Nat) (f : Fld) : (w.clearCount b f).accMem = w.accMem := rfl
@[simp] theorem Wafer.clearCount_stkMem (w : Wafer) (b : Nat) (f : Fld) : (w.clearCount b f).stkMem = w.stkMem := rfl
@[simp] theorem Wafer.clearCount_chamber (w : Wafer) (b : Nat) (f : Fld) : (w.clearCount b f).chamber = w.chamber := rfl
@[simp] theorem Wafer.clearCount_fwMem (w : Wafer) (b : Nat) (f : Fld) : (w.clearCount b f).fwMem = w.fwMem := rfl
@[simp] theorem Wafer.clearCount_cores (w : Wafer) (b : Nat) (f : Fld) : (w.clearCount b f).cores = w.cores := rfl
@[simp] theorem Wafer.clearCount_coresLost (w : Wafer) (b : Nat) (f : Fld) : (w.clearCount b f).coresLost = w.coresLost := rfl
@[simp] theorem Wafer.clearCount_engines (w : Wafer) (b : Nat) (f : Fld) : (w.clearCount b f).engines = w.engines := rfl
@[simp] theorem Wafer.clearCount_gmes (w : Wafer) (b : Nat) (f : Fld) : (w.clearCount b f).gmes = w.gmes := rfl
@[simp] theorem Wafer.clearCount_tiers (w : Wafer) (b : Nat) (f : Fld) : (w.clearCount b f).tiers = w.tiers := rfl
@[simp] theorem Wafer.clearCount_canal (w : Wafer) (b : Nat) (f : Fld) : (w.clearCount b f).canal = w.canal := rfl
@[simp] theorem Wafer.clearCount_stackRecs (w : Wafer) (b : Nat) (f : Fld) : (w.clearCount b f).stackRecs = w.stackRecs := rfl
@[simp] theorem Wafer.clearCount_reservoir (w : Wafer) (b : Nat) (f : Fld) : (w.clearCount b f).reservoir = w.reservoir := rfl
@[simp] theorem Wafer.clearCount_ports (w : Wafer) (b : Nat) (f : Fld) : (w.clearCount b f).ports = w.ports := rfl
@[simp] theorem Wafer.clearCount_ingest (w : Wafer) (b : Nat) (f : Fld) : (w.clearCount b f).ingest = w.ingest := rfl
@[simp] theorem Wafer.clearCount_reduce (w : Wafer) (b : Nat) (f : Fld) : (w.clearCount b f).reduce = w.reduce := rfl
@[simp] theorem Wafer.clearCount_time (w : Wafer) (b : Nat) (f : Fld) : (w.clearCount b f).time = w.time := rfl
@[simp] theorem Wafer.clearCount_fences (w : Wafer) (b : Nat) (f : Fld) : (w.clearCount b f).fences = w.fences := rfl
@[simp] theorem Wafer.clearCount_fenceSerial (w : Wafer) (b : Nat) (f : Fld) : (w.clearCount b f).fenceSerial = w.fenceSerial := rfl
@[simp] theorem Wafer.clearCount_raised (w : Wafer) (b : Nat) (f : Fld) : (w.clearCount b f).raised = w.raised := rfl
@[simp] theorem Wafer.clearCount_cmd (w : Wafer) (b : Nat) (f : Fld) : (w.clearCount b f).cmd = w.cmd := rfl
@[simp] theorem Wafer.clearCount_job (w : Wafer) (b : Nat) (f : Fld) : (w.clearCount b f).job = w.job := rfl
@[simp] theorem Wafer.clearCount_shp (w : Wafer) (b : Nat) (f : Fld) : (w.clearCount b f).shp = w.shp := rfl
@[simp] theorem Wafer.clearCount_power (w : Wafer) (b : Nat) (f : Fld) : (w.clearCount b f).power = w.power := rfl
@[simp] theorem Wafer.clearCount_health (w : Wafer) (b : Nat) (f : Fld) : (w.clearCount b f).health = w.health := rfl
@[simp] theorem Wafer.clearCount_out (w : Wafer) (b : Nat) (f : Fld) : (w.clearCount b f).out = w.out := rfl
@[simp] theorem Wafer.clearCount_free (w : Wafer) (b : Nat) (f : Fld) : (w.clearCount b f).free = w.free := rfl

/-! ### coreStop -/
@[simp] theorem Wafer.coreStop_coreMem (w : Wafer) (i : Nat) : (w.coreStop i).coreMem = w.coreMem := rfl
@[simp] theorem Wafer.coreStop_cluMem (w : Wafer) (i : Nat) : (w.coreStop i).cluMem = w.cluMem := rfl
@[simp] theorem Wafer.coreStop_accMem (w : Wafer) (i : Nat) : (w.coreStop i).accMem = w.accMem := rfl
@[simp] theorem Wafer.coreStop_stkMem (w : Wafer) (i : Nat) : (w.coreStop i).stkMem = w.stkMem := rfl
@[simp] theorem Wafer.coreStop_chamber (w : Wafer) (i : Nat) : (w.coreStop i).chamber = w.chamber := rfl
@[simp] theorem Wafer.coreStop_fwMem (w : Wafer) (i : Nat) : (w.coreStop i).fwMem = w.fwMem := rfl
@[simp] theorem Wafer.coreStop_cores (w : Wafer) (i : Nat) : (w.coreStop i).cores = w.cores := rfl
@[simp] theorem Wafer.coreStop_coresLost (w : Wafer) (i : Nat) : (w.coreStop i).coresLost = w.coresLost := rfl
@[simp] theorem Wafer.coreStop_engines (w : Wafer) (i : Nat) : (w.coreStop i).engines = w.engines := rfl
@[simp] theorem Wafer.coreStop_gmes (w : Wafer) (i : Nat) : (w.coreStop i).gmes = w.gmes := rfl
@[simp] theorem Wafer.coreStop_tiers (w : Wafer) (i : Nat) : (w.coreStop i).tiers = w.tiers := rfl
@[simp] theorem Wafer.coreStop_canal (w : Wafer) (i : Nat) : (w.coreStop i).canal = w.canal := rfl
@[simp] theorem Wafer.coreStop_stackRecs (w : Wafer) (i : Nat) : (w.coreStop i).stackRecs = w.stackRecs := rfl
@[simp] theorem Wafer.coreStop_reservoir (w : Wafer) (i : Nat) : (w.coreStop i).reservoir = w.reservoir := rfl
@[simp] theorem Wafer.coreStop_ports (w : Wafer) (i : Nat) : (w.coreStop i).ports = w.ports := rfl
@[simp] theorem Wafer.coreStop_ingest (w : Wafer) (i : Nat) : (w.coreStop i).ingest = w.ingest := rfl
@[simp] theorem Wafer.coreStop_reduce (w : Wafer) (i : Nat) : (w.coreStop i).reduce = w.reduce := rfl
@[simp] theorem Wafer.coreStop_time (w : Wafer) (i : Nat) : (w.coreStop i).time = w.time := rfl
@[simp] theorem Wafer.coreStop_fences (w : Wafer) (i : Nat) : (w.coreStop i).fences = w.fences := rfl
@[simp] theorem Wafer.coreStop_fenceSerial (w : Wafer) (i : Nat) : (w.coreStop i).fenceSerial = w.fenceSerial := rfl
@[simp] theorem Wafer.coreStop_raised (w : Wafer) (i : Nat) : (w.coreStop i).raised = w.raised := rfl
@[simp] theorem Wafer.coreStop_cmd (w : Wafer) (i : Nat) : (w.coreStop i).cmd = w.cmd := rfl
@[simp] theorem Wafer.coreStop_job (w : Wafer) (i : Nat) : (w.coreStop i).job = w.job := rfl
@[simp] theorem Wafer.coreStop_shp (w : Wafer) (i : Nat) : (w.coreStop i).shp = w.shp := rfl
@[simp] theorem Wafer.coreStop_power (w : Wafer) (i : Nat) : (w.coreStop i).power = w.power := rfl
@[simp] theorem Wafer.coreStop_health (w : Wafer) (i : Nat) : (w.coreStop i).health = w.health := rfl
@[simp] theorem Wafer.coreStop_out (w : Wafer) (i : Nat) : (w.coreStop i).out = w.out := rfl
@[simp] theorem Wafer.coreStop_free (w : Wafer) (i : Nat) : (w.coreStop i).free = w.free := rfl

/-! ### tallyMiss -/
@[simp] theorem Wafer.tallyMiss_regs (w : Wafer) : (w.tallyMiss).regs = w.regs := rfl
@[simp] theorem Wafer.tallyMiss_coreMem (w : Wafer) : (w.tallyMiss).coreMem = w.coreMem := rfl
@[simp] theorem Wafer.tallyMiss_cluMem (w : Wafer) : (w.tallyMiss).cluMem = w.cluMem := rfl
@[simp] theorem Wafer.tallyMiss_accMem (w : Wafer) : (w.tallyMiss).accMem = w.accMem := rfl
@[simp] theorem Wafer.tallyMiss_stkMem (w : Wafer) : (w.tallyMiss).stkMem = w.stkMem := rfl
@[simp] theorem Wafer.tallyMiss_chamber (w : Wafer) : (w.tallyMiss).chamber = w.chamber := rfl
@[simp] theorem Wafer.tallyMiss_fwMem (w : Wafer) : (w.tallyMiss).fwMem = w.fwMem := rfl
@[simp] theorem Wafer.tallyMiss_cores (w : Wafer) : (w.tallyMiss).cores = w.cores := rfl
@[simp] theorem Wafer.tallyMiss_coresLost (w : Wafer) : (w.tallyMiss).coresLost = w.coresLost := rfl
@[simp] theorem Wafer.tallyMiss_engines (w : Wafer) : (w.tallyMiss).engines = w.engines := rfl
@[simp] theorem Wafer.tallyMiss_gmes (w : Wafer) : (w.tallyMiss).gmes = w.gmes := rfl
@[simp] theorem Wafer.tallyMiss_tiers (w : Wafer) : (w.tallyMiss).tiers = w.tiers := rfl
@[simp] theorem Wafer.tallyMiss_canal (w : Wafer) : (w.tallyMiss).canal = w.canal := rfl
@[simp] theorem Wafer.tallyMiss_stackRecs (w : Wafer) : (w.tallyMiss).stackRecs = w.stackRecs := rfl
@[simp] theorem Wafer.tallyMiss_reservoir (w : Wafer) : (w.tallyMiss).reservoir = w.reservoir := rfl
@[simp] theorem Wafer.tallyMiss_ports (w : Wafer) : (w.tallyMiss).ports = w.ports := rfl
@[simp] theorem Wafer.tallyMiss_ingest (w : Wafer) : (w.tallyMiss).ingest = w.ingest := rfl
@[simp] theorem Wafer.tallyMiss_reduce (w : Wafer) : (w.tallyMiss).reduce = w.reduce := rfl
@[simp] theorem Wafer.tallyMiss_time (w : Wafer) : (w.tallyMiss).time = w.time := rfl
@[simp] theorem Wafer.tallyMiss_fences (w : Wafer) : (w.tallyMiss).fences = w.fences := rfl
@[simp] theorem Wafer.tallyMiss_fenceSerial (w : Wafer) : (w.tallyMiss).fenceSerial = w.fenceSerial := rfl
@[simp] theorem Wafer.tallyMiss_raised (w : Wafer) : (w.tallyMiss).raised = w.raised := rfl
@[simp] theorem Wafer.tallyMiss_cmd (w : Wafer) : (w.tallyMiss).cmd = w.cmd := rfl
@[simp] theorem Wafer.tallyMiss_job (w : Wafer) : (w.tallyMiss).job = w.job := rfl
@[simp] theorem Wafer.tallyMiss_power (w : Wafer) : (w.tallyMiss).power = w.power := rfl
@[simp] theorem Wafer.tallyMiss_health (w : Wafer) : (w.tallyMiss).health = w.health := rfl
@[simp] theorem Wafer.tallyMiss_out (w : Wafer) : (w.tallyMiss).out = w.out := rfl
@[simp] theorem Wafer.tallyMiss_free (w : Wafer) : (w.tallyMiss).free = w.free := rfl

/-! ### inflightCount -/
@[simp] theorem Wafer.inflightCount_coreMem (w : Wafer) : (w.inflightCount).coreMem = w.coreMem := rfl
@[simp] theorem Wafer.inflightCount_cluMem (w : Wafer) : (w.inflightCount).cluMem = w.cluMem := rfl
@[simp] theorem Wafer.inflightCount_accMem (w : Wafer) : (w.inflightCount).accMem = w.accMem := rfl
@[simp] theorem Wafer.inflightCount_stkMem (w : Wafer) : (w.inflightCount).stkMem = w.stkMem := rfl
@[simp] theorem Wafer.inflightCount_chamber (w : Wafer) : (w.inflightCount).chamber = w.chamber := rfl
@[simp] theorem Wafer.inflightCount_fwMem (w : Wafer) : (w.inflightCount).fwMem = w.fwMem := rfl
@[simp] theorem Wafer.inflightCount_cores (w : Wafer) : (w.inflightCount).cores = w.cores := rfl
@[simp] theorem Wafer.inflightCount_coresLost (w : Wafer) : (w.inflightCount).coresLost = w.coresLost := rfl
@[simp] theorem Wafer.inflightCount_engines (w : Wafer) : (w.inflightCount).engines = w.engines := rfl
@[simp] theorem Wafer.inflightCount_gmes (w : Wafer) : (w.inflightCount).gmes = w.gmes := rfl
@[simp] theorem Wafer.inflightCount_tiers (w : Wafer) : (w.inflightCount).tiers = w.tiers := rfl
@[simp] theorem Wafer.inflightCount_canal (w : Wafer) : (w.inflightCount).canal = w.canal := rfl
@[simp] theorem Wafer.inflightCount_stackRecs (w : Wafer) : (w.inflightCount).stackRecs = w.stackRecs := rfl
@[simp] theorem Wafer.inflightCount_reservoir (w : Wafer) : (w.inflightCount).reservoir = w.reservoir := rfl
@[simp] theorem Wafer.inflightCount_ports (w : Wafer) : (w.inflightCount).ports = w.ports := rfl
@[simp] theorem Wafer.inflightCount_ingest (w : Wafer) : (w.inflightCount).ingest = w.ingest := rfl
@[simp] theorem Wafer.inflightCount_reduce (w : Wafer) : (w.inflightCount).reduce = w.reduce := rfl
@[simp] theorem Wafer.inflightCount_time (w : Wafer) : (w.inflightCount).time = w.time := rfl
@[simp] theorem Wafer.inflightCount_fences (w : Wafer) : (w.inflightCount).fences = w.fences := rfl
@[simp] theorem Wafer.inflightCount_fenceSerial (w : Wafer) : (w.inflightCount).fenceSerial = w.fenceSerial := rfl
@[simp] theorem Wafer.inflightCount_raised (w : Wafer) : (w.inflightCount).raised = w.raised := rfl
@[simp] theorem Wafer.inflightCount_cmd (w : Wafer) : (w.inflightCount).cmd = w.cmd := rfl
@[simp] theorem Wafer.inflightCount_job (w : Wafer) : (w.inflightCount).job = w.job := rfl
@[simp] theorem Wafer.inflightCount_shp (w : Wafer) : (w.inflightCount).shp = w.shp := rfl
@[simp] theorem Wafer.inflightCount_power (w : Wafer) : (w.inflightCount).power = w.power := rfl
@[simp] theorem Wafer.inflightCount_health (w : Wafer) : (w.inflightCount).health = w.health := rfl
@[simp] theorem Wafer.inflightCount_out (w : Wafer) : (w.inflightCount).out = w.out := rfl
@[simp] theorem Wafer.inflightCount_free (w : Wafer) : (w.inflightCount).free = w.free := rfl

/-! ### wrs -/
theorem Wafer.wrs_shape (w : Wafer) (b : Nat) (l : List (Fld × Nat)) : ∃ r, w.wrs b l = { w with regs := r } := by
  unfold Wafer.wrs
  induction l generalizing w with
  | nil => exact ⟨_, rfl⟩
  | cons e l ih =>
    obtain ⟨r, h⟩ := ih (w.wr b e.1 e.2)
    exact ⟨r, h⟩
@[simp] theorem Wafer.wrs_coreMem (w : Wafer) (b : Nat) (l : List (Fld × Nat)) : (w.wrs b l).coreMem = w.coreMem := by
  obtain ⟨_, h⟩ := w.wrs_shape b l
  rw [h]
@[simp] theorem Wafer.wrs_cluMem (w : Wafer) (b : Nat) (l : List (Fld × Nat)) : (w.wrs b l).cluMem = w.cluMem := by
  obtain ⟨_, h⟩ := w.wrs_shape b l
  rw [h]
@[simp] theorem Wafer.wrs_accMem (w : Wafer) (b : Nat) (l : List (Fld × Nat)) : (w.wrs b l).accMem = w.accMem := by
  obtain ⟨_, h⟩ := w.wrs_shape b l
  rw [h]
@[simp] theorem Wafer.wrs_stkMem (w : Wafer) (b : Nat) (l : List (Fld × Nat)) : (w.wrs b l).stkMem = w.stkMem := by
  obtain ⟨_, h⟩ := w.wrs_shape b l
  rw [h]
@[simp] theorem Wafer.wrs_chamber (w : Wafer) (b : Nat) (l : List (Fld × Nat)) : (w.wrs b l).chamber = w.chamber := by
  obtain ⟨_, h⟩ := w.wrs_shape b l
  rw [h]
@[simp] theorem Wafer.wrs_fwMem (w : Wafer) (b : Nat) (l : List (Fld × Nat)) : (w.wrs b l).fwMem = w.fwMem := by
  obtain ⟨_, h⟩ := w.wrs_shape b l
  rw [h]
@[simp] theorem Wafer.wrs_cores (w : Wafer) (b : Nat) (l : List (Fld × Nat)) : (w.wrs b l).cores = w.cores := by
  obtain ⟨_, h⟩ := w.wrs_shape b l
  rw [h]
@[simp] theorem Wafer.wrs_coresLost (w : Wafer) (b : Nat) (l : List (Fld × Nat)) : (w.wrs b l).coresLost = w.coresLost := by
  obtain ⟨_, h⟩ := w.wrs_shape b l
  rw [h]
@[simp] theorem Wafer.wrs_engines (w : Wafer) (b : Nat) (l : List (Fld × Nat)) : (w.wrs b l).engines = w.engines := by
  obtain ⟨_, h⟩ := w.wrs_shape b l
  rw [h]
@[simp] theorem Wafer.wrs_gmes (w : Wafer) (b : Nat) (l : List (Fld × Nat)) : (w.wrs b l).gmes = w.gmes := by
  obtain ⟨_, h⟩ := w.wrs_shape b l
  rw [h]
@[simp] theorem Wafer.wrs_tiers (w : Wafer) (b : Nat) (l : List (Fld × Nat)) : (w.wrs b l).tiers = w.tiers := by
  obtain ⟨_, h⟩ := w.wrs_shape b l
  rw [h]
@[simp] theorem Wafer.wrs_canal (w : Wafer) (b : Nat) (l : List (Fld × Nat)) : (w.wrs b l).canal = w.canal := by
  obtain ⟨_, h⟩ := w.wrs_shape b l
  rw [h]
@[simp] theorem Wafer.wrs_stackRecs (w : Wafer) (b : Nat) (l : List (Fld × Nat)) : (w.wrs b l).stackRecs = w.stackRecs := by
  obtain ⟨_, h⟩ := w.wrs_shape b l
  rw [h]
@[simp] theorem Wafer.wrs_reservoir (w : Wafer) (b : Nat) (l : List (Fld × Nat)) : (w.wrs b l).reservoir = w.reservoir := by
  obtain ⟨_, h⟩ := w.wrs_shape b l
  rw [h]
@[simp] theorem Wafer.wrs_ports (w : Wafer) (b : Nat) (l : List (Fld × Nat)) : (w.wrs b l).ports = w.ports := by
  obtain ⟨_, h⟩ := w.wrs_shape b l
  rw [h]
@[simp] theorem Wafer.wrs_ingest (w : Wafer) (b : Nat) (l : List (Fld × Nat)) : (w.wrs b l).ingest = w.ingest := by
  obtain ⟨_, h⟩ := w.wrs_shape b l
  rw [h]
@[simp] theorem Wafer.wrs_reduce (w : Wafer) (b : Nat) (l : List (Fld × Nat)) : (w.wrs b l).reduce = w.reduce := by
  obtain ⟨_, h⟩ := w.wrs_shape b l
  rw [h]
@[simp] theorem Wafer.wrs_time (w : Wafer) (b : Nat) (l : List (Fld × Nat)) : (w.wrs b l).time = w.time := by
  obtain ⟨_, h⟩ := w.wrs_shape b l
  rw [h]
@[simp] theorem Wafer.wrs_fences (w : Wafer) (b : Nat) (l : List (Fld × Nat)) : (w.wrs b l).fences = w.fences := by
  obtain ⟨_, h⟩ := w.wrs_shape b l
  rw [h]
@[simp] theorem Wafer.wrs_fenceSerial (w : Wafer) (b : Nat) (l : List (Fld × Nat)) : (w.wrs b l).fenceSerial = w.fenceSerial := by
  obtain ⟨_, h⟩ := w.wrs_shape b l
  rw [h]
@[simp] theorem Wafer.wrs_raised (w : Wafer) (b : Nat) (l : List (Fld × Nat)) : (w.wrs b l).raised = w.raised := by
  obtain ⟨_, h⟩ := w.wrs_shape b l
  rw [h]
@[simp] theorem Wafer.wrs_cmd (w : Wafer) (b : Nat) (l : List (Fld × Nat)) : (w.wrs b l).cmd = w.cmd := by
  obtain ⟨_, h⟩ := w.wrs_shape b l
  rw [h]
@[simp] theorem Wafer.wrs_job (w : Wafer) (b : Nat) (l : List (Fld × Nat)) : (w.wrs b l).job = w.job := by
  obtain ⟨_, h⟩ := w.wrs_shape b l
  rw [h]
@[simp] theorem Wafer.wrs_shp (w : Wafer) (b : Nat) (l : List (Fld × Nat)) : (w.wrs b l).shp = w.shp := by
  obtain ⟨_, h⟩ := w.wrs_shape b l
  rw [h]
@[simp] theorem Wafer.wrs_power (w : Wafer) (b : Nat) (l : List (Fld × Nat)) : (w.wrs b l).power = w.power := by
  obtain ⟨_, h⟩ := w.wrs_shape b l
  rw [h]
@[simp] theorem Wafer.wrs_health (w : Wafer) (b : Nat) (l : List (Fld × Nat)) : (w.wrs b l).health = w.health := by
  obtain ⟨_, h⟩ := w.wrs_shape b l
  rw [h]
@[simp] theorem Wafer.wrs_out (w : Wafer) (b : Nat) (l : List (Fld × Nat)) : (w.wrs b l).out = w.out := by
  obtain ⟨_, h⟩ := w.wrs_shape b l
  rw [h]
@[simp] theorem Wafer.wrs_free (w : Wafer) (b : Nat) (l : List (Fld × Nat)) : (w.wrs b l).free = w.free := by
  obtain ⟨_, h⟩ := w.wrs_shape b l
  rw [h]

/-! ### recordFirst -/
theorem Wafer.recordFirst_shape (w : Wafer) (b : Nat) (f : Fld) (l : List (Fld × Nat)) : ∃ r, w.recordFirst b f l = { w with regs := r } := by
  unfold Wafer.recordFirst
  split
  · exact ⟨_, rfl⟩
  · obtain ⟨r, h⟩ := w.wrs_shape b l
    rw [h]
    exact ⟨_, rfl⟩
@[simp] theorem Wafer.recordFirst_coreMem (w : Wafer) (b : Nat) (f : Fld) (l : List (Fld × Nat)) : (w.recordFirst b f l).coreMem = w.coreMem := by
  obtain ⟨_, h⟩ := w.recordFirst_shape b f l
  rw [h]
@[simp] theorem Wafer.recordFirst_cluMem (w : Wafer) (b : Nat) (f : Fld) (l : List (Fld × Nat)) : (w.recordFirst b f l).cluMem = w.cluMem := by
  obtain ⟨_, h⟩ := w.recordFirst_shape b f l
  rw [h]
@[simp] theorem Wafer.recordFirst_accMem (w : Wafer) (b : Nat) (f : Fld) (l : List (Fld × Nat)) : (w.recordFirst b f l).accMem = w.accMem := by
  obtain ⟨_, h⟩ := w.recordFirst_shape b f l
  rw [h]
@[simp] theorem Wafer.recordFirst_stkMem (w : Wafer) (b : Nat) (f : Fld) (l : List (Fld × Nat)) : (w.recordFirst b f l).stkMem = w.stkMem := by
  obtain ⟨_, h⟩ := w.recordFirst_shape b f l
  rw [h]
@[simp] theorem Wafer.recordFirst_chamber (w : Wafer) (b : Nat) (f : Fld) (l : List (Fld × Nat)) : (w.recordFirst b f l).chamber = w.chamber := by
  obtain ⟨_, h⟩ := w.recordFirst_shape b f l
  rw [h]
@[simp] theorem Wafer.recordFirst_fwMem (w : Wafer) (b : Nat) (f : Fld) (l : List (Fld × Nat)) : (w.recordFirst b f l).fwMem = w.fwMem := by
  obtain ⟨_, h⟩ := w.recordFirst_shape b f l
  rw [h]
@[simp] theorem Wafer.recordFirst_cores (w : Wafer) (b : Nat) (f : Fld) (l : List (Fld × Nat)) : (w.recordFirst b f l).cores = w.cores := by
  obtain ⟨_, h⟩ := w.recordFirst_shape b f l
  rw [h]
@[simp] theorem Wafer.recordFirst_coresLost (w : Wafer) (b : Nat) (f : Fld) (l : List (Fld × Nat)) : (w.recordFirst b f l).coresLost = w.coresLost := by
  obtain ⟨_, h⟩ := w.recordFirst_shape b f l
  rw [h]
@[simp] theorem Wafer.recordFirst_engines (w : Wafer) (b : Nat) (f : Fld) (l : List (Fld × Nat)) : (w.recordFirst b f l).engines = w.engines := by
  obtain ⟨_, h⟩ := w.recordFirst_shape b f l
  rw [h]
@[simp] theorem Wafer.recordFirst_gmes (w : Wafer) (b : Nat) (f : Fld) (l : List (Fld × Nat)) : (w.recordFirst b f l).gmes = w.gmes := by
  obtain ⟨_, h⟩ := w.recordFirst_shape b f l
  rw [h]
@[simp] theorem Wafer.recordFirst_tiers (w : Wafer) (b : Nat) (f : Fld) (l : List (Fld × Nat)) : (w.recordFirst b f l).tiers = w.tiers := by
  obtain ⟨_, h⟩ := w.recordFirst_shape b f l
  rw [h]
@[simp] theorem Wafer.recordFirst_canal (w : Wafer) (b : Nat) (f : Fld) (l : List (Fld × Nat)) : (w.recordFirst b f l).canal = w.canal := by
  obtain ⟨_, h⟩ := w.recordFirst_shape b f l
  rw [h]
@[simp] theorem Wafer.recordFirst_stackRecs (w : Wafer) (b : Nat) (f : Fld) (l : List (Fld × Nat)) : (w.recordFirst b f l).stackRecs = w.stackRecs := by
  obtain ⟨_, h⟩ := w.recordFirst_shape b f l
  rw [h]
@[simp] theorem Wafer.recordFirst_reservoir (w : Wafer) (b : Nat) (f : Fld) (l : List (Fld × Nat)) : (w.recordFirst b f l).reservoir = w.reservoir := by
  obtain ⟨_, h⟩ := w.recordFirst_shape b f l
  rw [h]
@[simp] theorem Wafer.recordFirst_ports (w : Wafer) (b : Nat) (f : Fld) (l : List (Fld × Nat)) : (w.recordFirst b f l).ports = w.ports := by
  obtain ⟨_, h⟩ := w.recordFirst_shape b f l
  rw [h]
@[simp] theorem Wafer.recordFirst_ingest (w : Wafer) (b : Nat) (f : Fld) (l : List (Fld × Nat)) : (w.recordFirst b f l).ingest = w.ingest := by
  obtain ⟨_, h⟩ := w.recordFirst_shape b f l
  rw [h]
@[simp] theorem Wafer.recordFirst_reduce (w : Wafer) (b : Nat) (f : Fld) (l : List (Fld × Nat)) : (w.recordFirst b f l).reduce = w.reduce := by
  obtain ⟨_, h⟩ := w.recordFirst_shape b f l
  rw [h]
@[simp] theorem Wafer.recordFirst_time (w : Wafer) (b : Nat) (f : Fld) (l : List (Fld × Nat)) : (w.recordFirst b f l).time = w.time := by
  obtain ⟨_, h⟩ := w.recordFirst_shape b f l
  rw [h]
@[simp] theorem Wafer.recordFirst_fences (w : Wafer) (b : Nat) (f : Fld) (l : List (Fld × Nat)) : (w.recordFirst b f l).fences = w.fences := by
  obtain ⟨_, h⟩ := w.recordFirst_shape b f l
  rw [h]
@[simp] theorem Wafer.recordFirst_fenceSerial (w : Wafer) (b : Nat) (f : Fld) (l : List (Fld × Nat)) : (w.recordFirst b f l).fenceSerial = w.fenceSerial := by
  obtain ⟨_, h⟩ := w.recordFirst_shape b f l
  rw [h]
@[simp] theorem Wafer.recordFirst_raised (w : Wafer) (b : Nat) (f : Fld) (l : List (Fld × Nat)) : (w.recordFirst b f l).raised = w.raised := by
  obtain ⟨_, h⟩ := w.recordFirst_shape b f l
  rw [h]
@[simp] theorem Wafer.recordFirst_cmd (w : Wafer) (b : Nat) (f : Fld) (l : List (Fld × Nat)) : (w.recordFirst b f l).cmd = w.cmd := by
  obtain ⟨_, h⟩ := w.recordFirst_shape b f l
  rw [h]
@[simp] theorem Wafer.recordFirst_job (w : Wafer) (b : Nat) (f : Fld) (l : List (Fld × Nat)) : (w.recordFirst b f l).job = w.job := by
  obtain ⟨_, h⟩ := w.recordFirst_shape b f l
  rw [h]
@[simp] theorem Wafer.recordFirst_shp (w : Wafer) (b : Nat) (f : Fld) (l : List (Fld × Nat)) : (w.recordFirst b f l).shp = w.shp := by
  obtain ⟨_, h⟩ := w.recordFirst_shape b f l
  rw [h]
@[simp] theorem Wafer.recordFirst_power (w : Wafer) (b : Nat) (f : Fld) (l : List (Fld × Nat)) : (w.recordFirst b f l).power = w.power := by
  obtain ⟨_, h⟩ := w.recordFirst_shape b f l
  rw [h]
@[simp] theorem Wafer.recordFirst_health (w : Wafer) (b : Nat) (f : Fld) (l : List (Fld × Nat)) : (w.recordFirst b f l).health = w.health := by
  obtain ⟨_, h⟩ := w.recordFirst_shape b f l
  rw [h]
@[simp] theorem Wafer.recordFirst_out (w : Wafer) (b : Nat) (f : Fld) (l : List (Fld × Nat)) : (w.recordFirst b f l).out = w.out := by
  obtain ⟨_, h⟩ := w.recordFirst_shape b f l
  rw [h]
@[simp] theorem Wafer.recordFirst_free (w : Wafer) (b : Nat) (f : Fld) (l : List (Fld × Nat)) : (w.recordFirst b f l).free = w.free := by
  obtain ⟨_, h⟩ := w.recordFirst_shape b f l
  rw [h]

/-! ### queueEvent -/
theorem Wafer.queueEvent_shape (w : Wafer) (e : Event) : ∃ r s c, w.queueEvent e = { w with regs := r, shp := s, cmd := c } := by
  unfold Wafer.queueEvent
  split
  · exact ⟨_, _, _, rfl⟩
  · dsimp only
    split
    · exact ⟨_, _, _, rfl⟩
    · split <;> exact ⟨_, _, _, rfl⟩
@[simp] theorem Wafer.queueEvent_coreMem (w : Wafer) (e : Event) : (w.queueEvent e).coreMem = w.coreMem := by
  obtain ⟨_, _, _, h⟩ := w.queueEvent_shape e
  rw [h]
@[simp] theorem Wafer.queueEvent_cluMem (w : Wafer) (e : Event) : (w.queueEvent e).cluMem = w.cluMem := by
  obtain ⟨_, _, _, h⟩ := w.queueEvent_shape e
  rw [h]
@[simp] theorem Wafer.queueEvent_accMem (w : Wafer) (e : Event) : (w.queueEvent e).accMem = w.accMem := by
  obtain ⟨_, _, _, h⟩ := w.queueEvent_shape e
  rw [h]
@[simp] theorem Wafer.queueEvent_stkMem (w : Wafer) (e : Event) : (w.queueEvent e).stkMem = w.stkMem := by
  obtain ⟨_, _, _, h⟩ := w.queueEvent_shape e
  rw [h]
@[simp] theorem Wafer.queueEvent_chamber (w : Wafer) (e : Event) : (w.queueEvent e).chamber = w.chamber := by
  obtain ⟨_, _, _, h⟩ := w.queueEvent_shape e
  rw [h]
@[simp] theorem Wafer.queueEvent_fwMem (w : Wafer) (e : Event) : (w.queueEvent e).fwMem = w.fwMem := by
  obtain ⟨_, _, _, h⟩ := w.queueEvent_shape e
  rw [h]
@[simp] theorem Wafer.queueEvent_cores (w : Wafer) (e : Event) : (w.queueEvent e).cores = w.cores := by
  obtain ⟨_, _, _, h⟩ := w.queueEvent_shape e
  rw [h]
@[simp] theorem Wafer.queueEvent_coresLost (w : Wafer) (e : Event) : (w.queueEvent e).coresLost = w.coresLost := by
  obtain ⟨_, _, _, h⟩ := w.queueEvent_shape e
  rw [h]
@[simp] theorem Wafer.queueEvent_engines (w : Wafer) (e : Event) : (w.queueEvent e).engines = w.engines := by
  obtain ⟨_, _, _, h⟩ := w.queueEvent_shape e
  rw [h]
@[simp] theorem Wafer.queueEvent_gmes (w : Wafer) (e : Event) : (w.queueEvent e).gmes = w.gmes := by
  obtain ⟨_, _, _, h⟩ := w.queueEvent_shape e
  rw [h]
@[simp] theorem Wafer.queueEvent_tiers (w : Wafer) (e : Event) : (w.queueEvent e).tiers = w.tiers := by
  obtain ⟨_, _, _, h⟩ := w.queueEvent_shape e
  rw [h]
@[simp] theorem Wafer.queueEvent_canal (w : Wafer) (e : Event) : (w.queueEvent e).canal = w.canal := by
  obtain ⟨_, _, _, h⟩ := w.queueEvent_shape e
  rw [h]
@[simp] theorem Wafer.queueEvent_stackRecs (w : Wafer) (e : Event) : (w.queueEvent e).stackRecs = w.stackRecs := by
  obtain ⟨_, _, _, h⟩ := w.queueEvent_shape e
  rw [h]
@[simp] theorem Wafer.queueEvent_reservoir (w : Wafer) (e : Event) : (w.queueEvent e).reservoir = w.reservoir := by
  obtain ⟨_, _, _, h⟩ := w.queueEvent_shape e
  rw [h]
@[simp] theorem Wafer.queueEvent_ports (w : Wafer) (e : Event) : (w.queueEvent e).ports = w.ports := by
  obtain ⟨_, _, _, h⟩ := w.queueEvent_shape e
  rw [h]
@[simp] theorem Wafer.queueEvent_ingest (w : Wafer) (e : Event) : (w.queueEvent e).ingest = w.ingest := by
  obtain ⟨_, _, _, h⟩ := w.queueEvent_shape e
  rw [h]
@[simp] theorem Wafer.queueEvent_reduce (w : Wafer) (e : Event) : (w.queueEvent e).reduce = w.reduce := by
  obtain ⟨_, _, _, h⟩ := w.queueEvent_shape e
  rw [h]
@[simp] theorem Wafer.queueEvent_time (w : Wafer) (e : Event) : (w.queueEvent e).time = w.time := by
  obtain ⟨_, _, _, h⟩ := w.queueEvent_shape e
  rw [h]
@[simp] theorem Wafer.queueEvent_fences (w : Wafer) (e : Event) : (w.queueEvent e).fences = w.fences := by
  obtain ⟨_, _, _, h⟩ := w.queueEvent_shape e
  rw [h]
@[simp] theorem Wafer.queueEvent_fenceSerial (w : Wafer) (e : Event) : (w.queueEvent e).fenceSerial = w.fenceSerial := by
  obtain ⟨_, _, _, h⟩ := w.queueEvent_shape e
  rw [h]
@[simp] theorem Wafer.queueEvent_raised (w : Wafer) (e : Event) : (w.queueEvent e).raised = w.raised := by
  obtain ⟨_, _, _, h⟩ := w.queueEvent_shape e
  rw [h]
@[simp] theorem Wafer.queueEvent_job (w : Wafer) (e : Event) : (w.queueEvent e).job = w.job := by
  obtain ⟨_, _, _, h⟩ := w.queueEvent_shape e
  rw [h]
@[simp] theorem Wafer.queueEvent_power (w : Wafer) (e : Event) : (w.queueEvent e).power = w.power := by
  obtain ⟨_, _, _, h⟩ := w.queueEvent_shape e
  rw [h]
@[simp] theorem Wafer.queueEvent_health (w : Wafer) (e : Event) : (w.queueEvent e).health = w.health := by
  obtain ⟨_, _, _, h⟩ := w.queueEvent_shape e
  rw [h]
@[simp] theorem Wafer.queueEvent_out (w : Wafer) (e : Event) : (w.queueEvent e).out = w.out := by
  obtain ⟨_, _, _, h⟩ := w.queueEvent_shape e
  rw [h]
@[simp] theorem Wafer.queueEvent_free (w : Wafer) (e : Event) : (w.queueEvent e).free = w.free := by
  obtain ⟨_, _, _, h⟩ := w.queueEvent_shape e
  rw [h]

/-! ### mgmt -/
theorem Wafer.mgmt_shape (w : Wafer) (e : Event) : ∃ r s c o, w.mgmt e = { w with regs := r, shp := s, cmd := c, out := o } := by
  unfold Wafer.mgmt
  split
  · obtain ⟨r, s, c, h⟩ := w.queueEvent_shape e
    exact ⟨r, s, c, _, h⟩
  · exact ⟨_, _, _, _, rfl⟩
@[simp] theorem Wafer.mgmt_coreMem (w : Wafer) (e : Event) : (w.mgmt e).coreMem = w.coreMem := by
  obtain ⟨_, _, _, _, h⟩ := w.mgmt_shape e
  rw [h]
@[simp] theorem Wafer.mgmt_cluMem (w : Wafer) (e : Event) : (w.mgmt e).cluMem = w.cluMem := by
  obtain ⟨_, _, _, _, h⟩ := w.mgmt_shape e
  rw [h]
@[simp] theorem Wafer.mgmt_accMem (w : Wafer) (e : Event) : (w.mgmt e).accMem = w.accMem := by
  obtain ⟨_, _, _, _, h⟩ := w.mgmt_shape e
  rw [h]
@[simp] theorem Wafer.mgmt_stkMem (w : Wafer) (e : Event) : (w.mgmt e).stkMem = w.stkMem := by
  obtain ⟨_, _, _, _, h⟩ := w.mgmt_shape e
  rw [h]
@[simp] theorem Wafer.mgmt_chamber (w : Wafer) (e : Event) : (w.mgmt e).chamber = w.chamber := by
  obtain ⟨_, _, _, _, h⟩ := w.mgmt_shape e
  rw [h]
@[simp] theorem Wafer.mgmt_fwMem (w : Wafer) (e : Event) : (w.mgmt e).fwMem = w.fwMem := by
  obtain ⟨_, _, _, _, h⟩ := w.mgmt_shape e
  rw [h]
@[simp] theorem Wafer.mgmt_cores (w : Wafer) (e : Event) : (w.mgmt e).cores = w.cores := by
  obtain ⟨_, _, _, _, h⟩ := w.mgmt_shape e
  rw [h]
@[simp] theorem Wafer.mgmt_coresLost (w : Wafer) (e : Event) : (w.mgmt e).coresLost = w.coresLost := by
  obtain ⟨_, _, _, _, h⟩ := w.mgmt_shape e
  rw [h]
@[simp] theorem Wafer.mgmt_engines (w : Wafer) (e : Event) : (w.mgmt e).engines = w.engines := by
  obtain ⟨_, _, _, _, h⟩ := w.mgmt_shape e
  rw [h]
@[simp] theorem Wafer.mgmt_gmes (w : Wafer) (e : Event) : (w.mgmt e).gmes = w.gmes := by
  obtain ⟨_, _, _, _, h⟩ := w.mgmt_shape e
  rw [h]
@[simp] theorem Wafer.mgmt_tiers (w : Wafer) (e : Event) : (w.mgmt e).tiers = w.tiers := by
  obtain ⟨_, _, _, _, h⟩ := w.mgmt_shape e
  rw [h]
@[simp] theorem Wafer.mgmt_canal (w : Wafer) (e : Event) : (w.mgmt e).canal = w.canal := by
  obtain ⟨_, _, _, _, h⟩ := w.mgmt_shape e
  rw [h]
@[simp] theorem Wafer.mgmt_stackRecs (w : Wafer) (e : Event) : (w.mgmt e).stackRecs = w.stackRecs := by
  obtain ⟨_, _, _, _, h⟩ := w.mgmt_shape e
  rw [h]
@[simp] theorem Wafer.mgmt_reservoir (w : Wafer) (e : Event) : (w.mgmt e).reservoir = w.reservoir := by
  obtain ⟨_, _, _, _, h⟩ := w.mgmt_shape e
  rw [h]
@[simp] theorem Wafer.mgmt_ports (w : Wafer) (e : Event) : (w.mgmt e).ports = w.ports := by
  obtain ⟨_, _, _, _, h⟩ := w.mgmt_shape e
  rw [h]
@[simp] theorem Wafer.mgmt_ingest (w : Wafer) (e : Event) : (w.mgmt e).ingest = w.ingest := by
  obtain ⟨_, _, _, _, h⟩ := w.mgmt_shape e
  rw [h]
@[simp] theorem Wafer.mgmt_reduce (w : Wafer) (e : Event) : (w.mgmt e).reduce = w.reduce := by
  obtain ⟨_, _, _, _, h⟩ := w.mgmt_shape e
  rw [h]
@[simp] theorem Wafer.mgmt_time (w : Wafer) (e : Event) : (w.mgmt e).time = w.time := by
  obtain ⟨_, _, _, _, h⟩ := w.mgmt_shape e
  rw [h]
@[simp] theorem Wafer.mgmt_fences (w : Wafer) (e : Event) : (w.mgmt e).fences = w.fences := by
  obtain ⟨_, _, _, _, h⟩ := w.mgmt_shape e
  rw [h]
@[simp] theorem Wafer.mgmt_fenceSerial (w : Wafer) (e : Event) : (w.mgmt e).fenceSerial = w.fenceSerial := by
  obtain ⟨_, _, _, _, h⟩ := w.mgmt_shape e
  rw [h]
@[simp] theorem Wafer.mgmt_raised (w : Wafer) (e : Event) : (w.mgmt e).raised = w.raised := by
  obtain ⟨_, _, _, _, h⟩ := w.mgmt_shape e
  rw [h]
@[simp] theorem Wafer.mgmt_job (w : Wafer) (e : Event) : (w.mgmt e).job = w.job := by
  obtain ⟨_, _, _, _, h⟩ := w.mgmt_shape e
  rw [h]
@[simp] theorem Wafer.mgmt_power (w : Wafer) (e : Event) : (w.mgmt e).power = w.power := by
  obtain ⟨_, _, _, _, h⟩ := w.mgmt_shape e
  rw [h]
@[simp] theorem Wafer.mgmt_health (w : Wafer) (e : Event) : (w.mgmt e).health = w.health := by
  obtain ⟨_, _, _, _, h⟩ := w.mgmt_shape e
  rw [h]
@[simp] theorem Wafer.mgmt_free (w : Wafer) (e : Event) : (w.mgmt e).free = w.free := by
  obtain ⟨_, _, _, _, h⟩ := w.mgmt_shape e
  rw [h]

/-! ### notify -/
theorem Wafer.notify_shape (w : Wafer) (a d : Nat) : ∃ r s c o, w.notify a d = { w with regs := r, shp := s, cmd := c, out := o } := by
  unfold Wafer.notify
  obtain ⟨r, s, c, o, h⟩ := w.mgmt_shape ⟨a, d⟩
  rw [h]
  exact ⟨_, _, _, _, rfl⟩
@[simp] theorem Wafer.notify_coreMem (w : Wafer) (a d : Nat) : (w.notify a d).coreMem = w.coreMem := by
  obtain ⟨_, _, _, _, h⟩ := w.notify_shape a d
  rw [h]
@[simp] theorem Wafer.notify_cluMem (w : Wafer) (a d : Nat) : (w.notify a d).cluMem = w.cluMem := by
  obtain ⟨_, _, _, _, h⟩ := w.notify_shape a d
  rw [h]
@[simp] theorem Wafer.notify_accMem (w : Wafer) (a d : Nat) : (w.notify a d).accMem = w.accMem := by
  obtain ⟨_, _, _, _, h⟩ := w.notify_shape a d
  rw [h]
@[simp] theorem Wafer.notify_stkMem (w : Wafer) (a d : Nat) : (w.notify a d).stkMem = w.stkMem := by
  obtain ⟨_, _, _, _, h⟩ := w.notify_shape a d
  rw [h]
@[simp] theorem Wafer.notify_chamber (w : Wafer) (a d : Nat) : (w.notify a d).chamber = w.chamber := by
  obtain ⟨_, _, _, _, h⟩ := w.notify_shape a d
  rw [h]
@[simp] theorem Wafer.notify_fwMem (w : Wafer) (a d : Nat) : (w.notify a d).fwMem = w.fwMem := by
  obtain ⟨_, _, _, _, h⟩ := w.notify_shape a d
  rw [h]
@[simp] theorem Wafer.notify_cores (w : Wafer) (a d : Nat) : (w.notify a d).cores = w.cores := by
  obtain ⟨_, _, _, _, h⟩ := w.notify_shape a d
  rw [h]
@[simp] theorem Wafer.notify_coresLost (w : Wafer) (a d : Nat) : (w.notify a d).coresLost = w.coresLost := by
  obtain ⟨_, _, _, _, h⟩ := w.notify_shape a d
  rw [h]
@[simp] theorem Wafer.notify_engines (w : Wafer) (a d : Nat) : (w.notify a d).engines = w.engines := by
  obtain ⟨_, _, _, _, h⟩ := w.notify_shape a d
  rw [h]
@[simp] theorem Wafer.notify_gmes (w : Wafer) (a d : Nat) : (w.notify a d).gmes = w.gmes := by
  obtain ⟨_, _, _, _, h⟩ := w.notify_shape a d
  rw [h]
@[simp] theorem Wafer.notify_tiers (w : Wafer) (a d : Nat) : (w.notify a d).tiers = w.tiers := by
  obtain ⟨_, _, _, _, h⟩ := w.notify_shape a d
  rw [h]
@[simp] theorem Wafer.notify_canal (w : Wafer) (a d : Nat) : (w.notify a d).canal = w.canal := by
  obtain ⟨_, _, _, _, h⟩ := w.notify_shape a d
  rw [h]
@[simp] theorem Wafer.notify_stackRecs (w : Wafer) (a d : Nat) : (w.notify a d).stackRecs = w.stackRecs := by
  obtain ⟨_, _, _, _, h⟩ := w.notify_shape a d
  rw [h]
@[simp] theorem Wafer.notify_reservoir (w : Wafer) (a d : Nat) : (w.notify a d).reservoir = w.reservoir := by
  obtain ⟨_, _, _, _, h⟩ := w.notify_shape a d
  rw [h]
@[simp] theorem Wafer.notify_ports (w : Wafer) (a d : Nat) : (w.notify a d).ports = w.ports := by
  obtain ⟨_, _, _, _, h⟩ := w.notify_shape a d
  rw [h]
@[simp] theorem Wafer.notify_ingest (w : Wafer) (a d : Nat) : (w.notify a d).ingest = w.ingest := by
  obtain ⟨_, _, _, _, h⟩ := w.notify_shape a d
  rw [h]
@[simp] theorem Wafer.notify_reduce (w : Wafer) (a d : Nat) : (w.notify a d).reduce = w.reduce := by
  obtain ⟨_, _, _, _, h⟩ := w.notify_shape a d
  rw [h]
@[simp] theorem Wafer.notify_time (w : Wafer) (a d : Nat) : (w.notify a d).time = w.time := by
  obtain ⟨_, _, _, _, h⟩ := w.notify_shape a d
  rw [h]
@[simp] theorem Wafer.notify_fences (w : Wafer) (a d : Nat) : (w.notify a d).fences = w.fences := by
  obtain ⟨_, _, _, _, h⟩ := w.notify_shape a d
  rw [h]
@[simp] theorem Wafer.notify_fenceSerial (w : Wafer) (a d : Nat) : (w.notify a d).fenceSerial = w.fenceSerial := by
  obtain ⟨_, _, _, _, h⟩ := w.notify_shape a d
  rw [h]
@[simp] theorem Wafer.notify_raised (w : Wafer) (a d : Nat) : (w.notify a d).raised = w.raised := by
  obtain ⟨_, _, _, _, h⟩ := w.notify_shape a d
  rw [h]
@[simp] theorem Wafer.notify_job (w : Wafer) (a d : Nat) : (w.notify a d).job = w.job := by
  obtain ⟨_, _, _, _, h⟩ := w.notify_shape a d
  rw [h]
@[simp] theorem Wafer.notify_power (w : Wafer) (a d : Nat) : (w.notify a d).power = w.power := by
  obtain ⟨_, _, _, _, h⟩ := w.notify_shape a d
  rw [h]
@[simp] theorem Wafer.notify_health (w : Wafer) (a d : Nat) : (w.notify a d).health = w.health := by
  obtain ⟨_, _, _, _, h⟩ := w.notify_shape a d
  rw [h]
@[simp] theorem Wafer.notify_free (w : Wafer) (a d : Nat) : (w.notify a d).free = w.free := by
  obtain ⟨_, _, _, _, h⟩ := w.notify_shape a d
  rw [h]

/-! ### countIn -/
theorem Wafer.countIn_shape (w : Wafer) (b : Nat) (f g : Fld) (n : Nat) : ∃ r s c o, w.countIn b f g n = { w with regs := r, shp := s, cmd := c, out := o } := by
  unfold Wafer.countIn
  split
  · exact ⟨_, _, _, _, rfl⟩
  · dsimp only
    split
    · exact ⟨_, _, _, _, rfl⟩
    · split
      · exact ⟨_, _, _, _, rfl⟩
      · obtain ⟨r, s, c, o, h⟩ := ((w.wr b f (2 ^ f.len - 1)).wr b g 1).notify_shape 0x0B20 (b + f.off)
        exact ⟨r, s, c, o, h⟩
@[simp] theorem Wafer.countIn_coreMem (w : Wafer) (b : Nat) (f g : Fld) (n : Nat) : (w.countIn b f g n).coreMem = w.coreMem := by
  obtain ⟨_, _, _, _, h⟩ := w.countIn_shape b f g n
  rw [h]
@[simp] theorem Wafer.countIn_cluMem (w : Wafer) (b : Nat) (f g : Fld) (n : Nat) : (w.countIn b f g n).cluMem = w.cluMem := by
  obtain ⟨_, _, _, _, h⟩ := w.countIn_shape b f g n
  rw [h]
@[simp] theorem Wafer.countIn_accMem (w : Wafer) (b : Nat) (f g : Fld) (n : Nat) : (w.countIn b f g n).accMem = w.accMem := by
  obtain ⟨_, _, _, _, h⟩ := w.countIn_shape b f g n
  rw [h]
@[simp] theorem Wafer.countIn_stkMem (w : Wafer) (b : Nat) (f g : Fld) (n : Nat) : (w.countIn b f g n).stkMem = w.stkMem := by
  obtain ⟨_, _, _, _, h⟩ := w.countIn_shape b f g n
  rw [h]
@[simp] theorem Wafer.countIn_chamber (w : Wafer) (b : Nat) (f g : Fld) (n : Nat) : (w.countIn b f g n).chamber = w.chamber := by
  obtain ⟨_, _, _, _, h⟩ := w.countIn_shape b f g n
  rw [h]
@[simp] theorem Wafer.countIn_fwMem (w : Wafer) (b : Nat) (f g : Fld) (n : Nat) : (w.countIn b f g n).fwMem = w.fwMem := by
  obtain ⟨_, _, _, _, h⟩ := w.countIn_shape b f g n
  rw [h]
@[simp] theorem Wafer.countIn_cores (w : Wafer) (b : Nat) (f g : Fld) (n : Nat) : (w.countIn b f g n).cores = w.cores := by
  obtain ⟨_, _, _, _, h⟩ := w.countIn_shape b f g n
  rw [h]
@[simp] theorem Wafer.countIn_coresLost (w : Wafer) (b : Nat) (f g : Fld) (n : Nat) : (w.countIn b f g n).coresLost = w.coresLost := by
  obtain ⟨_, _, _, _, h⟩ := w.countIn_shape b f g n
  rw [h]
@[simp] theorem Wafer.countIn_engines (w : Wafer) (b : Nat) (f g : Fld) (n : Nat) : (w.countIn b f g n).engines = w.engines := by
  obtain ⟨_, _, _, _, h⟩ := w.countIn_shape b f g n
  rw [h]
@[simp] theorem Wafer.countIn_gmes (w : Wafer) (b : Nat) (f g : Fld) (n : Nat) : (w.countIn b f g n).gmes = w.gmes := by
  obtain ⟨_, _, _, _, h⟩ := w.countIn_shape b f g n
  rw [h]
@[simp] theorem Wafer.countIn_tiers (w : Wafer) (b : Nat) (f g : Fld) (n : Nat) : (w.countIn b f g n).tiers = w.tiers := by
  obtain ⟨_, _, _, _, h⟩ := w.countIn_shape b f g n
  rw [h]
@[simp] theorem Wafer.countIn_canal (w : Wafer) (b : Nat) (f g : Fld) (n : Nat) : (w.countIn b f g n).canal = w.canal := by
  obtain ⟨_, _, _, _, h⟩ := w.countIn_shape b f g n
  rw [h]
@[simp] theorem Wafer.countIn_stackRecs (w : Wafer) (b : Nat) (f g : Fld) (n : Nat) : (w.countIn b f g n).stackRecs = w.stackRecs := by
  obtain ⟨_, _, _, _, h⟩ := w.countIn_shape b f g n
  rw [h]
@[simp] theorem Wafer.countIn_reservoir (w : Wafer) (b : Nat) (f g : Fld) (n : Nat) : (w.countIn b f g n).reservoir = w.reservoir := by
  obtain ⟨_, _, _, _, h⟩ := w.countIn_shape b f g n
  rw [h]
@[simp] theorem Wafer.countIn_ports (w : Wafer) (b : Nat) (f g : Fld) (n : Nat) : (w.countIn b f g n).ports = w.ports := by
  obtain ⟨_, _, _, _, h⟩ := w.countIn_shape b f g n
  rw [h]
@[simp] theorem Wafer.countIn_ingest (w : Wafer) (b : Nat) (f g : Fld) (n : Nat) : (w.countIn b f g n).ingest = w.ingest := by
  obtain ⟨_, _, _, _, h⟩ := w.countIn_shape b f g n
  rw [h]
@[simp] theorem Wafer.countIn_reduce (w : Wafer) (b : Nat) (f g : Fld) (n : Nat) : (w.countIn b f g n).reduce = w.reduce := by
  obtain ⟨_, _, _, _, h⟩ := w.countIn_shape b f g n
  rw [h]
@[simp] theorem Wafer.countIn_time (w : Wafer) (b : Nat) (f g : Fld) (n : Nat) : (w.countIn b f g n).time = w.time := by
  obtain ⟨_, _, _, _, h⟩ := w.countIn_shape b f g n
  rw [h]
@[simp] theorem Wafer.countIn_fences (w : Wafer) (b : Nat) (f g : Fld) (n : Nat) : (w.countIn b f g n).fences = w.fences := by
  obtain ⟨_, _, _, _, h⟩ := w.countIn_shape b f g n
  rw [h]
@[simp] theorem Wafer.countIn_fenceSerial (w : Wafer) (b : Nat) (f g : Fld) (n : Nat) : (w.countIn b f g n).fenceSerial = w.fenceSerial := by
  obtain ⟨_, _, _, _, h⟩ := w.countIn_shape b f g n
  rw [h]
@[simp] theorem Wafer.countIn_raised (w : Wafer) (b : Nat) (f g : Fld) (n : Nat) : (w.countIn b f g n).raised = w.raised := by
  obtain ⟨_, _, _, _, h⟩ := w.countIn_shape b f g n
  rw [h]
@[simp] theorem Wafer.countIn_job (w : Wafer) (b : Nat) (f g : Fld) (n : Nat) : (w.countIn b f g n).job = w.job := by
  obtain ⟨_, _, _, _, h⟩ := w.countIn_shape b f g n
  rw [h]
@[simp] theorem Wafer.countIn_power (w : Wafer) (b : Nat) (f g : Fld) (n : Nat) : (w.countIn b f g n).power = w.power := by
  obtain ⟨_, _, _, _, h⟩ := w.countIn_shape b f g n
  rw [h]
@[simp] theorem Wafer.countIn_health (w : Wafer) (b : Nat) (f g : Fld) (n : Nat) : (w.countIn b f g n).health = w.health := by
  obtain ⟨_, _, _, _, h⟩ := w.countIn_shape b f g n
  rw [h]
@[simp] theorem Wafer.countIn_free (w : Wafer) (b : Nat) (f g : Fld) (n : Nat) : (w.countIn b f g n).free = w.free := by
  obtain ⟨_, _, _, _, h⟩ := w.countIn_shape b f g n
  rw [h]

/-! ### count -/
theorem Wafer.count_shape (w : Wafer) (b : Nat) (f : Fld) (n : Nat) : ∃ r s c o, w.count b f n = { w with regs := r, shp := s, cmd := c, out := o } := by
  exact w.countIn_shape b f f.ovf n
@[simp] theorem Wafer.count_coreMem (w : Wafer) (b : Nat) (f : Fld) (n : Nat) : (w.count b f n).coreMem = w.coreMem := by
  obtain ⟨_, _, _, _, h⟩ := w.count_shape b f n
  rw [h]
@[simp] theorem Wafer.count_cluMem (w : Wafer) (b : Nat) (f : Fld) (n : Nat) : (w.count b f n).cluMem = w.cluMem := by
  obtain ⟨_, _, _, _, h⟩ := w.count_shape b f n
  rw [h]
@[simp] theorem Wafer.count_accMem (w : Wafer) (b : Nat) (f : Fld) (n : Nat) : (w.count b f n).accMem = w.accMem := by
  obtain ⟨_, _, _, _, h⟩ := w.count_shape b f n
  rw [h]
@[simp] theorem Wafer.count_stkMem (w : Wafer) (b : Nat) (f : Fld) (n : Nat) : (w.count b f n).stkMem = w.stkMem := by
  obtain ⟨_, _, _, _, h⟩ := w.count_shape b f n
  rw [h]
@[simp] theorem Wafer.count_chamber (w : Wafer) (b : Nat) (f : Fld) (n : Nat) : (w.count b f n).chamber = w.chamber := by
  obtain ⟨_, _, _, _, h⟩ := w.count_shape b f n
  rw [h]
@[simp] theorem Wafer.count_fwMem (w : Wafer) (b : Nat) (f : Fld) (n : Nat) : (w.count b f n).fwMem = w.fwMem := by
  obtain ⟨_, _, _, _, h⟩ := w.count_shape b f n
  rw [h]
@[simp] theorem Wafer.count_cores (w : Wafer) (b : Nat) (f : Fld) (n : Nat) : (w.count b f n).cores = w.cores := by
  obtain ⟨_, _, _, _, h⟩ := w.count_shape b f n
  rw [h]
@[simp] theorem Wafer.count_coresLost (w : Wafer) (b : Nat) (f : Fld) (n : Nat) : (w.count b f n).coresLost = w.coresLost := by
  obtain ⟨_, _, _, _, h⟩ := w.count_shape b f n
  rw [h]
@[simp] theorem Wafer.count_engines (w : Wafer) (b : Nat) (f : Fld) (n : Nat) : (w.count b f n).engines = w.engines := by
  obtain ⟨_, _, _, _, h⟩ := w.count_shape b f n
  rw [h]
@[simp] theorem Wafer.count_gmes (w : Wafer) (b : Nat) (f : Fld) (n : Nat) : (w.count b f n).gmes = w.gmes := by
  obtain ⟨_, _, _, _, h⟩ := w.count_shape b f n
  rw [h]
@[simp] theorem Wafer.count_tiers (w : Wafer) (b : Nat) (f : Fld) (n : Nat) : (w.count b f n).tiers = w.tiers := by
  obtain ⟨_, _, _, _, h⟩ := w.count_shape b f n
  rw [h]
@[simp] theorem Wafer.count_canal (w : Wafer) (b : Nat) (f : Fld) (n : Nat) : (w.count b f n).canal = w.canal := by
  obtain ⟨_, _, _, _, h⟩ := w.count_shape b f n
  rw [h]
@[simp] theorem Wafer.count_stackRecs (w : Wafer) (b : Nat) (f : Fld) (n : Nat) : (w.count b f n).stackRecs = w.stackRecs := by
  obtain ⟨_, _, _, _, h⟩ := w.count_shape b f n
  rw [h]
@[simp] theorem Wafer.count_reservoir (w : Wafer) (b : Nat) (f : Fld) (n : Nat) : (w.count b f n).reservoir = w.reservoir := by
  obtain ⟨_, _, _, _, h⟩ := w.count_shape b f n
  rw [h]
@[simp] theorem Wafer.count_ports (w : Wafer) (b : Nat) (f : Fld) (n : Nat) : (w.count b f n).ports = w.ports := by
  obtain ⟨_, _, _, _, h⟩ := w.count_shape b f n
  rw [h]
@[simp] theorem Wafer.count_ingest (w : Wafer) (b : Nat) (f : Fld) (n : Nat) : (w.count b f n).ingest = w.ingest := by
  obtain ⟨_, _, _, _, h⟩ := w.count_shape b f n
  rw [h]
@[simp] theorem Wafer.count_reduce (w : Wafer) (b : Nat) (f : Fld) (n : Nat) : (w.count b f n).reduce = w.reduce := by
  obtain ⟨_, _, _, _, h⟩ := w.count_shape b f n
  rw [h]
@[simp] theorem Wafer.count_time (w : Wafer) (b : Nat) (f : Fld) (n : Nat) : (w.count b f n).time = w.time := by
  obtain ⟨_, _, _, _, h⟩ := w.count_shape b f n
  rw [h]
@[simp] theorem Wafer.count_fences (w : Wafer) (b : Nat) (f : Fld) (n : Nat) : (w.count b f n).fences = w.fences := by
  obtain ⟨_, _, _, _, h⟩ := w.count_shape b f n
  rw [h]
@[simp] theorem Wafer.count_fenceSerial (w : Wafer) (b : Nat) (f : Fld) (n : Nat) : (w.count b f n).fenceSerial = w.fenceSerial := by
  obtain ⟨_, _, _, _, h⟩ := w.count_shape b f n
  rw [h]
@[simp] theorem Wafer.count_raised (w : Wafer) (b : Nat) (f : Fld) (n : Nat) : (w.count b f n).raised = w.raised := by
  obtain ⟨_, _, _, _, h⟩ := w.count_shape b f n
  rw [h]
@[simp] theorem Wafer.count_job (w : Wafer) (b : Nat) (f : Fld) (n : Nat) : (w.count b f n).job = w.job := by
  obtain ⟨_, _, _, _, h⟩ := w.count_shape b f n
  rw [h]
@[simp] theorem Wafer.count_power (w : Wafer) (b : Nat) (f : Fld) (n : Nat) : (w.count b f n).power = w.power := by
  obtain ⟨_, _, _, _, h⟩ := w.count_shape b f n
  rw [h]
@[simp] theorem Wafer.count_health (w : Wafer) (b : Nat) (f : Fld) (n : Nat) : (w.count b f n).health = w.health := by
  obtain ⟨_, _, _, _, h⟩ := w.count_shape b f n
  rw [h]
@[simp] theorem Wafer.count_free (w : Wafer) (b : Nat) (f : Fld) (n : Nat) : (w.count b f n).free = w.free := by
  obtain ⟨_, _, _, _, h⟩ := w.count_shape b f n
  rw [h]

/-! ### tallyPut -/
theorem Wafer.tallyPut_shape (w : Wafer) (e : TallyEntry) : ∃ r s, w.tallyPut e = { w with regs := r, shp := s } := by
  unfold Wafer.tallyPut
  exact ⟨_, _, rfl⟩
@[simp] theorem Wafer.tallyPut_coreMem (w : Wafer) (e : TallyEntry) : (w.tallyPut e).coreMem = w.coreMem := by
  obtain ⟨_, _, h⟩ := w.tallyPut_shape e
  rw [h]
@[simp] theorem Wafer.tallyPut_cluMem (w : Wafer) (e : TallyEntry) : (w.tallyPut e).cluMem = w.cluMem := by
  obtain ⟨_, _, h⟩ := w.tallyPut_shape e
  rw [h]
@[simp] theorem Wafer.tallyPut_accMem (w : Wafer) (e : TallyEntry) : (w.tallyPut e).accMem = w.accMem := by
  obtain ⟨_, _, h⟩ := w.tallyPut_shape e
  rw [h]
@[simp] theorem Wafer.tallyPut_stkMem (w : Wafer) (e : TallyEntry) : (w.tallyPut e).stkMem = w.stkMem := by
  obtain ⟨_, _, h⟩ := w.tallyPut_shape e
  rw [h]
@[simp] theorem Wafer.tallyPut_chamber (w : Wafer) (e : TallyEntry) : (w.tallyPut e).chamber = w.chamber := by
  obtain ⟨_, _, h⟩ := w.tallyPut_shape e
  rw [h]
@[simp] theorem Wafer.tallyPut_fwMem (w : Wafer) (e : TallyEntry) : (w.tallyPut e).fwMem = w.fwMem := by
  obtain ⟨_, _, h⟩ := w.tallyPut_shape e
  rw [h]
@[simp] theorem Wafer.tallyPut_cores (w : Wafer) (e : TallyEntry) : (w.tallyPut e).cores = w.cores := by
  obtain ⟨_, _, h⟩ := w.tallyPut_shape e
  rw [h]
@[simp] theorem Wafer.tallyPut_coresLost (w : Wafer) (e : TallyEntry) : (w.tallyPut e).coresLost = w.coresLost := by
  obtain ⟨_, _, h⟩ := w.tallyPut_shape e
  rw [h]
@[simp] theorem Wafer.tallyPut_engines (w : Wafer) (e : TallyEntry) : (w.tallyPut e).engines = w.engines := by
  obtain ⟨_, _, h⟩ := w.tallyPut_shape e
  rw [h]
@[simp] theorem Wafer.tallyPut_gmes (w : Wafer) (e : TallyEntry) : (w.tallyPut e).gmes = w.gmes := by
  obtain ⟨_, _, h⟩ := w.tallyPut_shape e
  rw [h]
@[simp] theorem Wafer.tallyPut_tiers (w : Wafer) (e : TallyEntry) : (w.tallyPut e).tiers = w.tiers := by
  obtain ⟨_, _, h⟩ := w.tallyPut_shape e
  rw [h]
@[simp] theorem Wafer.tallyPut_canal (w : Wafer) (e : TallyEntry) : (w.tallyPut e).canal = w.canal := by
  obtain ⟨_, _, h⟩ := w.tallyPut_shape e
  rw [h]
@[simp] theorem Wafer.tallyPut_stackRecs (w : Wafer) (e : TallyEntry) : (w.tallyPut e).stackRecs = w.stackRecs := by
  obtain ⟨_, _, h⟩ := w.tallyPut_shape e
  rw [h]
@[simp] theorem Wafer.tallyPut_reservoir (w : Wafer) (e : TallyEntry) : (w.tallyPut e).reservoir = w.reservoir := by
  obtain ⟨_, _, h⟩ := w.tallyPut_shape e
  rw [h]
@[simp] theorem Wafer.tallyPut_ports (w : Wafer) (e : TallyEntry) : (w.tallyPut e).ports = w.ports := by
  obtain ⟨_, _, h⟩ := w.tallyPut_shape e
  rw [h]
@[simp] theorem Wafer.tallyPut_ingest (w : Wafer) (e : TallyEntry) : (w.tallyPut e).ingest = w.ingest := by
  obtain ⟨_, _, h⟩ := w.tallyPut_shape e
  rw [h]
@[simp] theorem Wafer.tallyPut_reduce (w : Wafer) (e : TallyEntry) : (w.tallyPut e).reduce = w.reduce := by
  obtain ⟨_, _, h⟩ := w.tallyPut_shape e
  rw [h]
@[simp] theorem Wafer.tallyPut_time (w : Wafer) (e : TallyEntry) : (w.tallyPut e).time = w.time := by
  obtain ⟨_, _, h⟩ := w.tallyPut_shape e
  rw [h]
@[simp] theorem Wafer.tallyPut_fences (w : Wafer) (e : TallyEntry) : (w.tallyPut e).fences = w.fences := by
  obtain ⟨_, _, h⟩ := w.tallyPut_shape e
  rw [h]
@[simp] theorem Wafer.tallyPut_fenceSerial (w : Wafer) (e : TallyEntry) : (w.tallyPut e).fenceSerial = w.fenceSerial := by
  obtain ⟨_, _, h⟩ := w.tallyPut_shape e
  rw [h]
@[simp] theorem Wafer.tallyPut_raised (w : Wafer) (e : TallyEntry) : (w.tallyPut e).raised = w.raised := by
  obtain ⟨_, _, h⟩ := w.tallyPut_shape e
  rw [h]
@[simp] theorem Wafer.tallyPut_cmd (w : Wafer) (e : TallyEntry) : (w.tallyPut e).cmd = w.cmd := by
  obtain ⟨_, _, h⟩ := w.tallyPut_shape e
  rw [h]
@[simp] theorem Wafer.tallyPut_job (w : Wafer) (e : TallyEntry) : (w.tallyPut e).job = w.job := by
  obtain ⟨_, _, h⟩ := w.tallyPut_shape e
  rw [h]
@[simp] theorem Wafer.tallyPut_power (w : Wafer) (e : TallyEntry) : (w.tallyPut e).power = w.power := by
  obtain ⟨_, _, h⟩ := w.tallyPut_shape e
  rw [h]
@[simp] theorem Wafer.tallyPut_health (w : Wafer) (e : TallyEntry) : (w.tallyPut e).health = w.health := by
  obtain ⟨_, _, h⟩ := w.tallyPut_shape e
  rw [h]
@[simp] theorem Wafer.tallyPut_out (w : Wafer) (e : TallyEntry) : (w.tallyPut e).out = w.out := by
  obtain ⟨_, _, h⟩ := w.tallyPut_shape e
  rw [h]
@[simp] theorem Wafer.tallyPut_free (w : Wafer) (e : TallyEntry) : (w.tallyPut e).free = w.free := by
  obtain ⟨_, _, h⟩ := w.tallyPut_shape e
  rw [h]

/-! ### tallyGap -/
theorem Wafer.tallyGap_shape (w : Wafer) : ∃ r s, w.tallyGap = { w with regs := r, shp := s } := by
  unfold Wafer.tallyGap
  split
  · exact ⟨_, _, rfl⟩
  · dsimp only
    obtain ⟨r, s, h⟩ := w.tallyPut_shape
      ⟨w.rd secBase Reg.secTallyNext, if w.shp.tallyLost = 0 then w.tick else w.shp.tallyLostTick, 6, 6, w.wall, 0, 0, w.shp.tallyLost, 0, 0, 0⟩
    rw [h]
    exact ⟨_, _, rfl⟩
@[simp] theorem Wafer.tallyGap_coreMem (w : Wafer) : (w.tallyGap).coreMem = w.coreMem := by
  obtain ⟨_, _, h⟩ := w.tallyGap_shape
  rw [h]
@[simp] theorem Wafer.tallyGap_cluMem (w : Wafer) : (w.tallyGap).cluMem = w.cluMem := by
  obtain ⟨_, _, h⟩ := w.tallyGap_shape
  rw [h]
@[simp] theorem Wafer.tallyGap_accMem (w : Wafer) : (w.tallyGap).accMem = w.accMem := by
  obtain ⟨_, _, h⟩ := w.tallyGap_shape
  rw [h]
@[simp] theorem Wafer.tallyGap_stkMem (w : Wafer) : (w.tallyGap).stkMem = w.stkMem := by
  obtain ⟨_, _, h⟩ := w.tallyGap_shape
  rw [h]
@[simp] theorem Wafer.tallyGap_chamber (w : Wafer) : (w.tallyGap).chamber = w.chamber := by
  obtain ⟨_, _, h⟩ := w.tallyGap_shape
  rw [h]
@[simp] theorem Wafer.tallyGap_fwMem (w : Wafer) : (w.tallyGap).fwMem = w.fwMem := by
  obtain ⟨_, _, h⟩ := w.tallyGap_shape
  rw [h]
@[simp] theorem Wafer.tallyGap_cores (w : Wafer) : (w.tallyGap).cores = w.cores := by
  obtain ⟨_, _, h⟩ := w.tallyGap_shape
  rw [h]
@[simp] theorem Wafer.tallyGap_coresLost (w : Wafer) : (w.tallyGap).coresLost = w.coresLost := by
  obtain ⟨_, _, h⟩ := w.tallyGap_shape
  rw [h]
@[simp] theorem Wafer.tallyGap_engines (w : Wafer) : (w.tallyGap).engines = w.engines := by
  obtain ⟨_, _, h⟩ := w.tallyGap_shape
  rw [h]
@[simp] theorem Wafer.tallyGap_gmes (w : Wafer) : (w.tallyGap).gmes = w.gmes := by
  obtain ⟨_, _, h⟩ := w.tallyGap_shape
  rw [h]
@[simp] theorem Wafer.tallyGap_tiers (w : Wafer) : (w.tallyGap).tiers = w.tiers := by
  obtain ⟨_, _, h⟩ := w.tallyGap_shape
  rw [h]
@[simp] theorem Wafer.tallyGap_canal (w : Wafer) : (w.tallyGap).canal = w.canal := by
  obtain ⟨_, _, h⟩ := w.tallyGap_shape
  rw [h]
@[simp] theorem Wafer.tallyGap_stackRecs (w : Wafer) : (w.tallyGap).stackRecs = w.stackRecs := by
  obtain ⟨_, _, h⟩ := w.tallyGap_shape
  rw [h]
@[simp] theorem Wafer.tallyGap_reservoir (w : Wafer) : (w.tallyGap).reservoir = w.reservoir := by
  obtain ⟨_, _, h⟩ := w.tallyGap_shape
  rw [h]
@[simp] theorem Wafer.tallyGap_ports (w : Wafer) : (w.tallyGap).ports = w.ports := by
  obtain ⟨_, _, h⟩ := w.tallyGap_shape
  rw [h]
@[simp] theorem Wafer.tallyGap_ingest (w : Wafer) : (w.tallyGap).ingest = w.ingest := by
  obtain ⟨_, _, h⟩ := w.tallyGap_shape
  rw [h]
@[simp] theorem Wafer.tallyGap_reduce (w : Wafer) : (w.tallyGap).reduce = w.reduce := by
  obtain ⟨_, _, h⟩ := w.tallyGap_shape
  rw [h]
@[simp] theorem Wafer.tallyGap_time (w : Wafer) : (w.tallyGap).time = w.time := by
  obtain ⟨_, _, h⟩ := w.tallyGap_shape
  rw [h]
@[simp] theorem Wafer.tallyGap_fences (w : Wafer) : (w.tallyGap).fences = w.fences := by
  obtain ⟨_, _, h⟩ := w.tallyGap_shape
  rw [h]
@[simp] theorem Wafer.tallyGap_fenceSerial (w : Wafer) : (w.tallyGap).fenceSerial = w.fenceSerial := by
  obtain ⟨_, _, h⟩ := w.tallyGap_shape
  rw [h]
@[simp] theorem Wafer.tallyGap_raised (w : Wafer) : (w.tallyGap).raised = w.raised := by
  obtain ⟨_, _, h⟩ := w.tallyGap_shape
  rw [h]
@[simp] theorem Wafer.tallyGap_cmd (w : Wafer) : (w.tallyGap).cmd = w.cmd := by
  obtain ⟨_, _, h⟩ := w.tallyGap_shape
  rw [h]
@[simp] theorem Wafer.tallyGap_job (w : Wafer) : (w.tallyGap).job = w.job := by
  obtain ⟨_, _, h⟩ := w.tallyGap_shape
  rw [h]
@[simp] theorem Wafer.tallyGap_power (w : Wafer) : (w.tallyGap).power = w.power := by
  obtain ⟨_, _, h⟩ := w.tallyGap_shape
  rw [h]
@[simp] theorem Wafer.tallyGap_health (w : Wafer) : (w.tallyGap).health = w.health := by
  obtain ⟨_, _, h⟩ := w.tallyGap_shape
  rw [h]
@[simp] theorem Wafer.tallyGap_out (w : Wafer) : (w.tallyGap).out = w.out := by
  obtain ⟨_, _, h⟩ := w.tallyGap_shape
  rw [h]
@[simp] theorem Wafer.tallyGap_free (w : Wafer) : (w.tallyGap).free = w.free := by
  obtain ⟨_, _, h⟩ := w.tallyGap_shape
  rw [h]

/-! ### tallyAt -/
theorem Wafer.tallyAt_shape (w : Wafer) (n a b d e f g x y : Nat) : ∃ r s, w.tallyAt n a b d e f g x y = { w with regs := r, shp := s } := by
  unfold Wafer.tallyAt
  dsimp only
  obtain ⟨r, s, h⟩ := w.tallyGap_shape
  split
  · rw [h]
    exact ⟨_, _, rfl⟩
  · obtain ⟨r', s', h'⟩ := w.tallyGap.tallyPut_shape
      ⟨w.tallyGap.rd secBase Reg.secTallyNext, n, a, b, w.tallyGap.wall, d, e, f, g, x, y⟩
    rw [h', h]
    exact ⟨_, _, rfl⟩
@[simp] theorem Wafer.tallyAt_coreMem (w : Wafer) (n a b d e f g x y : Nat) : (w.tallyAt n a b d e f g x y).coreMem = w.coreMem := by
  obtain ⟨_, _, h⟩ := w.tallyAt_shape n a b d e f g x y
  rw [h]
@[simp] theorem Wafer.tallyAt_cluMem (w : Wafer) (n a b d e f g x y : Nat) : (w.tallyAt n a b d e f g x y).cluMem = w.cluMem := by
  obtain ⟨_, _, h⟩ := w.tallyAt_shape n a b d e f g x y
  rw [h]
@[simp] theorem Wafer.tallyAt_accMem (w : Wafer) (n a b d e f g x y : Nat) : (w.tallyAt n a b d e f g x y).accMem = w.accMem := by
  obtain ⟨_, _, h⟩ := w.tallyAt_shape n a b d e f g x y
  rw [h]
@[simp] theorem Wafer.tallyAt_stkMem (w : Wafer) (n a b d e f g x y : Nat) : (w.tallyAt n a b d e f g x y).stkMem = w.stkMem := by
  obtain ⟨_, _, h⟩ := w.tallyAt_shape n a b d e f g x y
  rw [h]
@[simp] theorem Wafer.tallyAt_chamber (w : Wafer) (n a b d e f g x y : Nat) : (w.tallyAt n a b d e f g x y).chamber = w.chamber := by
  obtain ⟨_, _, h⟩ := w.tallyAt_shape n a b d e f g x y
  rw [h]
@[simp] theorem Wafer.tallyAt_fwMem (w : Wafer) (n a b d e f g x y : Nat) : (w.tallyAt n a b d e f g x y).fwMem = w.fwMem := by
  obtain ⟨_, _, h⟩ := w.tallyAt_shape n a b d e f g x y
  rw [h]
@[simp] theorem Wafer.tallyAt_cores (w : Wafer) (n a b d e f g x y : Nat) : (w.tallyAt n a b d e f g x y).cores = w.cores := by
  obtain ⟨_, _, h⟩ := w.tallyAt_shape n a b d e f g x y
  rw [h]
@[simp] theorem Wafer.tallyAt_coresLost (w : Wafer) (n a b d e f g x y : Nat) : (w.tallyAt n a b d e f g x y).coresLost = w.coresLost := by
  obtain ⟨_, _, h⟩ := w.tallyAt_shape n a b d e f g x y
  rw [h]
@[simp] theorem Wafer.tallyAt_engines (w : Wafer) (n a b d e f g x y : Nat) : (w.tallyAt n a b d e f g x y).engines = w.engines := by
  obtain ⟨_, _, h⟩ := w.tallyAt_shape n a b d e f g x y
  rw [h]
@[simp] theorem Wafer.tallyAt_gmes (w : Wafer) (n a b d e f g x y : Nat) : (w.tallyAt n a b d e f g x y).gmes = w.gmes := by
  obtain ⟨_, _, h⟩ := w.tallyAt_shape n a b d e f g x y
  rw [h]
@[simp] theorem Wafer.tallyAt_tiers (w : Wafer) (n a b d e f g x y : Nat) : (w.tallyAt n a b d e f g x y).tiers = w.tiers := by
  obtain ⟨_, _, h⟩ := w.tallyAt_shape n a b d e f g x y
  rw [h]
@[simp] theorem Wafer.tallyAt_canal (w : Wafer) (n a b d e f g x y : Nat) : (w.tallyAt n a b d e f g x y).canal = w.canal := by
  obtain ⟨_, _, h⟩ := w.tallyAt_shape n a b d e f g x y
  rw [h]
@[simp] theorem Wafer.tallyAt_stackRecs (w : Wafer) (n a b d e f g x y : Nat) : (w.tallyAt n a b d e f g x y).stackRecs = w.stackRecs := by
  obtain ⟨_, _, h⟩ := w.tallyAt_shape n a b d e f g x y
  rw [h]
@[simp] theorem Wafer.tallyAt_reservoir (w : Wafer) (n a b d e f g x y : Nat) : (w.tallyAt n a b d e f g x y).reservoir = w.reservoir := by
  obtain ⟨_, _, h⟩ := w.tallyAt_shape n a b d e f g x y
  rw [h]
@[simp] theorem Wafer.tallyAt_ports (w : Wafer) (n a b d e f g x y : Nat) : (w.tallyAt n a b d e f g x y).ports = w.ports := by
  obtain ⟨_, _, h⟩ := w.tallyAt_shape n a b d e f g x y
  rw [h]
@[simp] theorem Wafer.tallyAt_ingest (w : Wafer) (n a b d e f g x y : Nat) : (w.tallyAt n a b d e f g x y).ingest = w.ingest := by
  obtain ⟨_, _, h⟩ := w.tallyAt_shape n a b d e f g x y
  rw [h]
@[simp] theorem Wafer.tallyAt_reduce (w : Wafer) (n a b d e f g x y : Nat) : (w.tallyAt n a b d e f g x y).reduce = w.reduce := by
  obtain ⟨_, _, h⟩ := w.tallyAt_shape n a b d e f g x y
  rw [h]
@[simp] theorem Wafer.tallyAt_time (w : Wafer) (n a b d e f g x y : Nat) : (w.tallyAt n a b d e f g x y).time = w.time := by
  obtain ⟨_, _, h⟩ := w.tallyAt_shape n a b d e f g x y
  rw [h]
@[simp] theorem Wafer.tallyAt_fences (w : Wafer) (n a b d e f g x y : Nat) : (w.tallyAt n a b d e f g x y).fences = w.fences := by
  obtain ⟨_, _, h⟩ := w.tallyAt_shape n a b d e f g x y
  rw [h]
@[simp] theorem Wafer.tallyAt_fenceSerial (w : Wafer) (n a b d e f g x y : Nat) : (w.tallyAt n a b d e f g x y).fenceSerial = w.fenceSerial := by
  obtain ⟨_, _, h⟩ := w.tallyAt_shape n a b d e f g x y
  rw [h]
@[simp] theorem Wafer.tallyAt_raised (w : Wafer) (n a b d e f g x y : Nat) : (w.tallyAt n a b d e f g x y).raised = w.raised := by
  obtain ⟨_, _, h⟩ := w.tallyAt_shape n a b d e f g x y
  rw [h]
@[simp] theorem Wafer.tallyAt_cmd (w : Wafer) (n a b d e f g x y : Nat) : (w.tallyAt n a b d e f g x y).cmd = w.cmd := by
  obtain ⟨_, _, h⟩ := w.tallyAt_shape n a b d e f g x y
  rw [h]
@[simp] theorem Wafer.tallyAt_job (w : Wafer) (n a b d e f g x y : Nat) : (w.tallyAt n a b d e f g x y).job = w.job := by
  obtain ⟨_, _, h⟩ := w.tallyAt_shape n a b d e f g x y
  rw [h]
@[simp] theorem Wafer.tallyAt_power (w : Wafer) (n a b d e f g x y : Nat) : (w.tallyAt n a b d e f g x y).power = w.power := by
  obtain ⟨_, _, h⟩ := w.tallyAt_shape n a b d e f g x y
  rw [h]
@[simp] theorem Wafer.tallyAt_health (w : Wafer) (n a b d e f g x y : Nat) : (w.tallyAt n a b d e f g x y).health = w.health := by
  obtain ⟨_, _, h⟩ := w.tallyAt_shape n a b d e f g x y
  rw [h]
@[simp] theorem Wafer.tallyAt_out (w : Wafer) (n a b d e f g x y : Nat) : (w.tallyAt n a b d e f g x y).out = w.out := by
  obtain ⟨_, _, h⟩ := w.tallyAt_shape n a b d e f g x y
  rw [h]
@[simp] theorem Wafer.tallyAt_free (w : Wafer) (n a b d e f g x y : Nat) : (w.tallyAt n a b d e f g x y).free = w.free := by
  obtain ⟨_, _, h⟩ := w.tallyAt_shape n a b d e f g x y
  rw [h]

/-! ### tally -/
theorem Wafer.tally_shape (w : Wafer) (a b d e f g x y : Nat) : ∃ r s, w.tally a b d e f g x y = { w with regs := r, shp := s } := by
  exact w.tallyAt_shape ..
@[simp] theorem Wafer.tally_coreMem (w : Wafer) (a b d e f g x y : Nat) : (w.tally a b d e f g x y).coreMem = w.coreMem := by
  obtain ⟨_, _, h⟩ := w.tally_shape a b d e f g x y
  rw [h]
@[simp] theorem Wafer.tally_cluMem (w : Wafer) (a b d e f g x y : Nat) : (w.tally a b d e f g x y).cluMem = w.cluMem := by
  obtain ⟨_, _, h⟩ := w.tally_shape a b d e f g x y
  rw [h]
@[simp] theorem Wafer.tally_accMem (w : Wafer) (a b d e f g x y : Nat) : (w.tally a b d e f g x y).accMem = w.accMem := by
  obtain ⟨_, _, h⟩ := w.tally_shape a b d e f g x y
  rw [h]
@[simp] theorem Wafer.tally_stkMem (w : Wafer) (a b d e f g x y : Nat) : (w.tally a b d e f g x y).stkMem = w.stkMem := by
  obtain ⟨_, _, h⟩ := w.tally_shape a b d e f g x y
  rw [h]
@[simp] theorem Wafer.tally_chamber (w : Wafer) (a b d e f g x y : Nat) : (w.tally a b d e f g x y).chamber = w.chamber := by
  obtain ⟨_, _, h⟩ := w.tally_shape a b d e f g x y
  rw [h]
@[simp] theorem Wafer.tally_fwMem (w : Wafer) (a b d e f g x y : Nat) : (w.tally a b d e f g x y).fwMem = w.fwMem := by
  obtain ⟨_, _, h⟩ := w.tally_shape a b d e f g x y
  rw [h]
@[simp] theorem Wafer.tally_cores (w : Wafer) (a b d e f g x y : Nat) : (w.tally a b d e f g x y).cores = w.cores := by
  obtain ⟨_, _, h⟩ := w.tally_shape a b d e f g x y
  rw [h]
@[simp] theorem Wafer.tally_coresLost (w : Wafer) (a b d e f g x y : Nat) : (w.tally a b d e f g x y).coresLost = w.coresLost := by
  obtain ⟨_, _, h⟩ := w.tally_shape a b d e f g x y
  rw [h]
@[simp] theorem Wafer.tally_engines (w : Wafer) (a b d e f g x y : Nat) : (w.tally a b d e f g x y).engines = w.engines := by
  obtain ⟨_, _, h⟩ := w.tally_shape a b d e f g x y
  rw [h]
@[simp] theorem Wafer.tally_gmes (w : Wafer) (a b d e f g x y : Nat) : (w.tally a b d e f g x y).gmes = w.gmes := by
  obtain ⟨_, _, h⟩ := w.tally_shape a b d e f g x y
  rw [h]
@[simp] theorem Wafer.tally_tiers (w : Wafer) (a b d e f g x y : Nat) : (w.tally a b d e f g x y).tiers = w.tiers := by
  obtain ⟨_, _, h⟩ := w.tally_shape a b d e f g x y
  rw [h]
@[simp] theorem Wafer.tally_canal (w : Wafer) (a b d e f g x y : Nat) : (w.tally a b d e f g x y).canal = w.canal := by
  obtain ⟨_, _, h⟩ := w.tally_shape a b d e f g x y
  rw [h]
@[simp] theorem Wafer.tally_stackRecs (w : Wafer) (a b d e f g x y : Nat) : (w.tally a b d e f g x y).stackRecs = w.stackRecs := by
  obtain ⟨_, _, h⟩ := w.tally_shape a b d e f g x y
  rw [h]
@[simp] theorem Wafer.tally_reservoir (w : Wafer) (a b d e f g x y : Nat) : (w.tally a b d e f g x y).reservoir = w.reservoir := by
  obtain ⟨_, _, h⟩ := w.tally_shape a b d e f g x y
  rw [h]
@[simp] theorem Wafer.tally_ports (w : Wafer) (a b d e f g x y : Nat) : (w.tally a b d e f g x y).ports = w.ports := by
  obtain ⟨_, _, h⟩ := w.tally_shape a b d e f g x y
  rw [h]
@[simp] theorem Wafer.tally_ingest (w : Wafer) (a b d e f g x y : Nat) : (w.tally a b d e f g x y).ingest = w.ingest := by
  obtain ⟨_, _, h⟩ := w.tally_shape a b d e f g x y
  rw [h]
@[simp] theorem Wafer.tally_reduce (w : Wafer) (a b d e f g x y : Nat) : (w.tally a b d e f g x y).reduce = w.reduce := by
  obtain ⟨_, _, h⟩ := w.tally_shape a b d e f g x y
  rw [h]
@[simp] theorem Wafer.tally_time (w : Wafer) (a b d e f g x y : Nat) : (w.tally a b d e f g x y).time = w.time := by
  obtain ⟨_, _, h⟩ := w.tally_shape a b d e f g x y
  rw [h]
@[simp] theorem Wafer.tally_fences (w : Wafer) (a b d e f g x y : Nat) : (w.tally a b d e f g x y).fences = w.fences := by
  obtain ⟨_, _, h⟩ := w.tally_shape a b d e f g x y
  rw [h]
@[simp] theorem Wafer.tally_fenceSerial (w : Wafer) (a b d e f g x y : Nat) : (w.tally a b d e f g x y).fenceSerial = w.fenceSerial := by
  obtain ⟨_, _, h⟩ := w.tally_shape a b d e f g x y
  rw [h]
@[simp] theorem Wafer.tally_raised (w : Wafer) (a b d e f g x y : Nat) : (w.tally a b d e f g x y).raised = w.raised := by
  obtain ⟨_, _, h⟩ := w.tally_shape a b d e f g x y
  rw [h]
@[simp] theorem Wafer.tally_cmd (w : Wafer) (a b d e f g x y : Nat) : (w.tally a b d e f g x y).cmd = w.cmd := by
  obtain ⟨_, _, h⟩ := w.tally_shape a b d e f g x y
  rw [h]
@[simp] theorem Wafer.tally_job (w : Wafer) (a b d e f g x y : Nat) : (w.tally a b d e f g x y).job = w.job := by
  obtain ⟨_, _, h⟩ := w.tally_shape a b d e f g x y
  rw [h]
@[simp] theorem Wafer.tally_power (w : Wafer) (a b d e f g x y : Nat) : (w.tally a b d e f g x y).power = w.power := by
  obtain ⟨_, _, h⟩ := w.tally_shape a b d e f g x y
  rw [h]
@[simp] theorem Wafer.tally_health (w : Wafer) (a b d e f g x y : Nat) : (w.tally a b d e f g x y).health = w.health := by
  obtain ⟨_, _, h⟩ := w.tally_shape a b d e f g x y
  rw [h]
@[simp] theorem Wafer.tally_out (w : Wafer) (a b d e f g x y : Nat) : (w.tally a b d e f g x y).out = w.out := by
  obtain ⟨_, _, h⟩ := w.tally_shape a b d e f g x y
  rw [h]
@[simp] theorem Wafer.tally_free (w : Wafer) (a b d e f g x y : Nat) : (w.tally a b d e f g x y).free = w.free := by
  obtain ⟨_, _, h⟩ := w.tally_shape a b d e f g x y
  rw [h]

/-! ### tallySelf -/
theorem Wafer.tallySelf_shape (w : Wafer) (r : Nat) : ∃ r' s, w.tallySelf r = { w with regs := r', shp := s } := by
  exact w.tally_shape ..
@[simp] theorem Wafer.tallySelf_coreMem (w : Wafer) (r : Nat) : (w.tallySelf r).coreMem = w.coreMem := by
  obtain ⟨_, _, h⟩ := w.tallySelf_shape r
  rw [h]
@[simp] theorem Wafer.tallySelf_cluMem (w : Wafer) (r : Nat) : (w.tallySelf r).cluMem = w.cluMem := by
  obtain ⟨_, _, h⟩ := w.tallySelf_shape r
  rw [h]
@[simp] theorem Wafer.tallySelf_accMem (w : Wafer) (r : Nat) : (w.tallySelf r).accMem = w.accMem := by
  obtain ⟨_, _, h⟩ := w.tallySelf_shape r
  rw [h]
@[simp] theorem Wafer.tallySelf_stkMem (w : Wafer) (r : Nat) : (w.tallySelf r).stkMem = w.stkMem := by
  obtain ⟨_, _, h⟩ := w.tallySelf_shape r
  rw [h]
@[simp] theorem Wafer.tallySelf_chamber (w : Wafer) (r : Nat) : (w.tallySelf r).chamber = w.chamber := by
  obtain ⟨_, _, h⟩ := w.tallySelf_shape r
  rw [h]
@[simp] theorem Wafer.tallySelf_fwMem (w : Wafer) (r : Nat) : (w.tallySelf r).fwMem = w.fwMem := by
  obtain ⟨_, _, h⟩ := w.tallySelf_shape r
  rw [h]
@[simp] theorem Wafer.tallySelf_cores (w : Wafer) (r : Nat) : (w.tallySelf r).cores = w.cores := by
  obtain ⟨_, _, h⟩ := w.tallySelf_shape r
  rw [h]
@[simp] theorem Wafer.tallySelf_coresLost (w : Wafer) (r : Nat) : (w.tallySelf r).coresLost = w.coresLost := by
  obtain ⟨_, _, h⟩ := w.tallySelf_shape r
  rw [h]
@[simp] theorem Wafer.tallySelf_engines (w : Wafer) (r : Nat) : (w.tallySelf r).engines = w.engines := by
  obtain ⟨_, _, h⟩ := w.tallySelf_shape r
  rw [h]
@[simp] theorem Wafer.tallySelf_gmes (w : Wafer) (r : Nat) : (w.tallySelf r).gmes = w.gmes := by
  obtain ⟨_, _, h⟩ := w.tallySelf_shape r
  rw [h]
@[simp] theorem Wafer.tallySelf_tiers (w : Wafer) (r : Nat) : (w.tallySelf r).tiers = w.tiers := by
  obtain ⟨_, _, h⟩ := w.tallySelf_shape r
  rw [h]
@[simp] theorem Wafer.tallySelf_canal (w : Wafer) (r : Nat) : (w.tallySelf r).canal = w.canal := by
  obtain ⟨_, _, h⟩ := w.tallySelf_shape r
  rw [h]
@[simp] theorem Wafer.tallySelf_stackRecs (w : Wafer) (r : Nat) : (w.tallySelf r).stackRecs = w.stackRecs := by
  obtain ⟨_, _, h⟩ := w.tallySelf_shape r
  rw [h]
@[simp] theorem Wafer.tallySelf_reservoir (w : Wafer) (r : Nat) : (w.tallySelf r).reservoir = w.reservoir := by
  obtain ⟨_, _, h⟩ := w.tallySelf_shape r
  rw [h]
@[simp] theorem Wafer.tallySelf_ports (w : Wafer) (r : Nat) : (w.tallySelf r).ports = w.ports := by
  obtain ⟨_, _, h⟩ := w.tallySelf_shape r
  rw [h]
@[simp] theorem Wafer.tallySelf_ingest (w : Wafer) (r : Nat) : (w.tallySelf r).ingest = w.ingest := by
  obtain ⟨_, _, h⟩ := w.tallySelf_shape r
  rw [h]
@[simp] theorem Wafer.tallySelf_reduce (w : Wafer) (r : Nat) : (w.tallySelf r).reduce = w.reduce := by
  obtain ⟨_, _, h⟩ := w.tallySelf_shape r
  rw [h]
@[simp] theorem Wafer.tallySelf_time (w : Wafer) (r : Nat) : (w.tallySelf r).time = w.time := by
  obtain ⟨_, _, h⟩ := w.tallySelf_shape r
  rw [h]
@[simp] theorem Wafer.tallySelf_fences (w : Wafer) (r : Nat) : (w.tallySelf r).fences = w.fences := by
  obtain ⟨_, _, h⟩ := w.tallySelf_shape r
  rw [h]
@[simp] theorem Wafer.tallySelf_fenceSerial (w : Wafer) (r : Nat) : (w.tallySelf r).fenceSerial = w.fenceSerial := by
  obtain ⟨_, _, h⟩ := w.tallySelf_shape r
  rw [h]
@[simp] theorem Wafer.tallySelf_raised (w : Wafer) (r : Nat) : (w.tallySelf r).raised = w.raised := by
  obtain ⟨_, _, h⟩ := w.tallySelf_shape r
  rw [h]
@[simp] theorem Wafer.tallySelf_cmd (w : Wafer) (r : Nat) : (w.tallySelf r).cmd = w.cmd := by
  obtain ⟨_, _, h⟩ := w.tallySelf_shape r
  rw [h]
@[simp] theorem Wafer.tallySelf_job (w : Wafer) (r : Nat) : (w.tallySelf r).job = w.job := by
  obtain ⟨_, _, h⟩ := w.tallySelf_shape r
  rw [h]
@[simp] theorem Wafer.tallySelf_power (w : Wafer) (r : Nat) : (w.tallySelf r).power = w.power := by
  obtain ⟨_, _, h⟩ := w.tallySelf_shape r
  rw [h]
@[simp] theorem Wafer.tallySelf_health (w : Wafer) (r : Nat) : (w.tallySelf r).health = w.health := by
  obtain ⟨_, _, h⟩ := w.tallySelf_shape r
  rw [h]
@[simp] theorem Wafer.tallySelf_out (w : Wafer) (r : Nat) : (w.tallySelf r).out = w.out := by
  obtain ⟨_, _, h⟩ := w.tallySelf_shape r
  rw [h]
@[simp] theorem Wafer.tallySelf_free (w : Wafer) (r : Nat) : (w.tallySelf r).free = w.free := by
  obtain ⟨_, _, h⟩ := w.tallySelf_shape r
  rw [h]

/-! ### tallyReg -/
theorem Wafer.tallyReg_shape (w : Wafer) (a b d e f : Nat) : ∃ r s, w.tallyReg a b d e f = { w with regs := r, shp := s } := by
  exact w.tally_shape ..
@[simp] theorem Wafer.tallyReg_coreMem (w : Wafer) (a b d e f : Nat) : (w.tallyReg a b d e f).coreMem = w.coreMem := by
  obtain ⟨_, _, h⟩ := w.tallyReg_shape a b d e f
  rw [h]
@[simp] theorem Wafer.tallyReg_cluMem (w : Wafer) (a b d e f : Nat) : (w.tallyReg a b d e f).cluMem = w.cluMem := by
  obtain ⟨_, _, h⟩ := w.tallyReg_shape a b d e f
  rw [h]
@[simp] theorem Wafer.tallyReg_accMem (w : Wafer) (a b d e f : Nat) : (w.tallyReg a b d e f).accMem = w.accMem := by
  obtain ⟨_, _, h⟩ := w.tallyReg_shape a b d e f
  rw [h]
@[simp] theorem Wafer.tallyReg_stkMem (w : Wafer) (a b d e f : Nat) : (w.tallyReg a b d e f).stkMem = w.stkMem := by
  obtain ⟨_, _, h⟩ := w.tallyReg_shape a b d e f
  rw [h]
@[simp] theorem Wafer.tallyReg_chamber (w : Wafer) (a b d e f : Nat) : (w.tallyReg a b d e f).chamber = w.chamber := by
  obtain ⟨_, _, h⟩ := w.tallyReg_shape a b d e f
  rw [h]
@[simp] theorem Wafer.tallyReg_fwMem (w : Wafer) (a b d e f : Nat) : (w.tallyReg a b d e f).fwMem = w.fwMem := by
  obtain ⟨_, _, h⟩ := w.tallyReg_shape a b d e f
  rw [h]
@[simp] theorem Wafer.tallyReg_cores (w : Wafer) (a b d e f : Nat) : (w.tallyReg a b d e f).cores = w.cores := by
  obtain ⟨_, _, h⟩ := w.tallyReg_shape a b d e f
  rw [h]
@[simp] theorem Wafer.tallyReg_coresLost (w : Wafer) (a b d e f : Nat) : (w.tallyReg a b d e f).coresLost = w.coresLost := by
  obtain ⟨_, _, h⟩ := w.tallyReg_shape a b d e f
  rw [h]
@[simp] theorem Wafer.tallyReg_engines (w : Wafer) (a b d e f : Nat) : (w.tallyReg a b d e f).engines = w.engines := by
  obtain ⟨_, _, h⟩ := w.tallyReg_shape a b d e f
  rw [h]
@[simp] theorem Wafer.tallyReg_gmes (w : Wafer) (a b d e f : Nat) : (w.tallyReg a b d e f).gmes = w.gmes := by
  obtain ⟨_, _, h⟩ := w.tallyReg_shape a b d e f
  rw [h]
@[simp] theorem Wafer.tallyReg_tiers (w : Wafer) (a b d e f : Nat) : (w.tallyReg a b d e f).tiers = w.tiers := by
  obtain ⟨_, _, h⟩ := w.tallyReg_shape a b d e f
  rw [h]
@[simp] theorem Wafer.tallyReg_canal (w : Wafer) (a b d e f : Nat) : (w.tallyReg a b d e f).canal = w.canal := by
  obtain ⟨_, _, h⟩ := w.tallyReg_shape a b d e f
  rw [h]
@[simp] theorem Wafer.tallyReg_stackRecs (w : Wafer) (a b d e f : Nat) : (w.tallyReg a b d e f).stackRecs = w.stackRecs := by
  obtain ⟨_, _, h⟩ := w.tallyReg_shape a b d e f
  rw [h]
@[simp] theorem Wafer.tallyReg_reservoir (w : Wafer) (a b d e f : Nat) : (w.tallyReg a b d e f).reservoir = w.reservoir := by
  obtain ⟨_, _, h⟩ := w.tallyReg_shape a b d e f
  rw [h]
@[simp] theorem Wafer.tallyReg_ports (w : Wafer) (a b d e f : Nat) : (w.tallyReg a b d e f).ports = w.ports := by
  obtain ⟨_, _, h⟩ := w.tallyReg_shape a b d e f
  rw [h]
@[simp] theorem Wafer.tallyReg_ingest (w : Wafer) (a b d e f : Nat) : (w.tallyReg a b d e f).ingest = w.ingest := by
  obtain ⟨_, _, h⟩ := w.tallyReg_shape a b d e f
  rw [h]
@[simp] theorem Wafer.tallyReg_reduce (w : Wafer) (a b d e f : Nat) : (w.tallyReg a b d e f).reduce = w.reduce := by
  obtain ⟨_, _, h⟩ := w.tallyReg_shape a b d e f
  rw [h]
@[simp] theorem Wafer.tallyReg_time (w : Wafer) (a b d e f : Nat) : (w.tallyReg a b d e f).time = w.time := by
  obtain ⟨_, _, h⟩ := w.tallyReg_shape a b d e f
  rw [h]
@[simp] theorem Wafer.tallyReg_fences (w : Wafer) (a b d e f : Nat) : (w.tallyReg a b d e f).fences = w.fences := by
  obtain ⟨_, _, h⟩ := w.tallyReg_shape a b d e f
  rw [h]
@[simp] theorem Wafer.tallyReg_fenceSerial (w : Wafer) (a b d e f : Nat) : (w.tallyReg a b d e f).fenceSerial = w.fenceSerial := by
  obtain ⟨_, _, h⟩ := w.tallyReg_shape a b d e f
  rw [h]
@[simp] theorem Wafer.tallyReg_raised (w : Wafer) (a b d e f : Nat) : (w.tallyReg a b d e f).raised = w.raised := by
  obtain ⟨_, _, h⟩ := w.tallyReg_shape a b d e f
  rw [h]
@[simp] theorem Wafer.tallyReg_cmd (w : Wafer) (a b d e f : Nat) : (w.tallyReg a b d e f).cmd = w.cmd := by
  obtain ⟨_, _, h⟩ := w.tallyReg_shape a b d e f
  rw [h]
@[simp] theorem Wafer.tallyReg_job (w : Wafer) (a b d e f : Nat) : (w.tallyReg a b d e f).job = w.job := by
  obtain ⟨_, _, h⟩ := w.tallyReg_shape a b d e f
  rw [h]
@[simp] theorem Wafer.tallyReg_power (w : Wafer) (a b d e f : Nat) : (w.tallyReg a b d e f).power = w.power := by
  obtain ⟨_, _, h⟩ := w.tallyReg_shape a b d e f
  rw [h]
@[simp] theorem Wafer.tallyReg_health (w : Wafer) (a b d e f : Nat) : (w.tallyReg a b d e f).health = w.health := by
  obtain ⟨_, _, h⟩ := w.tallyReg_shape a b d e f
  rw [h]
@[simp] theorem Wafer.tallyReg_out (w : Wafer) (a b d e f : Nat) : (w.tallyReg a b d e f).out = w.out := by
  obtain ⟨_, _, h⟩ := w.tallyReg_shape a b d e f
  rw [h]
@[simp] theorem Wafer.tallyReg_free (w : Wafer) (a b d e f : Nat) : (w.tallyReg a b d e f).free = w.free := by
  obtain ⟨_, _, h⟩ := w.tallyReg_shape a b d e f
  rw [h]

/-! ### engineSync -/
theorem Wafer.engineSync_shape (w : Wafer) (e : Nat) : ∃ r, w.engineSync e = { w with regs := r } := by
  exact w.wrs_shape ..
@[simp] theorem Wafer.engineSync_coreMem (w : Wafer) (e : Nat) : (w.engineSync e).coreMem = w.coreMem := by
  obtain ⟨_, h⟩ := w.engineSync_shape e
  rw [h]
@[simp] theorem Wafer.engineSync_cluMem (w : Wafer) (e : Nat) : (w.engineSync e).cluMem = w.cluMem := by
  obtain ⟨_, h⟩ := w.engineSync_shape e
  rw [h]
@[simp] theorem Wafer.engineSync_accMem (w : Wafer) (e : Nat) : (w.engineSync e).accMem = w.accMem := by
  obtain ⟨_, h⟩ := w.engineSync_shape e
  rw [h]
@[simp] theorem Wafer.engineSync_stkMem (w : Wafer) (e : Nat) : (w.engineSync e).stkMem = w.stkMem := by
  obtain ⟨_, h⟩ := w.engineSync_shape e
  rw [h]
@[simp] theorem Wafer.engineSync_chamber (w : Wafer) (e : Nat) : (w.engineSync e).chamber = w.chamber := by
  obtain ⟨_, h⟩ := w.engineSync_shape e
  rw [h]
@[simp] theorem Wafer.engineSync_fwMem (w : Wafer) (e : Nat) : (w.engineSync e).fwMem = w.fwMem := by
  obtain ⟨_, h⟩ := w.engineSync_shape e
  rw [h]
@[simp] theorem Wafer.engineSync_cores (w : Wafer) (e : Nat) : (w.engineSync e).cores = w.cores := by
  obtain ⟨_, h⟩ := w.engineSync_shape e
  rw [h]
@[simp] theorem Wafer.engineSync_coresLost (w : Wafer) (e : Nat) : (w.engineSync e).coresLost = w.coresLost := by
  obtain ⟨_, h⟩ := w.engineSync_shape e
  rw [h]
@[simp] theorem Wafer.engineSync_engines (w : Wafer) (e : Nat) : (w.engineSync e).engines = w.engines := by
  obtain ⟨_, h⟩ := w.engineSync_shape e
  rw [h]
@[simp] theorem Wafer.engineSync_gmes (w : Wafer) (e : Nat) : (w.engineSync e).gmes = w.gmes := by
  obtain ⟨_, h⟩ := w.engineSync_shape e
  rw [h]
@[simp] theorem Wafer.engineSync_tiers (w : Wafer) (e : Nat) : (w.engineSync e).tiers = w.tiers := by
  obtain ⟨_, h⟩ := w.engineSync_shape e
  rw [h]
@[simp] theorem Wafer.engineSync_canal (w : Wafer) (e : Nat) : (w.engineSync e).canal = w.canal := by
  obtain ⟨_, h⟩ := w.engineSync_shape e
  rw [h]
@[simp] theorem Wafer.engineSync_stackRecs (w : Wafer) (e : Nat) : (w.engineSync e).stackRecs = w.stackRecs := by
  obtain ⟨_, h⟩ := w.engineSync_shape e
  rw [h]
@[simp] theorem Wafer.engineSync_reservoir (w : Wafer) (e : Nat) : (w.engineSync e).reservoir = w.reservoir := by
  obtain ⟨_, h⟩ := w.engineSync_shape e
  rw [h]
@[simp] theorem Wafer.engineSync_ports (w : Wafer) (e : Nat) : (w.engineSync e).ports = w.ports := by
  obtain ⟨_, h⟩ := w.engineSync_shape e
  rw [h]
@[simp] theorem Wafer.engineSync_ingest (w : Wafer) (e : Nat) : (w.engineSync e).ingest = w.ingest := by
  obtain ⟨_, h⟩ := w.engineSync_shape e
  rw [h]
@[simp] theorem Wafer.engineSync_reduce (w : Wafer) (e : Nat) : (w.engineSync e).reduce = w.reduce := by
  obtain ⟨_, h⟩ := w.engineSync_shape e
  rw [h]
@[simp] theorem Wafer.engineSync_time (w : Wafer) (e : Nat) : (w.engineSync e).time = w.time := by
  obtain ⟨_, h⟩ := w.engineSync_shape e
  rw [h]
@[simp] theorem Wafer.engineSync_fences (w : Wafer) (e : Nat) : (w.engineSync e).fences = w.fences := by
  obtain ⟨_, h⟩ := w.engineSync_shape e
  rw [h]
@[simp] theorem Wafer.engineSync_fenceSerial (w : Wafer) (e : Nat) : (w.engineSync e).fenceSerial = w.fenceSerial := by
  obtain ⟨_, h⟩ := w.engineSync_shape e
  rw [h]
@[simp] theorem Wafer.engineSync_raised (w : Wafer) (e : Nat) : (w.engineSync e).raised = w.raised := by
  obtain ⟨_, h⟩ := w.engineSync_shape e
  rw [h]
@[simp] theorem Wafer.engineSync_cmd (w : Wafer) (e : Nat) : (w.engineSync e).cmd = w.cmd := by
  obtain ⟨_, h⟩ := w.engineSync_shape e
  rw [h]
@[simp] theorem Wafer.engineSync_job (w : Wafer) (e : Nat) : (w.engineSync e).job = w.job := by
  obtain ⟨_, h⟩ := w.engineSync_shape e
  rw [h]
@[simp] theorem Wafer.engineSync_shp (w : Wafer) (e : Nat) : (w.engineSync e).shp = w.shp := by
  obtain ⟨_, h⟩ := w.engineSync_shape e
  rw [h]
@[simp] theorem Wafer.engineSync_power (w : Wafer) (e : Nat) : (w.engineSync e).power = w.power := by
  obtain ⟨_, h⟩ := w.engineSync_shape e
  rw [h]
@[simp] theorem Wafer.engineSync_health (w : Wafer) (e : Nat) : (w.engineSync e).health = w.health := by
  obtain ⟨_, h⟩ := w.engineSync_shape e
  rw [h]
@[simp] theorem Wafer.engineSync_out (w : Wafer) (e : Nat) : (w.engineSync e).out = w.out := by
  obtain ⟨_, h⟩ := w.engineSync_shape e
  rw [h]
@[simp] theorem Wafer.engineSync_free (w : Wafer) (e : Nat) : (w.engineSync e).free = w.free := by
  obtain ⟨_, h⟩ := w.engineSync_shape e
  rw [h]

/-! ### Registers -/

theorem Fld.key_at (b : Nat) (f : Fld) : (f.at b).key = (b + f.off) * 64 + f.lo := rfl

@[simp] theorem Wafer.rd_wr (w : Wafer) (b : Nat) (f : Fld) (v : Nat) : (w.wr b f v).rd b f = v % 2 ^ f.len := by
  simp [Wafer.rd, Wafer.wr]

/-- A write of one field leaves every field at another place. -/
theorem Wafer.rd_wr_ne (w : Wafer) (b c : Nat) (f g : Fld) (v : Nat)
    (h : (c + g.off) * 64 + g.lo ≠ (b + f.off) * 64 + f.lo) : (w.wr b f v).rd c g = w.rd c g := by
  simp only [Wafer.rd, Wafer.wr]
  exact mapGet_mapSet_ne _ _ _ _ _ h

/-- Two fields of one block at different places. -/
theorem Wafer.rd_wr_off (w : Wafer) (b : Nat) (f g : Fld) (v : Nat) (h : g.off * 64 + g.lo ≠ f.off * 64 + f.lo) :
    (w.wr b f v).rd b g = w.rd b g := by
  apply Wafer.rd_wr_ne
  omega

/-- What a register reads depends on the registers alone. -/
theorem Wafer.rd_congr {w w' : Wafer} (h : w.regs = w'.regs) (b : Nat) (f : Fld) : w.rd b f = w'.rd b f := by
  simp [Wafer.rd, h]

@[simp] theorem Wafer.wrs_nil (w : Wafer) (b : Nat) : w.wrs b [] = w := rfl
@[simp] theorem Wafer.wrs_cons (w : Wafer) (b : Nat) (e : Fld × Nat) (l : List (Fld × Nat)) :
    w.wrs b (e :: l) = (w.wr b e.1 e.2).wrs b l := rfl

/-- Writing fields of one block leaves every field at another place. -/
theorem Wafer.rd_wrs_ne (w : Wafer) (b c : Nat) (g : Fld) (l : List (Fld × Nat))
    (h : ∀ e ∈ l, (c + g.off) * 64 + g.lo ≠ (b + e.1.off) * 64 + e.1.lo) : (w.wrs b l).rd c g = w.rd c g := by
  induction l generalizing w with
  | nil => rfl
  | cons e l ih =>
    rw [Wafer.wrs_cons, ih _ (fun x hx => h x (List.mem_cons_of_mem _ hx)),
      Wafer.rd_wr_ne _ _ _ _ _ _ (h e (List.mem_cons_self ..))]

/-! Places of registers that a management event may write. -/

/-- Register places that no event, status or counter record writes: outside SHP_EVQ. -/
def clearOfEvq (b : Nat) (f : Fld) : Prop := b + f.off ≠ 0x18

theorem Wafer.rd_queueEvent (w : Wafer) (e : Event) (b : Nat) (f : Fld) (h : clearOfEvq b f) (hl : f.lo < 64) :
    (w.queueEvent e).rd b f = w.rd b f := by
  have hne : ∀ g : Fld, g.off = 0x18 → g.lo < 64 → (b + f.off) * 64 + f.lo ≠ (0 + g.off) * 64 + g.lo := by
    intro g hg hgl
    unfold clearOfEvq at h
    omega
  have h1 := hne Reg.shpEvqQueued rfl (by decide)
  have h2 := hne Reg.shpEvqLost rfl (by decide)
  have h3 := hne Reg.shpEvqLostovf rfl (by decide)
  unfold Wafer.queueEvent
  split
  · rw [Wafer.rd_wr_ne _ _ _ _ _ _ h1]; rfl
  · dsimp only
    split
    · exact Wafer.rd_wr_ne _ _ _ _ _ _ h2
    · split
      · exact Wafer.rd_wr_ne _ _ _ _ _ _ h2
      · rw [Wafer.rd_congr (Wafer.post_regs ..), Wafer.rd_wr_ne _ _ _ _ _ _ h3, Wafer.rd_wr_ne _ _ _ _ _ _ h2]

theorem Wafer.rd_mgmt (w : Wafer) (e : Event) (b : Nat) (f : Fld) (h : clearOfEvq b f) (hl : f.lo < 64) :
    (w.mgmt e).rd b f = w.rd b f := by
  unfold Wafer.mgmt
  split
  · exact Wafer.rd_queueEvent w e b f h hl
  · rfl

theorem Wafer.rd_notify (w : Wafer) (c d : Nat) (b : Nat) (f : Fld) (h : clearOfEvq b f) (hl : f.lo < 64) :
    (w.notify c d).rd b f = w.rd b f := by
  unfold Wafer.notify
  rw [Wafer.rd_congr (Wafer.post_regs ..)]
  exact Wafer.rd_mgmt w _ b f h hl

/-- Counting writes only the counter, its overflow bit and, when it saturates, the event queue. -/
theorem Wafer.rd_count (w : Wafer) (b : Nat) (f : Fld) (n c : Nat) (g : Fld) (hg : clearOfEvq c g) (hl : g.lo < 64)
    (h : (c + g.off) * 64 + g.lo ≠ (b + f.off) * 64 + f.lo) (h' : (c + g.off) * 64 + g.lo ≠ (b + f.off) * 64 + 63) :
    (w.count b f n).rd c g = w.rd c g := by
  have h2 : (c + g.off) * 64 + g.lo ≠ (b + f.ovf.off) * 64 + f.ovf.lo := h'
  unfold Wafer.count Wafer.countIn
  split
  · rfl
  · dsimp only
    split
    · exact Wafer.rd_wr_ne _ _ _ _ _ _ h
    · split
      · exact Wafer.rd_wr_ne _ _ _ _ _ _ h
      · rw [Wafer.rd_notify _ _ _ _ _ hg hl, Wafer.rd_wr_ne _ _ _ _ _ _ h2, Wafer.rd_wr_ne _ _ _ _ _ _ h]

/-- A counter that does not reach its largest value grows by n. -/
theorem Wafer.rd_count_self (w : Wafer) (b : Nat) (f : Fld) (n : Nat) (h : w.rd b f + n < 2 ^ f.len - 1) :
    (w.count b f n).rd b f = w.rd b f + n := by
  unfold Wafer.count Wafer.countIn
  split
  · next h0 => omega
  · dsimp only
    rw [if_pos h, Wafer.rd_wr, Nat.mod_eq_of_lt (by omega)]

@[simp] theorem Wafer.rd_emit (w : Wafer) (e : Emit) (b : Nat) (f : Fld) : (w.emit e).rd b f = w.rd b f := rfl
@[simp] theorem Wafer.rd_post (w : Wafer) (e : Event) (b : Nat) (f : Fld) : (w.post e).rd b f = w.rd b f := rfl
@[simp] theorem Wafer.rd_setCore (w : Wafer) (i : Nat) (c : Core) (b : Nat) (f : Fld) : (w.setCore i c).rd b f = w.rd b f := rfl
@[simp] theorem Wafer.rd_updCore (w : Wafer) (i : Nat) (c : Core → Core) (b : Nat) (f : Fld) : (w.updCore i c).rd b f = w.rd b f := rfl
@[simp] theorem Wafer.rd_setEngine (w : Wafer) (i : Nat) (c : Engine) (b : Nat) (f : Fld) : (w.setEngine i c).rd b f = w.rd b f := rfl
@[simp] theorem Wafer.rd_setGme (w : Wafer) (i : Nat) (c : Gme) (b : Nat) (f : Fld) : (w.setGme i c).rd b f = w.rd b f := rfl
@[simp] theorem Wafer.rd_setTier (w : Wafer) (i : Nat) (c : Tier) (b : Nat) (f : Fld) : (w.setTier i c).rd b f = w.rd b f := rfl
@[simp] theorem Wafer.rd_setStack (w : Wafer) (i : Nat) (c : StackSt) (b : Nat) (f : Fld) : (w.setStack i c).rd b f = w.rd b f := rfl
@[simp] theorem Wafer.rd_setPort (w : Wafer) (i : Nat) (c : Port) (b : Nat) (f : Fld) : (w.setPort i c).rd b f = w.rd b f := rfl
@[simp] theorem Wafer.rd_updPort (w : Wafer) (i : Nat) (c : Port → Port) (b : Nat) (f : Fld) : (w.updPort i c).rd b f = w.rd b f := rfl
@[simp] theorem Wafer.rd_setFieldPower (w : Wafer) (i : Nat) (c : FieldPower) (b : Nat) (f : Fld) : (w.setFieldPower i c).rd b f = w.rd b f := rfl
@[simp] theorem Wafer.rd_setFieldTime (w : Wafer) (i : Nat) (c : FieldTime) (b : Nat) (f : Fld) : (w.setFieldTime i c).rd b f = w.rd b f := rfl
@[simp] theorem Wafer.rd_setPortTime (w : Wafer) (i : Nat) (c : PortTime) (b : Nat) (f : Fld) : (w.setPortTime i c).rd b f = w.rd b f := rfl
@[simp] theorem Wafer.rd_setCmdPort (w : Wafer) (i : Nat) (c : CmdPort) (b : Nat) (f : Fld) : (w.setCmdPort i c).rd b f = w.rd b f := rfl
@[simp] theorem Wafer.rd_setJob (w : Wafer) (j : JobSt) (b : Nat) (f : Fld) : (w.setJob j).rd b f = w.rd b f := rfl
@[simp] theorem Wafer.rd_tallyMiss (w : Wafer) (b : Nat) (f : Fld) : w.tallyMiss.rd b f = w.rd b f := rfl

/-- What a register reads does not depend on Shepherd's state. -/
@[simp] theorem Wafer.rd_shp (w : Wafer) (s : ShpSt) (b : Nat) (f : Fld) : ({ w with shp := s } : Wafer).rd b f = w.rd b f := rfl

/-- Register places that the tally writes: the SEC block and SHP_STAT. -/
def clearOfTally (b : Nat) (f : Fld) : Prop := b + f.off ≠ 8 ∧ ¬ (secBase ≤ b + f.off ∧ b + f.off < secBase + 0x38)

theorem Wafer.tallyPut_writes (w : Wafer) (e : TallyEntry) : ∃ s c0 c1 c2 c3 v, w.tallyPut e =
    ((({ w.wr secBase Reg.secTallyNext (e.index + 1) with shp := s } : Wafer).wrs secBase [(Reg.secTallyhash0Hash, c0),
      (Reg.secTallyhash1Hash, c1), (Reg.secTallyhash2Hash, c2), (Reg.secTallyhash3Hash, c3)]).wr 0 Reg.shpStatTallyfull v) := by
  unfold Wafer.tallyPut
  exact ⟨_, _, _, _, _, _, rfl⟩

theorem Wafer.rd_tallyPut (w : Wafer) (e : TallyEntry) (b : Nat) (f : Fld) (h : clearOfTally b f) (hl : f.lo < 64) :
    (w.tallyPut e).rd b f = w.rd b f := by
  obtain ⟨h1, h2⟩ := h
  obtain ⟨s, c0, c1, c2, c3, v, hw⟩ := w.tallyPut_writes e
  have hn : ∀ x : Fld, secBase ≤ secBase + x.off → secBase + x.off < secBase + 0x38 → x.lo < 64 →
      (b + f.off) * 64 + f.lo ≠ (secBase + x.off) * 64 + x.lo := by
    intro x hx1 hx2 hx3
    omega
  have h8 : (b + f.off) * 64 + f.lo ≠ (0 + Reg.shpStatTallyfull.off) * 64 + Reg.shpStatTallyfull.lo := by
    have h3 : Reg.shpStatTallyfull.off = 8 := rfl
    have h4 : Reg.shpStatTallyfull.lo = 24 := rfl
    omega
  rw [hw, Wafer.rd_wr_ne _ _ _ _ _ _ h8, Wafer.rd_wrs_ne]
  · exact (Wafer.rd_congr rfl b f).trans (Wafer.rd_wr_ne w _ _ _ _ (e.index + 1) (hn _ (by decide) (by decide) (by decide)))
  · intro x hx
    simp only [List.mem_cons, List.not_mem_nil, or_false] at hx
    rcases hx with rfl | rfl | rfl | rfl
    · exact hn Reg.secTallyhash0Hash (by decide) (by decide) (by decide)
    · exact hn Reg.secTallyhash1Hash (by decide) (by decide) (by decide)
    · exact hn Reg.secTallyhash2Hash (by decide) (by decide) (by decide)
    · exact hn Reg.secTallyhash3Hash (by decide) (by decide) (by decide)

theorem Wafer.rd_tallyGap (w : Wafer) (b : Nat) (f : Fld) (h : clearOfTally b f) (hl : f.lo < 64) :
    w.tallyGap.rd b f = w.rd b f := by
  unfold Wafer.tallyGap
  split
  · rfl
  · dsimp only
    rw [Wafer.rd_shp, Wafer.rd_tallyPut _ _ _ _ h hl]

theorem Wafer.rd_tallyAt (w : Wafer) (n p k o s r g x y : Nat) (b : Nat) (f : Fld) (h : clearOfTally b f) (hl : f.lo < 64) :
    (w.tallyAt n p k o s r g x y).rd b f = w.rd b f := by
  unfold Wafer.tallyAt
  dsimp only
  split
  · rw [Wafer.rd_tallyMiss, Wafer.rd_tallyGap _ _ _ h hl]
  · rw [Wafer.rd_tallyPut _ _ _ _ h hl, Wafer.rd_tallyGap _ _ _ h hl]

theorem Wafer.rd_tally (w : Wafer) (p k o s r g x y : Nat) (b : Nat) (f : Fld) (h : clearOfTally b f) (hl : f.lo < 64) :
    (w.tally p k o s r g x y).rd b f = w.rd b f := w.rd_tallyAt _ p k o s r g x y b f h hl

/-! ### Parts by unit -/

@[simp] theorem Wafer.core_setCore (w : Wafer) (i : Nat) (c : Core) : (w.setCore i c).core i = c := by
  simp [Wafer.core, Wafer.setCore]
theorem Wafer.core_setCore_ne (w : Wafer) (i j : Nat) (c : Core) (h : j ≠ i) : (w.setCore i c).core j = w.core j := by
  simp [Wafer.core, Wafer.setCore, mapGet_mapSet_ne _ _ _ _ _ h]
@[simp] theorem Wafer.core_updCore (w : Wafer) (i : Nat) (f : Core → Core) : (w.updCore i f).core i = f (w.core i) := by
  simp [Wafer.updCore]
theorem Wafer.core_updCore_ne (w : Wafer) (i j : Nat) (f : Core → Core) (h : j ≠ i) :
    (w.updCore i f).core j = w.core j := Wafer.core_setCore_ne _ _ _ _ h
theorem Wafer.core_congr {w w' : Wafer} (h : w.cores = w'.cores) (hl : w.coresLost = w'.coresLost) (i : Nat) :
    w.core i = w'.core i := by
  simp [Wafer.core, h, hl]
@[simp] theorem Wafer.engine_setEngine (w : Wafer) (i : Nat) (c : Engine) : (w.setEngine i c).engine i = c := by
  simp [Wafer.engine, Wafer.setEngine]
theorem Wafer.engine_setEngine_ne (w : Wafer) (i j : Nat) (c : Engine) (h : j ≠ i) :
    (w.setEngine i c).engine j = w.engine j := by
  simp [Wafer.engine, Wafer.setEngine, mapGet_mapSet_ne _ _ _ _ _ h]
theorem Wafer.engine_congr {w w' : Wafer} (h : w.engines = w'.engines) (i : Nat) : w.engine i = w'.engine i := by
  simp [Wafer.engine, h]
@[simp] theorem Wafer.gme_setGme (w : Wafer) (i : Nat) (c : Gme) : (w.setGme i c).gme i = c := by simp [Wafer.gme, Wafer.setGme]
theorem Wafer.gme_congr {w w' : Wafer} (h : w.gmes = w'.gmes) (i : Nat) : w.gme i = w'.gme i := by simp [Wafer.gme, h]
@[simp] theorem Wafer.tier_setTier (w : Wafer) (i : Nat) (c : Tier) : (w.setTier i c).tier i = c := by
  simp [Wafer.tier, Wafer.setTier]
theorem Wafer.tier_congr {w w' : Wafer} (h : w.tiers = w'.tiers) (i : Nat) : w.tier i = w'.tier i := by simp [Wafer.tier, h]
@[simp] theorem Wafer.stack_setStack (w : Wafer) (i : Nat) (c : StackSt) : (w.setStack i c).stack i = c := by
  simp [Wafer.stack, Wafer.setStack]
theorem Wafer.stack_congr {w w' : Wafer} (h : w.stackRecs = w'.stackRecs) (i : Nat) : w.stack i = w'.stack i := by
  simp [Wafer.stack, h]
@[simp] theorem Wafer.port_setPort (w : Wafer) (i : Nat) (c : Port) : (w.setPort i c).port i = c := by
  simp [Wafer.port, Wafer.setPort]
@[simp] theorem Wafer.port_updPort (w : Wafer) (i : Nat) (f : Port → Port) : (w.updPort i f).port i = f (w.port i) := by
  simp [Wafer.updPort]
theorem Wafer.port_setPort_ne (w : Wafer) (i j : Nat) (c : Port) (h : j ≠ i) : (w.setPort i c).port j = w.port j := by
  simp [Wafer.port, Wafer.setPort, mapGet_mapSet_ne _ _ _ _ _ h]
theorem Wafer.port_congr {w w' : Wafer} (h : w.ports = w'.ports) (i : Nat) : w.port i = w'.port i := by simp [Wafer.port, h]
@[simp] theorem Wafer.fieldPower_setFieldPower (w : Wafer) (i : Nat) (c : FieldPower) :
    (w.setFieldPower i c).fieldPower i = c := by simp [Wafer.fieldPower, Wafer.setFieldPower]
theorem Wafer.fieldPower_congr {w w' : Wafer} (h : w.power = w'.power) (i : Nat) : w.fieldPower i = w'.fieldPower i := by
  simp [Wafer.fieldPower, h]
@[simp] theorem Wafer.fieldTime_setFieldTime (w : Wafer) (i : Nat) (c : FieldTime) :
    (w.setFieldTime i c).fieldTime i = c := by simp [Wafer.fieldTime, Wafer.setFieldTime]
@[simp] theorem Wafer.portTime_setPortTime (w : Wafer) (i : Nat) (c : PortTime) :
    (w.setPortTime i c).portTime i = c := by simp [Wafer.portTime, Wafer.setPortTime]
@[simp] theorem Wafer.cmdPort_setCmdPort (w : Wafer) (i : Nat) (c : CmdPort) : (w.setCmdPort i c).cmdPort i = c := by
  unfold Wafer.cmdPort Wafer.setCmdPort
  split <;> rfl

/-! ### Outcomes -/

@[simp] theorem State.upd_eq (s : State) (f : Wafer → Wafer) : s.upd f = .next { s with w := f s.w } := rfl
theorem State.updIf_pos (s : State) (ok : Bool) (f : Wafer → Wafer) (h : ok = true) :
    s.updIf ok f = .next { s with w := f s.w } := by simp [State.updIf, h]
theorem State.updIf_neg (s : State) (ok : Bool) (f : Wafer → Wafer) (h : ok = false) :
    s.updIf ok f = .fault .noSuchUnit := by simp [State.updIf, h]

end Sys2Proof.Machine
end

