-- ==== Sys2Proof/Laws/Cores.lean ====
section
/-!
SUPPORT. Sys2Proof/Laws/Cores.lean: what issuing an instruction does (R104, R105), once for every instruction of a core.
-/

namespace Sys2Proof.Machine

theorem siteBase_ge (s : Nat) : 0x4050000 ≤ siteBase s := by
  unfold siteBase fieldBase
  omega

theorem siteBase_clear (s : Nat) (f : Fld) : clearOfEvq (siteBase s) f := by
  have := siteBase_ge s
  unfold clearOfEvq
  omega

/-- Two fields of one site's SEQ block: a write of one leaves the other. -/
theorem Wafer.rd_site_wr (w : Wafer) (s v : Nat) (f g : Fld) (h : g.off * 64 + g.lo ≠ f.off * 64 + f.lo) :
    (w.wr (siteBase s) f v).rd (siteBase s) g = w.rd (siteBase s) g := Wafer.rd_wr_off _ _ _ _ _ h

theorem Wafer.rd_site_count (w : Wafer) (s n : Nat) (f g : Fld) (hl : g.lo < 64) (h : g.off ≠ f.off) (hf : f.lo < 64) :
    (w.count (siteBase s) f n).rd (siteBase s) g = w.rd (siteBase s) g := by
  apply Wafer.rd_count _ _ _ _ _ _ (siteBase_clear s g) hl <;> omega

/-- After an instruction has issued, its pc, held bit and cause are as R105 says and the state of its stage is kept. -/
theorem Wafer.issued_regs (w : Wafer) (s held pc : Nat) :
    (w.issued s held pc).rd (siteBase s) Reg.seqPcPc = pc % 2 ^ 24 ∧
    (w.issued s held pc).rd (siteBase s) Reg.seqStatHeld = 0 ∧
    (w.issued s held pc).rd (siteBase s) Reg.seqStatCause = 0 ∧
    (w.issued s held pc).rd (siteBase s) Reg.seqStatState = w.rd (siteBase s) Reg.seqStatState := by
  unfold Wafer.issued
  dsimp only [Wafer.wrs_cons, Wafer.wrs_nil]
  refine ⟨?_, ?_, ?_, ?_⟩ <;>
    rw [Wafer.rd_site_count _ _ _ _ _ (by decide) (by decide) (by decide),
      Wafer.rd_site_count _ _ _ _ _ (by decide) (by decide) (by decide)]
  · rw [Wafer.rd_wr]; rfl
  · rw [Wafer.rd_site_wr _ _ _ _ _ (by decide), Wafer.rd_site_wr _ _ _ _ _ (by decide), Wafer.rd_wr]
    rfl
  · rw [Wafer.rd_site_wr _ _ _ _ _ (by decide), Wafer.rd_wr]
    rfl
  · rw [Wafer.rd_site_wr _ _ _ _ _ (by decide), Wafer.rd_site_wr _ _ _ _ _ (by decide), Wafer.rd_site_wr _ _ _ _ _ (by decide)]

theorem Wafer.issued_shape (w : Wafer) (s held pc : Nat) :
    ∃ r sh c o, w.issued s held pc = { w with regs := r, shp := sh, cmd := c, out := o } := by
  unfold Wafer.issued
  dsimp only [Wafer.wrs_cons, Wafer.wrs_nil]
  obtain ⟨r, sh, c, o, h⟩ := ((((w.wr (siteBase s) Reg.seqStatHeld 0).wr (siteBase s) Reg.seqStatCause 0).wr (siteBase s)
    Reg.seqPcPc pc)).count_shape (siteBase s) Reg.seqHeld held
  rw [h]
  obtain ⟨r', sh', c', o', h'⟩ := (Wafer.count_shape _ (siteBase s) Reg.seqIssued 1)
  rw [h']
  exact ⟨_, _, _, _, rfl⟩

/-- Issuing writes no register outside the SEQ block. -/
theorem Wafer.issued_sameRegs (w : Wafer) (s held pc : Nat) : w.sameRegsBut (w.issued s held pc) (seqRegs s) := by
  intro b f hl hp
  unfold seqRegs at hp
  have h1 : clearOfEvq b f := by unfold clearOfEvq; omega
  unfold Wafer.issued
  dsimp only [Wafer.wrs_cons, Wafer.wrs_nil]
  rw [Wafer.rd_count _ _ _ _ _ _ h1 hl (by simp only [Reg.seqIssued]; omega) (by simp only [Reg.seqIssued]; omega),
    Wafer.rd_count _ _ _ _ _ _ h1 hl (by simp only [Reg.seqHeld]; omega) (by simp only [Reg.seqHeld]; omega),
    Wafer.rd_wr_ne _ _ _ _ _ _ (by simp only [Reg.seqPcPc]; omega), Wafer.rd_wr_ne _ _ _ _ _ _ (by simp only [Reg.seqStatCause]; omega),
    Wafer.rd_wr_ne _ _ _ _ _ _ (by simp only [Reg.seqStatHeld]; omega)]

/-- What holds of a module that differs from `w` only in cores holds after issue too. -/
theorem Wafer.issuedAt_issued (w : Wafer) (i : Issue) (held pc : Nat) (h : w.rd (siteBase i.site) Reg.seqStatState = 1) :
    (w.issued i.site held pc).issuedAt i pc := by
  obtain ⟨h1, h2, h3, h4⟩ := w.issued_regs i.site held pc
  exact ⟨h1, h2, h3, h4.trans h⟩

/-! ### The five ways an instruction leaves issue -/

theorem runs_coreInstr {i : Issue} {s : State} {unused : Bool} {go : Wafer → Went} {c : Instr} {P : Wafer → Prop}
    (hc : exec c s = coreInstr i s unused go) (hs : i.site < 2240) (h : P (s.w.issue i unused go)) : Runs c s P := by
  refine ⟨_, hc.trans (State.updIf_pos _ _ _ (by simpa using hs)), rfl, h⟩

theorem Wafer.issue_ok {w w' : Wafer} {i : Issue} {unused : Bool} {go : Wafer → Went}
    (h : w.rd (siteBase i.site) Reg.seqStatState = 1 ∧ w.fetchFault i.site (w.pcOf i.site) = none) (hu : unused = false) (hg : go w = .ok w') :
    w.issue i unused go = w'.issued i.site i.held ((w.pcOf i.site + 8) % 2 ^ 24) := by
  subst hu
  simp [Wafer.issue, h.1, h.2, hg]

theorem Wafer.issue_jump {w w' : Wafer} {i : Issue} {unused : Bool} {go : Wafer → Went} {t : Nat}
    (h : w.rd (siteBase i.site) Reg.seqStatState = 1 ∧ w.fetchFault i.site (w.pcOf i.site) = none) (hu : unused = false) (hg : go w = .jump w' t) :
    w.issue i unused go = w'.issued i.site i.held t := by
  subst hu
  simp [Wafer.issue, h.1, h.2, hg]

theorem Wafer.issue_hold {w : Wafer} {i : Issue} {unused : Bool} {go : Wafer → Went} {x : Wait}
    (h : w.rd (siteBase i.site) Reg.seqStatState = 1 ∧ w.fetchFault i.site (w.pcOf i.site) = none) (hu : unused = false) (hg : go w = .hold x) :
    w.issue i unused go = w.heldOn i x := by
  subst hu
  simp [Wafer.issue, h.1, h.2, hg, Wafer.heldOn]

theorem Wafer.issue_fault {w : Wafer} {i : Issue} {unused : Bool} {go : Wafer → Went} {c : Nat}
    (h : w.rd (siteBase i.site) Reg.seqStatState = 1 ∧ w.fetchFault i.site (w.pcOf i.site) = none) (hu : unused = false) (hg : go w = .fault c) :
    w.issue i unused go = w.coreFault i.site c (w.pcOf i.site) := by
  subst hu
  simp [Wafer.issue, h.1, h.2, hg]

theorem Wafer.issue_unused {w : Wafer} {i : Issue} {unused : Bool} {go : Wafer → Went}
    (h : w.rd (siteBase i.site) Reg.seqStatState = 1 ∧ w.fetchFault i.site (w.pcOf i.site) = none) (hu : unused = true) :
    w.issue i unused go = w.coreFault i.site 1 (w.pcOf i.site) := by
  subst hu
  simp [Wafer.issue, h.1, h.2]

theorem Wafer.issue_fetch {w : Wafer} {i : Issue} {unused : Bool} {go : Wafer → Went} {c : Nat}
    (h : w.rd (siteBase i.site) Reg.seqStatState = 1) (hf : w.fetchFault i.site (w.pcOf i.site) = some c) :
    w.issue i unused go = w.fetchStops i.site c (w.pcOf i.site) := by
  simp [Wafer.issue, h, hf]

theorem runs_ok {i : Issue} {s : State} {unused : Bool} {go : Wafer → Went} {c : Instr} {P : Wafer → Prop} {w' : Wafer}
    (hc : exec c s = coreInstr i s unused go) (hs : s.issuing i) (hu : unused = false) (hg : go s.w = .ok w')
    (h : P (w'.issued i.site i.held ((s.w.pcOf i.site + 8) % 2 ^ 24))) : Runs c s P := by
  refine runs_coreInstr hc hs.1 ?_
  rw [Wafer.issue_ok hs.2 hu hg]
  exact h

theorem runs_jump {i : Issue} {s : State} {unused : Bool} {go : Wafer → Went} {c : Instr} {P : Wafer → Prop} {w' : Wafer} {t : Nat}
    (hc : exec c s = coreInstr i s unused go) (hs : s.issuing i) (hu : unused = false) (hg : go s.w = .jump w' t)
    (h : P (w'.issued i.site i.held t)) : Runs c s P := by
  refine runs_coreInstr hc hs.1 ?_
  rw [Wafer.issue_jump hs.2 hu hg]
  exact h

theorem runs_hold {i : Issue} {s : State} {unused : Bool} {go : Wafer → Went} {c : Instr} {P : Wafer → Prop} {x : Wait}
    (hc : exec c s = coreInstr i s unused go) (hs : s.issuing i) (hu : unused = false) (hg : go s.w = .hold x)
    (h : P (s.w.heldOn i x)) :
    Runs c s P := by
  refine runs_coreInstr hc hs.1 ?_
  rw [Wafer.issue_hold hs.2 hu hg]
  exact h

theorem runs_fault {i : Issue} {s : State} {unused : Bool} {go : Wafer → Went} {c : Instr} {k : Nat}
    (hc : exec c s = coreInstr i s unused go) (hs : s.issuing i) (hu : unused = false) (hg : go s.w = .fault k) :
    Runs c s (fun t => t = s.w.coreFault i.site k (s.w.pcOf i.site)) := by
  refine runs_coreInstr hc hs.1 ?_
  rw [Wafer.issue_fault hs.2 hu hg]

theorem runs_unused {i : Issue} {s : State} {unused : Bool} {go : Wafer → Went} {c : Instr}
    (hc : exec c s = coreInstr i s unused go) (hs : s.issuing i) (hu : unused = true) :
    Runs c s (fun t => t = s.w.coreFault i.site 1 (s.w.pcOf i.site)) := by
  refine runs_coreInstr hc hs.1 ?_
  rw [Wafer.issue_unused hs.2 hu]

/-! ### Registers of a core -/

theorem Core.sget_sset (c : Core) (r k : Nat) (v : Word) :
    (c.sset r v).sget k = if k = r ∧ k ≠ 0 then v else c.sget k := by
  unfold Core.sset Core.sget
  by_cases hr : r = 0
  · subst hr
    by_cases hk : k = 0 <;> simp [hk]
  · by_cases hk : k = r
    · subst hk
      simp [hr]
    · simp [hr, hk, mapGet_mapSet_ne _ _ _ _ _ hk]

theorem Core.tookD_sset (c : Core) (r : Nat) (v : Word) : c.tookD (c.sset r v) r v := by
  refine ⟨fun k => Core.sget_sset c r k v, ?_⟩
  unfold Core.sset
  split <;> rfl

theorem Core.tookSem_semSet (c : Core) (k v : Nat) : c.tookSem (c.semSet k v) k v := by
  refine ⟨fun j => ?_, rfl⟩
  unfold Core.semSet Core.semGet
  by_cases h : j = k
  · subst h; simp
  · simp [h, mapGet_mapSet_ne _ _ _ _ _ h]

/-- An instruction that writes sD and issues has the effect `wroteD`. -/
theorem Wafer.wroteD_issued (w : Wafer) (i : Issue) (held : Nat) (v : Word)
    (h : w.rd (siteBase i.site) Reg.seqStatState = 1 ∧ w.fetchFault i.site (w.pcOf i.site) = none) :
    w.wroteD ((w.setD i v).issued i.site held ((w.pcOf i.site + 8) % 2 ^ 24)) i v := by
  obtain ⟨r, sh, c, o, hsh⟩ := (w.setD i v).issued_shape i.site held ((w.pcOf i.site + 8) % 2 ^ 24)
  have hcores : ∀ j, ((w.setD i v).issued i.site held ((w.pcOf i.site + 8) % 2 ^ 24)).core j = (w.setD i v).core j := by
    intro j
    apply Wafer.core_congr <;> rw [hsh]
  refine ⟨?_, ?_, ?_, ?_, ?_, ?_⟩
  · have := (w.setD i v).issuedAt_issued i held ((w.pcOf i.site + 8) % 2 ^ 24) h.1
    unfold Wafer.issuedAt at this ⊢
    simpa [Wafer.pcNext] using this
  · rw [hcores]
    unfold Wafer.setD
    rw [Wafer.core_updCore]
    exact Core.tookD_sset _ _ _
  · intro j hj
    rw [hcores]
    exact Wafer.core_updCore_ne _ _ _ _ hj
  · rw [hsh]
    exact ⟨rfl, rfl, rfl, rfl, rfl, rfl⟩
  · rw [hsh]
    exact ⟨rfl, rfl, rfl, rfl, rfl, rfl, rfl, rfl, rfl, rfl, rfl, rfl, rfl, rfl, rfl⟩
  · exact (w.setD i v).issued_sameRegs i.site held _

/-- Holding leaves the pc and the state of the stage, and the core remembers what it waits on. -/
theorem Wafer.heldOn_regs (w : Wafer) (i : Issue) (x : Wait) :
    (w.heldOn i x).pcOf i.site = w.pcOf i.site ∧ (w.heldOn i x).rd (siteBase i.site) Reg.seqStatHeld = 1 ∧
    (w.heldOn i x).rd (siteBase i.site) Reg.seqStatCause = (w.waitCause i.site x).1 % 16 ∧
    (w.heldOn i x).rd (siteBase i.site) Reg.seqStatState = w.rd (siteBase i.site) Reg.seqStatState := by
  unfold Wafer.heldOn Wafer.pcOf
  dsimp only [Wafer.wrs_cons, Wafer.wrs_nil]
  refine ⟨?_, ?_, ?_, ?_⟩ <;> rw [Wafer.rd_updCore, Wafer.rd_site_count _ _ _ _ _ (by decide) (by decide) (by decide)]
  · rw [Wafer.rd_site_wr _ _ _ _ _ (by decide), Wafer.rd_site_wr _ _ _ _ _ (by decide)]
  · rw [Wafer.rd_site_wr _ _ _ _ _ (by decide), Wafer.rd_wr]
    rfl
  · rw [Wafer.rd_wr]
    rfl
  · rw [Wafer.rd_site_wr _ _ _ _ _ (by decide), Wafer.rd_site_wr _ _ _ _ _ (by decide)]

/-- An instruction that issues without any effect has the effect `wentTo`. -/
theorem Wafer.wentTo_issued (w : Wafer) (i : Issue) (held pc : Nat) (h : w.rd (siteBase i.site) Reg.seqStatState = 1 ∧ w.fetchFault i.site (w.pcOf i.site) = none) :
    w.wentTo (w.issued i.site held pc) i pc := by
  obtain ⟨r, sh, c, o, hsh⟩ := w.issued_shape i.site held pc
  have hcores : ∀ j, (w.issued i.site held pc).core j = w.core j := by
    intro j
    apply Wafer.core_congr <;> rw [hsh]
  refine ⟨w.issuedAt_issued i held pc h.1, hcores _, fun j _ => hcores j, ?_, ?_, w.issued_sameRegs i.site held pc⟩
  · rw [hsh]
    exact ⟨rfl, rfl, rfl, rfl, rfl, rfl⟩
  · rw [hsh]
    exact ⟨rfl, rfl, rfl, rfl, rfl, rfl, rfl, rfl, rfl, rfl, rfl, rfl, rfl, rfl, rfl⟩

end Sys2Proof.Machine
end

