-- ==== Sys2Proof/Laws/Digest.lean ====
section
/-!
SUPPORT. Sys2Proof/Laws/Digest.lean: a digest is a number of 256 bits, and reading the bytes of a number gives it back.
-/

namespace Sys2Proof.Machine

/-- A digest has 256 bits. -/
theorem sha3_lt (m : List Byte) : sha3 m < 2 ^ 256 := by
  unfold sha3
  exact Nat.mod_lt _ (by decide)

@[simp] theorem natLE_length (n : Nat) : ∀ x, (natLE n x).length = n := by
  induction n with
  | zero => intro x; rfl
  | succ n ih => intro x; simp [natLE, ih]

/-- The bytes of a number that fits give it back. -/
theorem leNat_natLE (n : Nat) : ∀ x, leNat (natLE n x) = x % 256 ^ n := by
  induction n with
  | zero => intro x; simp [natLE, leNat, Nat.mod_one]
  | succ n ih =>
    intro x
    have h : (BitVec.ofNat 8 x).toNat = x % 256 := by simp
    show (BitVec.ofNat 8 x).toNat + 256 * leNat (natLE n (x / 256)) = x % 256 ^ (n + 1)
    rw [ih, h, Nat.pow_succ, Nat.mul_comm (256 ^ n) 256, Nat.mod_mul]

/-- A digest's 32 bytes give it back. -/
theorem sha3_bytes (m : List Byte) : sha3 m % 256 ^ 32 = sha3 m := Nat.mod_eq_of_lt (sha3_lt m)

end Sys2Proof.Machine
end

