-- ==== Sys2Proof/Laws/Memory.lean ====
section
/-!
SUPPORT. Sys2Proof/Laws/Memory.lean: what each operation over a memory does to a byte, to a poison bit and to the canonical form,
once.
-/

namespace Sys2Proof.Machine

/-! ## Sets of words -/

theorem mem_setInsert (l : List Nat) (k j : Nat) : j ∈ setInsert l k ↔ j = k ∨ j ∈ l := by
  induction l with
  | nil => simp [setInsert]
  | cons x l ih =>
    unfold setInsert
    split
    · simp
    · split
      · next h1 h2 => subst h2; simp
      · simp only [List.mem_cons, ih]
        exact or_left_comm

theorem setInsert_rising (l : List Nat) (k : Nat) (h : l.Pairwise (· < ·)) : (setInsert l k).Pairwise (· < ·) := by
  induction l with
  | nil => simp [setInsert]
  | cons x l ih =>
    obtain ⟨hx, hl⟩ := List.pairwise_cons.1 h
    unfold setInsert
    split
    · next h1 =>
      refine List.pairwise_cons.2 ⟨?_, h⟩
      intro y hy
      rcases List.mem_cons.1 hy with rfl | hy
      · exact h1
      · exact Nat.lt_trans h1 (hx y hy)
    · split
      · exact h
      · next h1 h2 =>
        refine List.pairwise_cons.2 ⟨?_, ih hl⟩
        intro y hy
        rcases (mem_setInsert l k y).1 hy with rfl | hy
        · omega
        · exact hx y hy

/-! ## One byte -/

@[simp] theorem Mem.get_set (m : Mem) (a : Nat) (b : Byte) : (m.set a b).get a = b := by simp [Mem.set, Mem.get]

theorem Mem.get_set_ne (m : Mem) (a x : Nat) (b : Byte) (h : x ≠ a) : (m.set a b).get x = m.get x :=
  mapGet_mapSet_ne _ _ _ _ _ h

@[simp] theorem Mem.badAt_set (m : Mem) (a x : Nat) (b : Byte) : (m.set a b).badAt x = m.badAt x := rfl
@[simp] theorem Mem.poison_set (m : Mem) (a : Nat) (b : Byte) : (m.set a b).poison = m.poison := rfl
@[simp] theorem Mem.get_mark (m : Mem) (a x : Nat) (b : Bool) : (m.mark a b).get x = m.get x := rfl
@[simp] theorem Mem.get_empty (a : Nat) : (({} : Mem)).get a = 0#8 := rfl
@[simp] theorem Mem.badAt_empty (a : Nat) : (({} : Mem)).badAt a = false := rfl

theorem Mem.badAt_mark (m : Mem) (a x : Nat) (b : Bool) :
    (m.mark a b).badAt x = if x / 8 = a / 8 then b else m.badAt x := by
  unfold Mem.mark Mem.badAt
  cases b
  · by_cases h : x / 8 = a / 8
    · simp [h]
    · by_cases h2 : x / 8 ∈ m.poison <;> simp [h, h2]
  · by_cases h : x / 8 = a / 8
    · simp [h, mem_setInsert]
    · by_cases h2 : x / 8 ∈ m.poison <;> simp [h, h2, mem_setInsert]

/-! ## Ranges -/

/-- A run of bytes from an address: those bytes, and every other one as it was. -/
theorem Mem.get_setBytes (m : Mem) (a : Nat) (l : List Byte) (x : Nat) :
    (m.setBytes a l).get x = if a ≤ x ∧ x < a + l.length then l.getD (x - a) 0#8 else m.get x := by
  induction l generalizing m a with
  | nil => rw [Mem.setBytes, if_neg (fun h => by have h2 := h.2; rw [List.length_nil] at h2; omega)]
  | cons b l ih =>
    rw [Mem.setBytes, ih]
    by_cases h1 : x = a
    · subst h1
      rw [if_neg (by omega), if_pos (by simp)]
      simp
    · by_cases h2 : a + 1 ≤ x ∧ x < a + 1 + l.length
      · have h3 : a ≤ x ∧ x < a + (l.length + 1) := by omega
        obtain ⟨k, rfl⟩ : ∃ k, x = a + 1 + k := ⟨x - (a + 1), by omega⟩
        have : a + 1 + k - a = k + 1 := by omega
        simp [h2, h3, this]
      · have h3 : ¬ (a ≤ x ∧ x < a + (l.length + 1)) := by omega
        simp only [h2, if_false, List.length_cons, h3]
        exact m.get_set_ne _ _ _ h1

@[simp] theorem Mem.poison_setBytes (m : Mem) (a : Nat) (l : List Byte) : (m.setBytes a l).poison = m.poison := by
  induction l generalizing m a with
  | nil => rfl
  | cons b l ih => rw [Mem.setBytes, ih]; rfl

@[simp] theorem Mem.badAt_setBytes (m : Mem) (a x : Nat) (l : List Byte) : (m.setBytes a l).badAt x = m.badAt x := by
  simp [Mem.badAt]

theorem Mem.get_write (m : Mem) (a : Nat) (l : List Byte) (x : Nat) :
    (m.write a l).get x = if a ≤ x ∧ x < a + l.length then l.getD (x - a) 0#8 else m.get x :=
  m.get_setBytes a l x

@[simp] theorem Mem.get_poisonWords (m : Mem) (a : Nat) (ws : List Nat) (x : Nat) : (m.poisonWords a ws).get x = m.get x := by
  unfold Mem.poisonWords
  induction ws generalizing m with
  | nil => rfl
  | cons k ws ih => rw [List.foldl_cons, ih]; rfl

theorem Mem.get_writeBad (m : Mem) (a : Nat) (l : List Byte) (ws : List Nat) (x : Nat) :
    (m.writeBad a l ws).get x = if a ≤ x ∧ x < a + l.length then l.getD (x - a) 0#8 else m.get x := by
  rw [Mem.writeBad, Mem.get_poisonWords, Mem.get_write]

theorem Mem.holdsAt_of_get {m t : Mem} {a : Nat} {l : List Byte}
    (h : ∀ x, t.get x = if a ≤ x ∧ x < a + l.length then l.getD (x - a) 0#8 else m.get x) :
    (∀ n, n < l.length → t.get (a + n) = l.getD n 0#8) ∧ ∀ x, (x < a ∨ a + l.length ≤ x) → t.get x = m.get x := by
  refine ⟨fun n hn => ?_, fun x hx => ?_⟩
  · rw [h, if_pos (by omega)]
    congr 1
    omega
  · rw [h, if_neg (by omega)]

/-! ## The canonical form -/

theorem Memory.wf_iff (m : Mem) : Memory.wf m = true ↔ mapWf (fun _ => 0#8) m.bytes = true ∧ m.poison.Pairwise (· < ·) := by
  simp [Memory.wf]

@[simp] theorem Memory.wf_empty : Memory.wf {} = true := by decide

theorem Memory.wf_set (m : Mem) (a : Nat) (b : Byte) (h : Memory.wf m = true) : Memory.wf (m.set a b) = true := by
  rw [Memory.wf_iff] at h ⊢
  exact ⟨mapWf_mapSet _ _ _ _ h.1, h.2⟩

theorem Memory.wf_mark (m : Mem) (a : Nat) (b : Bool) (h : Memory.wf m = true) : Memory.wf (m.mark a b) = true := by
  rw [Memory.wf_iff] at h ⊢
  refine ⟨h.1, ?_⟩
  cases b
  · exact h.2.filter _
  · exact setInsert_rising _ _ h.2

theorem Memory.wf_setBytes (m : Mem) (a : Nat) (l : List Byte) (h : Memory.wf m = true) : Memory.wf (m.setBytes a l) = true := by
  induction l generalizing m a with
  | nil => exact h
  | cons b l ih => exact ih _ _ (Memory.wf_set m a b h)

theorem Memory.wf_write (m : Mem) (a : Nat) (l : List Byte) (h : Memory.wf m = true) : Memory.wf (m.write a l) = true := by
  have h' := (Memory.wf_iff _).1 (Memory.wf_setBytes m a l h)
  rw [Memory.wf_iff]
  exact ⟨h'.1, h'.2.filter _⟩

/-- What keeps the canonical form at each element of a list keeps it over the list. -/
theorem Memory.wf_foldl {α : Type} (f : Mem → α → Mem) (l : List α) (m : Mem) (hf : ∀ m x, Memory.wf m = true → Memory.wf (f m x) = true)
    (h : Memory.wf m = true) : Memory.wf (l.foldl f m) = true := by
  induction l generalizing m with
  | nil => exact h
  | cons x l ih => exact ih _ (hf _ _ h)

theorem Memory.wf_poisonWords (m : Mem) (a : Nat) (ws : List Nat) (h : Memory.wf m = true) : Memory.wf (m.poisonWords a ws) = true :=
  Memory.wf_foldl _ _ _ (fun m _ hm => Memory.wf_mark m _ _ hm) h

theorem Memory.wf_writeBad (m : Mem) (a : Nat) (l : List Byte) (ws : List Nat) (h : Memory.wf m = true) :
    Memory.wf (m.writeBad a l ws) = true :=
  Memory.wf_poisonWords _ _ _ (Memory.wf_write _ _ _ h)

theorem Memory.wf_zero (m : Mem) (lo hi : Nat) (h : Memory.wf m = true) : Memory.wf (m.zero lo hi) = true := by
  rw [Memory.wf_iff] at h ⊢
  refine ⟨?_, h.2.filter _⟩
  have := mapWf_mapClear (fun _ => 0#8) (fun k => decide (lo ≤ k ∧ k < hi)) m.bytes h.1
  exact this

theorem Memory.wf_writeEnabled (m : Mem) (g : Nat → Nat) (a : Nat) (data : List Byte) (enable : List Bool) (h : Memory.wf m = true) :
    Memory.wf (m.writeEnabled g a data enable) = true := by
  unfold Mem.writeEnabled
  refine Memory.wf_foldl _ _ _ (fun m k hm => ?_) (Memory.wf_foldl _ _ _ (fun m k hm => ?_) h)
  · dsimp only
    split
    · exact Memory.wf_mark _ _ _ hm
    · exact hm
  · split
    · exact Memory.wf_set _ _ _ hm
    · exact hm

theorem Memory.wf_writeLanes (m : Mem) (a : Nat) (on : Nat → Bool) (lanes : List Nat) (bad : Nat → Bool) (h : Memory.wf m = true) :
    Memory.wf (m.writeLanes a on lanes bad) = true := by
  unfold Mem.writeLanes
  refine Memory.wf_foldl _ _ _ (fun m k hm => ?_) h
  dsimp only
  split
  · exact hm
  · refine Memory.wf_mark _ _ _ ?_
    split <;> split <;> first
      | exact Memory.wf_setBytes _ _ _ (Memory.wf_setBytes _ _ _ hm)
      | exact Memory.wf_setBytes _ _ _ hm
      | exact hm

end Sys2Proof.Machine
end

