-- ==== Sys2Proof/Tests/Slice0.lean ====
section
/-!
SUPPORT. Sys2Proof/Tests/Slice0.lean: tests. Ill-formed commands that WellFormed refuses; for every statement with hypotheses a
witness that meets them, clause by clause; and single steps on small states, whose expected results come from the spec's tables and
rules.
-/

namespace Sys2Proof.Tests

open Sys2Proof.Machine

set_option maxRecDepth 16000
set_option Elab.async false

/-- The module alone, nothing waiting. -/
def atW (w : Wafer) : State := { pending := [], w := w }

/-- The module of the next state. -/
def after (o : Host.Outcome State Fault Refusal) : Wafer :=
  match o with
  | .next t => t.w
  | _ => Wafer.reset

/-- The command answers a next state. -/
def runs (o : Host.Outcome State Fault Refusal) : Bool :=
  match o with
  | .next _ => true
  | _ => false

/-- A core at site 3 that issues, its code in bytes 0 to 63, with s1 = 5, s2 = 7, s3 = −1, s5 = 4,096 and semaphore 6 at 9. -/
def core3 : Core := { s := [(1, 5), (2, 7), (3, 0xFFFFFFFFFFFFFFFF), (5, 4096)], sem := [(6, 9)], logical := some 0, codeSize := 64 }
def coreW : Wafer := (Wafer.reset.wr (siteBase 3) Reg.seqStatState 1).setCore 3 core3
/-- An instruction of it: D, A, B and IMM. -/
def ins (d a b : Nat) (imm : BitVec 32) : Issue := ⟨3, 0, d, a, b, 0, imm⟩

theorem coreW_issues (d a b : Nat) (imm : BitVec 32) : (atW coreW).issuing (ins d a b imm) :=
  ⟨by simp [ins], show coreW.rd (siteBase 3) Reg.seqStatState = 1 by decide,
    show coreW.fetchFault 3 (coreW.pcOf 3) = none by decide⟩

/-! ## Scalar instructions -/

theorem witness_ScalarTwoOperand : (atW coreW).issuing (ins 4 1 2 0) ∧ (ins 4 1 2 0).c = 0 ∧ (ins 4 1 2 0).imm = 0 :=
  ⟨coreW_issues .., rfl, rfl⟩
theorem witness_ScalarImmediate : (atW coreW).issuing (ins 0 0 0 9) ∧ ((9 : BitVec 32) = 9 ∧ coreW.job.tag = coreW.job.tag) ∧
    (ins 0 0 0 6).imm = 6 ∧ (ins 0 0 0 8).imm = 8 ∧ (ins 31 31 0 5).b = 0 := ⟨coreW_issues .., ⟨rfl, rfl⟩, rfl, rfl, rfl⟩
theorem witness_UnusedFields : (ins 0 1 0 0).a ≠ 0 ∧ (ins 0 0 31 0).b ≠ 0 ∧ (ins 0 0 0 0xFFFFFFFF).imm ≠ 0 := by decide
/-- A poisoned word at the pc, one of CLASS 7, and one of SEQ with OP 3. -/
def fetchW (l : List Byte) (bad : List Nat) : Wafer :=
  { coreW with coreMem := { coreW.coreMem.write (coreAddr 3 0) l with poison := bad } }
theorem witness_FetchFaults : (fetchW [] [coreAddr 3 0 / 8]).coreMem.badIn (coreAddr 3 0) 8 = true ∧ coreW.coreMem.badIn (coreAddr 3 0) 8 = false ∧ coreW.pcOf 3 = 0 ∧
    7 * 2 ^ 60 ≤ (fetchW (natLE 8 (7 * 2 ^ 60)) []).coreMem.num (coreAddr 3 0) 8 ∧
    (match decodeWord (BitVec.ofNat 64 ((fetchW (natLE 8 (3 * 2 ^ 52)) []).coreMem.num (coreAddr 3 0) 8)) with
      | .ok y => !opDefined y.cls y.op.toNat | _ => false) = true ∧
    coreW.rd (siteBase 3) Reg.seqStatState = 1 ∧ Wafer.reset.rd (siteBase 3) Reg.seqStatState ≠ 1 := by decide +kernel
/-- R104, Table 5-13: OP 3 of SEQ is reserved. -/
theorem test_fetch_reserved : (after (exec (.seqNop (ins 0 0 0 0)) (atW (fetchW (natLE 8 (3 * 2 ^ 52)) [])))).rd (siteBase 3) Reg.seqFaultCode = 1 := by decide +kernel
/-- s5 = 4,096 with IMM 0 and the largest address 2^24 − 8; a misaligned address, the first one past core memory, and the code region. -/
theorem witness_ScalarLoadsAndStores : (coreW.ra (ins 4 5 0 0) + 0).toNat = 4096 ∧ coreW.coreMem.badAt (coreAddr 3 4096) = false ∧
    (coreW.core 3).inCode 4096 8 = false ∧ coreW.scaleHeld 3 4096 8 = false ∧
    (coreW.ra (ins 0 0 2 0xFFFFF8) + (0xFFFFF8 : BitVec 32).signExtend 64).toNat = 2 ^ 24 - 8 ∧
    (coreW.ra (ins 4 1 0 0) + 0).toNat % 8 ≠ 0 ∧ 2 ^ 24 ≤ (coreW.ra (ins 4 0 0 0x1000000) + (0x1000000 : BitVec 32).signExtend 64).toNat ∧
    (coreW.core 3).inCode 56 8 = true ∧ (coreW.core 3).inCode 64 8 = false := by decide
/-- A poisoned word at 4,096; a pass of engine 1 that has yet to read two scale bytes at 4,100. -/
def poisonW : Wafer := { coreW with coreMem := { coreW.coreMem with poison := [coreAddr 3 4096 / 8] } }
def scaleW : Wafer := coreW.setEngine 7 { passes := [⟨⟨0, 2, 0, 0, 32, 0, 0, 0, 4100, false⟩, 0, { dfmt := 4 }, 32, 0, 1, 0, 0, 0, false, none, []⟩] }
theorem witness_HeldAndPoisonedWords : poisonW.coreMem.badAt (coreAddr 3 4096) = true ∧ scaleW.scaleHeld 3 4096 8 = true ∧
    scaleW.scaleHeld 3 4104 8 = false ∧ (scaleW.core 3).inCode 4096 8 = false := by decide
/-- Equal and unequal operands; the first and the last target of the code region, the address after it, and a misaligned one. -/
theorem witness_BranchesAndJumps : (coreW.ra (ins 0 1 1 1) == coreW.rb (ins 0 1 1 1)) = true ∧ (coreW.ra (ins 0 1 2 1) == coreW.rb (ins 0 1 2 1)) = false ∧
    (coreW.ra (ins 0 3 1 1)).slt (coreW.rb (ins 0 3 1 1)) = true ∧ (coreW.ra (ins 0 3 1 1)).ult (coreW.rb (ins 0 3 1 1)) = false ∧
    (BitVec.ofNat 64 (coreW.pcOf 3) + 8 * (7 : BitVec 32).signExtend 64).toNat = 56 ∧ (coreW.core 3).codeBase = 0 ∧ 56 < 0 + (coreW.core 3).codeSize ∧
    (BitVec.ofNat 64 (coreW.pcOf 3) + 8 * (8 : BitVec 32).signExtend 64).toNat = 64 ∧ ¬ 64 < 0 + (coreW.core 3).codeSize ∧
    (coreW.ra (ins 0 0 0 0)).toNat = 0 ∧ (coreW.ra (ins 0 1 0 0)).toNat % 8 ≠ 0 ∧ (coreW.ra (ins 0 5 0 0)).toNat = 4096 := by decide
theorem witness_Semaphores : (coreW.core 3).semGet 6 + 65526 ≤ 65535 ∧ 65535 < (coreW.core 3).semGet 6 + 65527 ∧ 9 ≤ (coreW.core 3).semGet 6 ∧
    (coreW.core 3).semGet 6 < 10 ∧ (0 : Nat) ≤ (coreW.core 3).semGet 0 := by decide
theorem witness_Attime : (coreW.ra (ins 0 0 0 0) + (0 : BitVec 32).setWidth 64).toNat ≤ (coreW.countNow + 2 ^ 64 - coreW.tickStart) % 2 ^ 64 + coreW.vecCounts 3 0 ∧
    (coreW.countNow + 2 ^ 64 - coreW.tickStart) % 2 ^ 64 + coreW.vecCounts 3 0 < (coreW.ra (ins 0 5 0 0) + (0 : BitVec 32).setWidth 64).toNat := by decide
def busyCopy : Wafer := coreW.setCore 3 { core3 with copies := [⟨4096, 8192, 0, 0, 0, 64, 1, 64, 64, none, 0⟩] }
theorem witness_Mark : (15 - (0 : BitVec 32).toNat % 16) &&& coreW.busyUnits 3 = 0 ∧ (15 - (0 : BitVec 32).toNat % 16) &&& busyCopy.busyUnits 3 ≠ 0 ∧
    (15 - (4 : BitVec 32).toNat % 16) &&& busyCopy.busyUnits 3 = 0 ∧ busyCopy.rd (siteBase 3) Reg.seqStatState = 1 := by decide

/-- Table 5-3: 5 + 7, 5 − 7, −1 shifted, 5 × 7. -/
theorem test_scalar_alu : ((after (exec (.seqAdd (ins 4 1 2 0)) (atW coreW))).core 3).sget 4 = 12 ∧
    ((after (exec (.seqSub (ins 1 1 2 0)) (atW coreW))).core 3).sget 1 = 0xFFFFFFFFFFFFFFFE ∧
    ((after (exec (.seqMul (ins 4 1 2 0)) (atW coreW))).core 3).sget 4 = 35 ∧
    ((after (exec (.seqSra (ins 4 3 1 0)) (atW coreW))).core 3).sget 4 = 0xFFFFFFFFFFFFFFFF ∧
    ((after (exec (.seqShr (ins 4 3 1 0)) (atW coreW))).core 3).sget 4 = 0x07FFFFFFFFFFFFFF ∧
    ((after (exec (.seqShl (ins 4 1 2 0)) (atW coreW))).core 3).sget 4 = 640 := by decide
/-- R103: a write of s0 is ignored; the instruction still issues. -/
theorem test_s0_reads_zero : ((after (exec (.seqAdd (ins 0 1 2 0)) (atW coreW))).core 3).sget 0 = 0 ∧
    (after (exec (.seqAdd (ins 0 1 2 0)) (atW coreW))).pcOf 3 = 8 := by decide
/-- Table 5-3: IMM is sign-extended by LDI and ADDI, and LDIH keeps the low half. -/
theorem test_scalar_immediates : ((after (exec (.seqLdi (ins 4 0 0 0x80000000)) (atW coreW))).core 3).sget 4 = 0xFFFFFFFF80000000 ∧
    ((after (exec (.seqAddi (ins 4 1 0 0xFFFFFFFF)) (atW coreW))).core 3).sget 4 = 4 ∧
    ((after (exec (.seqLdih (ins 3 0 0 0x12)) (atW coreW))).core 3).sget 3 = 0x12FFFFFFFF := by decide
/-- R107: a store puts its low byte at its address; a signed branch at −1 < 5 is taken, an unsigned one is not. -/
theorem test_store_and_branches : (after (exec (.seqSt (ins 0 5 2 8)) (atW coreW))).coreMem.get (coreAddr 3 4104) = 7#8 ∧
    (after (exec (.seqBlt (ins 0 3 1 4)) (atW coreW))).pcOf 3 = 32 ∧ (after (exec (.seqBltu (ins 0 3 1 4)) (atW coreW))).pcOf 3 = 8 ∧
    (after (exec (.seqBge (ins 0 1 3 4)) (atW coreW))).pcOf 3 = 32 ∧ (after (exec (.seqBgeu (ins 0 3 1 4)) (atW coreW))).pcOf 3 = 32 ∧
    (after (exec (.seqBne (ins 0 1 1 4)) (atW coreW))).pcOf 3 = 8 := by decide
/-- R107, Table 5-13: JAL links pc + 8. A target outside the code region is CORE_BRANCH (0x06), a misaligned one CORE_ADDR (0x02). -/
theorem test_jumps : ((after (exec (.seqJal (ins 4 0 0 7)) (atW coreW))).core 3).sget 4 = 8 ∧
    (after (exec (.seqJr (ins 0 0 0 0)) (atW coreW))).pcOf 3 = 0 ∧
    (after (exec (.seqJal (ins 4 0 0 8)) (atW coreW))).rd (siteBase 3) Reg.seqFaultCode = 6 ∧
    (after (exec (.seqJr (ins 0 1 0 0)) (atW coreW))).rd (siteBase 3) Reg.seqFaultCode = 2 := by decide
/-- R115: a post past 65,535 is CORE_SEM and leaves the semaphore; a wait on more than it holds holds. -/
theorem test_semaphores : ((after (exec (.synSempost (ins 6 0 0 65526)) (atW coreW))).core 3).semGet 6 = 65535 ∧
    ((after (exec (.synSempost (ins 6 0 0 65527)) (atW coreW))).core 3).semGet 6 = 9 ∧
    ((after (exec (.synSemwait (ins 6 0 0 9)) (atW coreW))).core 3).semGet 6 = 0 ∧
    (after (exec (.synSemwait (ins 6 0 0 10)) (atW coreW))).rd (siteBase 3) Reg.seqStatHeld = 1 := by decide

/-! ## Vector instructions -/

/-- Bytes in the core memory of site 3. -/
def put (w : Wafer) (a : Nat) (l : List Byte) : Wafer := { w with coreMem := w.coreMem.write (coreAddr 3 a) l }

/-- The core with v1 all 1.0, v2 all 2.0, v3 with lane 5 poisoned, and mask register 2 with lanes 0 and 127. -/
def vecW : Wafer := coreW.setCore 3 { core3 with
  v := [(1, List.replicate 128 0x3F800000), (2, List.replicate 128 0x40000000)], vbad := [3 * 128 + 5], m := [(2, 1 + 2 ^ 127)] }
/-- TYPE FP32, MASKEN with mask register 2. -/
def masked : BitVec 32 := 0x50

theorem witness_VectorElementwise : (atW vecW).issuing (ins 4 1 2 masked) ∧ vTy (ins 4 1 2 masked) < 2 ∧ ¬ (ins 4 1 2 masked).c ≠ 0 ∧
    (∀ r ∈ [1, 2], ∀ l, l < 128 → vLanes vecW (ins 4 1 2 masked) l = true → (vecW.core 3).vbadAt r l = false) :=
  ⟨⟨by decide, by decide, by decide⟩, by decide, by decide, by decide⟩
theorem witness_VectorSelectCompareBroadcast : (∀ l, l < 128 → (vecW.core 3).vbadAt 1 l = false ∧ (vecW.core 3).vbadAt 2 l = false) ∧
    (ins 7 1 2 masked).d < 8 ∧ vLanes vecW (ins 7 1 2 masked) 127 = true ∧ vLanes vecW (ins 7 1 2 masked) 1 = false ∧
    vTy (ins 7 1 0 1) < 2 := by decide
theorem witness_VectorSpecialFunctions : vTy (ins 4 1 0 1) < 2 ∧ (ins 4 1 0 1).b = 0 ∧
    (∀ l, l < 128 → vLanes vecW (ins 4 1 0 1) l = true → (vecW.core 3).vbadAt 1 l = false) := by decide
theorem witness_VectorReductions : (∃ l, l < 128 ∧ vLanes vecW (ins 4 1 0 masked) l = true) ∧
    (∀ l, l < 128 → vLanes vecW (ins 4 1 0 masked) l = true → (vecW.core 3).vbadAt 1 l = false) :=
  ⟨⟨127, by decide⟩, by decide⟩
/-- OPERAND 8,192 with sA = 4,096; the last aligned block, a misaligned one, and the code region. -/
theorem witness_VectorLoadsAndStores : (vecW.ra (ins 4 5 0 0) + BitVec.ofNat 64 8192).toNat % 32 = 0 ∧
    (vecW.ra (ins 4 0 0 0) + BitVec.ofNat 64 (2 ^ 24 - 512)).toNat + 512 ≤ 2 ^ 24 ∧ (vecW.core 3).inCode 4096 512 = false ∧
    vecW.scaleHeld 3 4096 512 = false ∧ (∀ l, l < 128 → vecW.coreMem.badAt (coreAddr 3 4096 + 4 * l) = false) ∧
    vecW.bankHeld 6 0 = false ∧ vecW.bankHeld 7 1 = false ∧ (∀ l, l < 128 → vecW.accMem.badAt (accAddr 7 1 1023 + 4 * l) = false) ∧
    (vecW.ra (ins 4 1 0 0) + 0).toNat % 32 ≠ 0 ∧ 2 ^ 24 < (2 ^ 24 - 480) + 512 ∧ (vecW.core 3).inCode 32 512 = true := by decide
/-- A pass to bank 1 of engine 1 that waits; OPERAND 0xFFF names the last row of that bank. -/
def heldW : Wafer := vecW.setEngine 7 { passes := [⟨⟨0, 1, 0, 1, 32, 0, 0, 0, 0, false⟩, 0, {}, 0, 0, 0, 0, 0, 0, false, none, []⟩] }
theorem witness_HeldBanks : heldW.bankHeld (2 * 3 + bits 0xFFF 0 1) (bits 0xFFF 1 1) = true ∧ heldW.bankHeld (2 * 3 + bits 0xFFD 0 1) (bits 0xFFD 1 1) = false ∧
    bits 0xFFF 2 10 = 1023 := by decide
/-- CVT 0 to 6 and 6 to 0, QMX 4 and 9, at the last registers that hold them. -/
theorem witness_VectorConversions : bits (6 * 16) 0 4 = 0 ∧ bits (6 * 16) 4 4 = 6 ∧ 24 + 32 / cvtBits 6 ≤ 32 ∧ bits 1 0 4 = 1 ∧ 30 + 32 / cvtBits 1 ≤ 32 ∧
    (coreW.core 3).vbad = [] ∧ (bits 0 0 4 = 0 ↔ bits 0 4 4 = 0) ∧ (bits 0x21 0 4 = 0 ↔ bits 0x21 4 4 = 0) ∧
    4 ≤ bits 9 0 4 ∧ bits 9 0 4 ≤ 9 ∧ 28 + 4 ≤ 32 ∧ 30 + 2 ≤ 32 := by decide
/-- TOPK of one row of 128 values in one group, K = 1, from address 8,192 to 16,384. -/
def topkW : Wafer := put coreW 4096 (natLE 4 8192 ++ natLE 4 1 ++ natLE 4 512 ++ natLE 4 16384 ++ [1#8, 7#8, 0#8, 0#8] ++ natLE 4 0)
theorem witness_VectorTopk :
    let d := topkOf (topkW.coreBytes 3 4096 32)
    (topkW.ra (ins 0 5 0 0) + BitVec.ofNat 64 0).toNat = 4096 ∧ topkW.coreMem.poison = [] ∧ 1 ≤ d.rows ∧ d.rows ≤ 65535 ∧ d.glog2 ≤ 7 ∧ 1 ≤ d.k ∧
    d.k ≤ 64 ∧ d.stride % 32 = 0 ∧ d.src % 32 = 0 ∧ d.dst % 32 = 0 ∧ d.src + (d.rows - 1) * d.stride + 512 ≤ 2 ^ 24 ∧ d.dst + 32 ≤ 2 ^ 24 ∧
    (topkW.core 3).inCode d.dst 32 = false ∧ topkW.scaleHeld 3 d.dst 32 = false := by decide

/-- Table 5-8: 1.0 + 2.0 = 3.0 in the enabled lanes 0 and 127 of v4; lane 1 keeps its zero. -/
theorem test_vector_add_masked : ((after (exec (.vecAdd (ins 4 1 2 masked)) (atW vecW))).lane (ins 4 1 2 masked) 4 0) = 0x40400000 ∧
    ((after (exec (.vecAdd (ins 4 1 2 masked)) (atW vecW))).lane (ins 4 1 2 masked) 4 127) = 0x40400000 ∧
    ((after (exec (.vecAdd (ins 4 1 2 masked)) (atW vecW))).lane (ins 4 1 2 masked) 4 1) = 0 := by decide
/-- R122: RSUM of 128 lanes of 1.0 is 128.0. -/
theorem test_vector_rsum : (after (exec (.vecRsum (ins 4 1 0 0)) (atW vecW))).lane (ins 4 1 0 0) 4 0 = 0x43000000 := by decide

/-! ## Copies -/

/-- A copy descriptor at 4,096: two rows of 64 bytes from 8,192 to 16,384 in core memory, semaphore 6. -/
def copyW : Wafer := put coreW 4096 (natLE 4 8192 ++ natLE 4 16384 ++ [0#8, 0#8, 6#8, 0#8] ++ natLE 4 64 ++ natLE 4 2 ++ natLE 4 64 ++ natLE 4 64 ++ natLE 4 0)
def copyX : Copy := copyOf (copyW.coreBytes 3 4096 32) none 0
theorem witness_CopiesAreAccepted : copyW.descAddr (ins 0 5 0 0) = 4096 ∧ copyW.coreMem.badIn (coreAddr 3 4096) 32 = false ∧ copyX.badParam = false ∧
    spanOk copyW 3 copyX.sspace copyX.src copyX.sstride copyX.rows copyX.len = true ∧
    spanOk copyW 3 copyX.dspace copyX.dst copyX.dstride copyX.rows copyX.len = true ∧
    (∀ r, r < copyX.rows → (copyW.core 3).inCode (copyX.dst + r * copyX.dstride) copyX.len = false) ∧
    (∀ e, e < 2 → ∀ b, b < 2 → copyX.usesBank (2 * 3 + e) b = true → copyW.bankHeld (2 * 3 + e) b = false) ∧ (copyW.core 3).copies.length < 8 := by decide
def copies8 : Wafer := copyW.setCore 3 { core3 with copies := List.replicate 8 copyX }
theorem witness_CopiesHold : 8 ≤ (copies8.core 3).copies.length ∧ (7 : BitVec 32).toNat % 8 < (copies8.core 3).copies.length ∧
    (copyW.core 3).copies.length ≤ (0 : BitVec 32).toNat % 8 ∧ (copyW.engine 7).passes.length ≤ (0 : BitVec 32).toNat % 4 ∧
    (copyW.core 3).sends.length ≤ (0 : BitVec 32).toNat % 16 := by decide
def passX : Pass := ⟨⟨0, 1, 0, 0, 32, 0, 0, 0, 0, false⟩, 0, {}, 0, 0, 0, 0, 0, 0, false, none, []⟩
def waitW : Wafer := (coreW.setEngine 7 { passes := List.replicate 4 passX }).setCore 3 { core3 with sends := List.replicate 16 ⟨0, 0⟩ }
theorem witness_WaitsHold : (3 : BitVec 32).toNat % 4 < (waitW.engine (2 * 3 + 1)).passes.length ∧ (15 : BitVec 32).toNat % 16 < (waitW.core 3).sends.length ∧
    waitW.rd (siteBase 3) Reg.seqStatState = 1 := by decide
def oneCopy : Wafer := copyW.setCore 3 { core3 with copies := [copyX] }
theorem witness_CopyCompletion : (oneCopy.core 3).copies[0]? = some copyX ∧ copyX.badParam = false ∧
    (∀ r, r < copyX.rows → ∀ q, q < copyX.rows → r ≠ q → copyX.dstKey 3 r + copyX.len ≤ copyX.dstKey 3 q ∨ copyX.dstKey 3 q + copyX.len ≤ copyX.dstKey 3 r) ∧
    (∀ r, r < copyX.rows → ∀ q, q < copyX.rows → copyX.dstKey 3 r + copyX.len ≤ copyX.srcKey 3 q ∨ copyX.srcKey 3 q + copyX.len ≤ copyX.dstKey 3 r) ∧
    (oneCopy.core 3).semGet copyX.sem + 1 ≤ 65535 := by decide

/-- A copy into bank 0 of engine 0 that a pass holds; one from a bank group of cluster 0 whose arbiter is fenced. -/
def bankX : Copy := { copyX with dspace := 2, dst := 0, len := 512, sstride := 512, dstride := 512 }
def cluX : Copy := { copyX with sspace := 1, src := 64 }
theorem witness_CopiesThatWait : bankX.usesBank 6 0 = true ∧ (coreW.setEngine 6 { passes := [passX] }).bankHeld 6 0 = true ∧
    ({ oneCopy with fences := [⟨fGroup 0 1, 1, none⟩] } : Wafer).copyShut 3 cluX = true ∧
    ({ oneCopy with fences := [⟨fGroup 0 7, 1, none⟩] } : Wafer).copyShut 3 cluX = false ∧ oneCopy.copyShut 3 copyX = false ∧
    cluX.badParam = false := by decide
/-- R109: the first and the last byte of the second row arrive, and semaphore 6 goes from 9 to 10. -/
theorem test_copy_complete :
    let w := put (put oneCopy 8256 [0x5A#8]) 8319 [0xA5#8]
    let t := after (exec (.copyComplete 3 0) (atW w))
    t.coreMem.get (coreAddr 3 16448) = 0x5A#8 ∧ t.coreMem.get (coreAddr 3 16511) = 0xA5#8 ∧ (t.core 3).semGet 6 = 10 := by decide

/-! ## Matrix engines and the gather-merge engine -/

/-- A dense load of K = 2, N = 1, stride 32 from 8,192, and a stream of one row from 12,288 to accumulator row 5 of bank 1 with a new tile. -/
def loadW : Wafer := put coreW 4096 (natLE 4 8192 ++ natLE 2 2 ++ natLE 2 1 ++ natLE 4 32 ++ natLE 4 0 ++ [0#8, 0#8] ++ natLE 2 0 ++ natLE 2 0)
def streamBytes (flags : Byte) : List Byte := natLE 4 12288 ++ natLE 2 1 ++ [flags, 1#8] ++ natLE 4 512 ++ natLE 4 5
def tile1 : Tile := ⟨{}, false, 2, 1, 1, 0, [[some 0x3F80], [some 0x4000]], [], false⟩
def loadD : LoadDesc := loadDescOf (loadW.coreBytes 3 4096 32)
def pendW : Wafer := (put coreW 4096 (streamBytes 1#8)).setEngine 7 { pend := some ⟨loadD, 4096, {}, .dense, none, some tile1, true⟩ }
/-- A sparse load: K = 256, N = 128 of the tensor at 8,192. -/
def sparseW : Wafer := put coreW 4096 (natLE 4 8192 ++ natLE 2 256 ++ natLE 2 128 ++ natLE 4 0 ++ natLE 4 0 ++ [2#8, 0#8] ++ natLE 2 0 ++ natLE 2 0)
theorem witness_MatrixInstructions : (ins 1 5 0 0).d < 2 ∧ loadW.descAddr (ins 1 5 0 0) = 4096 ∧ 4096 % 16 = 0 ∧
    loadW.coreMem.badIn (coreAddr 3 4096) 32 = false ∧ (loadW.engine 7).pend = none ∧ loadD.sparse = false ∧
    loadCode loadW 3 4096 (loadW.engine 7).mode loadD = 0 ∧ (loadDescOf (sparseW.coreBytes 3 4096 32)).sparse = true ∧
    sparseCode sparseW 3 4096 (sparseW.engine 7).mode (loadDescOf (sparseW.coreBytes 3 4096 32)) = 0 ∧ (pendW.engine 7).pend ≠ none ∧
    (pendW.engine 7).passes.length < 4 ∧ streamCode pendW 3 4096 (pendW.engine 7) (pendW.engine 7).mode (streamDescOf (pendW.coreBytes 3 4096 32)) = 0 ∧
    4 ≤ (waitW.engine 7).passes.length := by decide
/-- The same at an address that is no multiple of 16; a stream with no tile. -/
theorem witness_BadMatrixDescriptors : coreW.armedOrRunning = false ∧ (loadDescOf (loadW.coreBytes 3 4104 32)).sparse = false ∧
    loadCode loadW 3 4104 (loadW.engine 7).mode (loadDescOf (loadW.coreBytes 3 4104 32)) ≠ 0 ∧
    streamCode loadW 3 4096 (loadW.engine 7) (loadW.engine 7).mode (streamDescOf (loadW.coreBytes 3 4096 32)) ≠ 0 := by decide
def passN : Pass := { passX with desc := streamDescOf (streamBytes 1#8) }
def passO : Pass := { passX with desc := streamDescOf (streamBytes 0#8) }
def freshTile : Wafer := coreW.setEngine 7 { pend := some ⟨loadD, 4096, {}, .dense, none, none, false⟩ }
def swapW : Wafer := coreW.setEngine 7 { pend := some ⟨loadD, 4096, {}, .dense, none, some tile1, true⟩, passes := [passN] }
def goW : Wafer := coreW.setEngine 7 { active := some tile1, passes := [passO] }
theorem witness_TilesAndPassesStart : (freshTile.engine (2 * 3 + 1)).pend = some ⟨loadD, 4096, {}, .dense, none, none, false⟩ ∧
    loadD.sparse = false ∧ freshTile.feedShut 3 {} loadD = false ∧
    { passO with serial := 1 }.claims { core3 with copies := [{ bankX with dst := 3072 }] } 7 1 = false ∧
    coreW.engine 7 = {} ∧ (⟨loadD, 4096, {}, .dense, none, some tile1, true⟩ : Pend).ready = some tile1 ∧
    indexOf? (fun (p : Pass) => !p.issued) (swapW.engine 7).passes = some 0 ∧ (swapW.engine 7).passes[0]? = some passN ∧
    (passN.mode.out < 2 → passN.claims (swapW.core 3) 7 passN.desc.bank = true) ∧ passN.desc.newTile = true ∧
    (swapW.engine 7).pend = some ⟨loadD, 4096, {}, .dense, none, some tile1, true⟩ ∧ passO.desc.newTile = false ∧ (goW.engine 7).active = some tile1 ∧
    indexOf? (fun (p : Pass) => !p.issued) (goW.engine 7).passes = some 0 ∧ passO.claims (goW.core 3) 7 passO.desc.bank = true := by decide
/-- A pass of one row, 3.0 and 0.5, on the weights 1.0 and 2.0. -/
def passI : Pass := { passO with issued := true, tile := some tile1, rows := [⟨[0x4040, 0x3F00], [], false⟩] }
def issuedW : Wafer := coreW.setEngine 7 { active := some tile1, passes := [passI] }
theorem witness_PassesDeliver : indexOf? (fun (p : Pass) => p.issued) (issuedW.engine 7).passes = some 0 ∧ (issuedW.engine 7).passes[0]? = some passI ∧
    passI.tile = some tile1 ∧ (passOutputs issuedW 3 7 passI tile1).2 = false ∧ passI.mode.out = 0 ∧ passI.mode.tail = 0 ∧ tile1.n ≤ 128 := by decide
/-- R65: 3.0 × 1.0 + 0.5 × 2.0 = 4.0 in row 5 of bank 1 of engine 1. -/
theorem test_pass_mac : (after (exec (.passComplete 3 1 0) (atW issuedW))).accMem.num (accAddr 7 1 5) 4 = 0x40800000 := by decide

def magic : List Byte := natLE 4 0x50534D47 ++ [0#8, 0#8] ++ natLE 2 1 ++ natLE 4 256 ++ natLE 4 128 ++ natLE 2 1 ++ natLE 2 1 ++ natLE 4 64 ++ natLE 4 96 ++ natLE 4 4096
def sparseD : LoadDesc := loadDescOf (sparseW.coreBytes 3 4096 32)
def sparseP : Pend := ⟨sparseD, 4096, {}, .queued, none, none, false⟩
def gmeW (g : Gme) (l : List Byte) (p : Pend) : Wafer := ((put coreW 8192 l).setEngine 7 { pend := some p }).setGme 0 g
theorem witness_GatherMergeLanes :
    (gmeW { queue := [7] } magic sparseP).clusterFenced 0 = false ∧ ((gmeW { queue := [7] } magic sparseP).gme 0).queue = 7 :: [] ∧
    (List.range 4).find? (fun l => (gmeLaneOf ({ queue := [7] } : Gme) l).isNone) = some 0 ∧
    gmeLaneOf { lanes := [(3, ⟨7, false⟩)] } 3 = some ⟨7, false⟩ ∧
    ((gmeW { lanes := [(3, ⟨7, false⟩)] } magic sparseP).engine 7).pend = some sparseP ∧
    sparseCheck (gmeW { lanes := [(3, ⟨7, false⟩)] } magic sparseP) (7 / 2) sparseP.mode sparseP.desc = none ∧
    (sparseCheck (gmeW { lanes := [(3, ⟨7, false⟩)] } [] sparseP) (7 / 2) sparseP.mode sparseP.desc).isSome = true ∧
    (gmeW { lanes := [(3, ⟨7, false⟩)] } [] sparseP).armedOrRunning = false ∧
    (gmeW { lanes := [(3, ⟨7, false⟩)] } [] sparseP).rd (gmeBase 0) Reg.gmeFaultValid = 0 ∧
    gmeLaneOf { lanes := [(3, ⟨7, true⟩)] } 3 = some ⟨7, true⟩ ∧ { sparseP with gme := .lane, slots := some [] }.slots = some [] ∧
    ({ sparseP with started := true } : Pend).started = true ∧ sparseP.gme = .queued ∧ sparseCode sparseW 3 4104 {} sparseD ≠ 0 ∧
    ({ gmeW { queue := [7] } magic sparseP with fences := [⟨fCluster 0, 1, none⟩] } : Wafer).clusterFenced 0 = true ∧
    tensorShut (gmeW {} magic sparseP) 3 sparseP.desc = false := by decide

/-! ## CLEAR and SWAP bits -/

/-- ARB_CTL of arbiter 0 (stack port 0); MAT_CTL.CLEAR of engine 1 of site 3. -/
theorem witness_ClearAndSwap : State.reset.w.tallyFull = false ∧ (arbUnit (fenceArbBase 0 0)).isSome = true ∧
    blockOf (matBase 3 1 + 0x38) = some (.mat, matBase 3 1) ∧ Reg.matHold ∈ clearSet .mat ∧ Reg.matPasses ∈ clearSet .mat := by decide
/-- Table 3-2, R377: MAT_PASSES of engine 1 of site 3 counts 5 and is cleared. -/
theorem test_clear_block : let w := Wafer.reset.wr (matBase 3 1) Reg.matPasses 5
    w.rd (matBase 3 1) Reg.matPasses = 5 ∧ (w.clearBlock (matBase 3 1 + 0x38)).rd (matBase 3 1) Reg.matPasses = 0 := by decide
/-- R292: the asked clear of GME block 447 waits. -/
theorem test_gme_clear_waits : (after (exec (.gmeClear 0 447) State.reset)).cmd.clears = [gmeBase 447 + 0x40] := by decide

/-! ## Canals -/

/-- A send descriptor at 4,096: one block of 256 bytes from 8,192 to address 16,384 of core (20, 0), semaphore 6, LSEM 7; and a bad one (SEM 32). -/
def sendB (sem : Byte) : List Byte := natLE 4 8192 ++ natLE 4 1 ++ natLE 8 16384 ++ [0#8, 0#8, 0#8, sem, 20#8, 0#8, 24#8, 2#8] ++ natLE 2 1 ++ natLE 2 3 ++ [7#8, 255#8, 0#8, 0#8]
def sendW (sem : Byte) : Wafer := put coreW 4096 (sendB sem)
theorem witness_CanalSends : (sendW 6#8).descAddr (ins 0 5 0 0) = 4096 ∧ (sendW 6#8).coreMem.badIn (coreAddr 3 4096) 32 = false ∧
    (sendW 6#8).coreMem.poison = [] ∧ ((sendW 6#8).core 3).sends = [] ∧
    (∀ op ∈ [CnlOp.send, .mcast, .conf, .post], (canalDescOf ((sendW 6#8).coreBytes 3 4096 32)).ok op (sendW 6#8) 3 = true) ∧
    (∀ op ∈ [CnlOp.send, .mcast, .conf, .post], (canalDescOf ((sendW 32#8).coreBytes 3 4096 32)).ok op (sendW 32#8) 3 = false) ∧
    16 ≤ (waitW.core 3).sends.length := by decide
def sentW (sem : Nat) : Wafer := coreW.setCore 3 { core3 with sends := [⟨1, 7⟩], sem := [(7, sem)] }
theorem witness_SendCompletes : ((sentW 65534).core 3).sends[0]? = some ⟨1, 7⟩ ∧ ((sentW 65534).core 3).semGet 7 + 1 ≤ 65535 ∧
    ((sentW 65535).core 3).sends[0]? = some ⟨1, 7⟩ ∧ 65535 < ((sentW 65535).core 3).semGet 7 + 1 := by decide
/-- A flit of site 3's send 1 that has not left; eight that have, still in the local port's buffer of canal A; a bank group of cluster 0 fenced. -/
def ownX (left : Bool) : Flit := { blankFlit 0 (siteX 3) (siteY 3) (3 + 4096) true with left := left }
def roomW (n : Nat) : Wafer := { sentW 0 with canal := { flits := ownX false :: List.replicate n (ownX true) } }.wr (fieldBase 0) Reg.fpwStateState 0
theorem witness_SendsWait : countIf (fun (f : Flit) => f.src == 3 + 4096 * 1 && !f.left && f.plane == 0) (roomW 7).canal.flits = 1 ∧
    (roomW 7).buffered 0 (siteX 3) (siteY 3) 4 0 + 1 ≤ 8 ∧ (roomW 7).routerShut 0 (siteX 3) (siteY 3) = false ∧
    ¬ (roomW 8).buffered 0 (siteX 3) (siteY 3) 4 0 + 1 ≤ 8 ∧
    ({ coreW with fences := [⟨fGroup 0 7, 1, none⟩] } : Wafer).groupsShut (siteCluster 3) 448 256 = true := by decide

/-- A flit on canal A at (x, y) for (dx, dy), field 0 in RUN. -/
def flitW (f : Flit) : Wafer := { coreW.wr (fieldBase 0) Reg.fpwStateState 0 with canal := { flits := [f] } }
def flitX (x y dx dy : Nat) : Flit := { blankFlit 0 x y 3 true with dx := dx, dy := dy }
/-- Site 3 stands at these coordinates. -/
def x3 : Nat := siteX 3
def y3 : Nat := siteY 3
/-- On to the east; at its destination; at the array's west corner, whose next router to the west is missing. -/
theorem witness_FlitsHop : (flitW (flitX x3 y3 (x3 + 1) y3)).flitAt 0 = some (flitX x3 y3 (x3 + 1) y3) ∧ atSite (x3 + 1) y3 = true ∧
    (flitW (flitX x3 y3 (x3 + 1) y3)).routerShut 0 (x3 + 1) y3 = false ∧ atSite x3 y3 = true ∧ atSite 20 0 = true ∧ atSite 19 0 = false ∧
    (flitX 20 0 0 0).job = true ∧ Wafer.reset.running = false ∧ ({ Wafer.reset with job := { phase := .running } } : Wafer).running = true ∧
    (flitW (flitX x3 y3 (x3 + 1) y3)).hasRoom ((flitX x3 y3 (x3 + 1) y3).goTo (x3 + 1, y3) 0) = true ∧
    8 ≤ ({ flitW (flitX x3 y3 (x3 + 1) y3) with canal := { flits := List.replicate 8 ((flitX x3 y3 (x3 + 1) y3).goTo (x3 + 1, y3) 0) } } : Wafer).buffered 0 (x3 + 1) y3
      ((flitX x3 y3 (x3 + 1) y3).goTo (x3 + 1, y3) 0).port 0 ∧
    ({ flitW (flitX x3 y3 (x3 + 1) y3) with canal := { rectsA := [⟨x3, y3, x3, y3⟩] } } : Wafer).routerShut 0 x3 y3 = true ∧
    (flitX x3 y3 x3 y3).left = false := by decide
/-- R150: one hop to the east. -/
theorem test_flit_hop : ((after (exec (.canalFlitHop 0 ⟨0, [], 0⟩) (atW (flitW (flitX x3 y3 (x3 + 2) (y3 + 1)))))).canal.flits.map fun f => (f.x, f.y)) =
    [(x3 + 1, y3)] := by decide

def landX (kind sem daddr : Nat) : Flit := { flitX x3 y3 x3 y3 with kind := kind, sem := some sem, daddr := daddr, data := List.replicate 32 0x1122#64 }
theorem witness_FlitsDeliver : (flitW (landX 0 6 16384)).flitAt 0 = some (landX 0 6 16384) ∧ atCore (landX 0 6 16384) = true ∧
    siteOfXY (landX 0 6 16384).x (landX 0 6 16384).y = some 3 ∧ ((flitW (landX 0 6 16384)).core 3).semGet 6 + 1 ≤ 65535 ∧
    (flitW (landX 0 6 16384)).takesFlits 3 = true ∧ landingOk (flitW (landX 0 6 16384)) 3 0 (2 ^ 24 - 256) 256 = true ∧
    landingOk (flitW (landX 0 6 16384)) 3 0 (2 ^ 24 - 255) 256 = false ∧ (core3.semGet 6) + 65526 ≤ 65535 ∧ 65535 < core3.semGet 6 + 65527 ∧
    ({ flitW (landX 0 6 16384) with fences := [⟨fSite 3, 1, none⟩] }).takesFlits 3 = false ∧
    ((flitW (landX 0 6 16384)).core 3).waiting.length < 16 ∧ 16 ≤ (List.replicate 16 (landX 0 6 0)).length ∧
    (let w := (flitW { landX 0 6 448 with dspace := 1 }).wr (tirBase 0) Reg.tirSplitScratch 1
     landingOk w 3 1 448 256 = true ∧ w.groupsShut 0 448 256 = false ∧ ({ w with fences := [⟨fGroup 0 7, 1, none⟩] } : Wafer).groupsShut 0 448 256 = true) := by decide
/-- R157: the bytes arrive at DADDR and semaphore 6 goes from 9 to 10; a SIGNAL of 5 makes it 14. -/
theorem test_flit_deliver : let t := after (exec (.canalFlitDeliver 0) (atW (flitW (landX 0 6 16384))))
    t.coreMem.get (coreAddr 3 16384) = 0x22#8 ∧ t.coreMem.get (coreAddr 3 16633) = 0x11#8 ∧ (t.core 3).semGet 6 = 10 ∧ t.canal.flits = [] ∧
    ((after (exec (.canalFlitDeliver 0) (atW (flitW (landX 3 6 5))))).core 3).semGet 6 = 14 := by decide

/-- A CONF flit of COUNT 3 that carries one; the buffer of its key with one, and with two. -/
def confX (x : Nat) : Flit := { flitX x y3 x3 y3 with kind := 2, tag := 1, carried := 1, count := 3, sem := some 6, daddr := 16384, data := List.replicate 32 0#64 }
def confB (n : Nat) : ConfBuf := { confOf (confX x3) with carried := n }
def confW (x : Nat) (l : List ConfBuf) : Wafer := { flitW (confX x) with canal := { flits := [confX x], conf := mapSet (fun _ => []) [] (flitRouter (confX x)) l } }
def landW (l : List ConfBuf) : Wafer := (flitW (confX x3)).setCore 3 { core3 with landing := l }
theorem witness_Confluence : atCore (confX (x3 + 1)) = false ∧ (confX (x3 + 1)).vc ≠ 1 ∧ (confW (x3 + 1) []).flitAt 0 = some (confX (x3 + 1)) ∧
    (confW (x3 + 1) []).confBufs (flitRouter (confX (x3 + 1))) = [] ∧ (confX (x3 + 1)).carried < (confX (x3 + 1)).count ∧
    (List.replicate 64 { confB 1 with tag := 2 }).all (fun b => !b.holds (confX (x3 + 1))) = true ∧
    indexOf? (fun (b : ConfBuf) => b.holds (confX (x3 + 1))) [confB 1] = some 0 ∧ 1 + 1 < (confB 1).count ∧ (confB 2).count ≤ 2 + 1 ∧
    (confW (x3 + 1) [confB 2]).confBufs (flitRouter (confX (x3 + 1))) = [confB 2] ∧ flitRouter (confX (x3 + 1)) < 4480 ∧
    atCore (confX x3) = true ∧ (landW []).takesFlits 3 = true ∧ landingOk (landW []) 3 0 16384 256 = true ∧ ((landW []).core 3).waiting = [] ∧
    (List.replicate 128 { confB 1 with tag := 2 }).all (fun b => !b.holds (confX x3)) = true ∧
    (List.replicate 128 { confB 1 with tag := 2 }).all (fun b => !(b.tag == 1 && b.daddr == 16384 && b.count != 3)) = true ∧
    ((landW [confB 2]).core 3).landing[0]? = some (confB 2) ∧ (confB 2).count = 2 + (confX x3).carried ∧ (confB 2).dspace ≤ 1 ∧
    ((landW [confB 2]).core 3).semGet 6 + 1 ≤ 65535 ∧
    ((coreW.setCore 3 { core3 with waiting := [confX x3] }).core 3).waiting[0]? = some (confX x3) := by decide

/-- A sum that its router has sent on; a sum whose bank group grants nothing. -/
theorem witness_ConfluenceWaits : ({ confX (x3 + 1) with port := 5 } : Flit).port = 5 ∧ (confX (x3 + 1)).port ≠ 5 ∧ (confX (x3 + 1)).kind = 2 ∧
    (confW (x3 + 1) []).routerShut 0 (x3 + 1) y3 = false ∧ (landW []).sumShut 3 (confX x3) = false ∧
    ({ landW [] with fences := [⟨fGroup 0 0, 1, none⟩] } : Wafer).sumShut 3 { confX x3 with dspace := 1 } = true ∧
    16 ≤ (List.replicate 16 (confX x3)).length := by decide
/-- A message heard, and one not; a flit in a router that a rectangle takes in. -/
theorem witness_Broadcasts : (Wafer.reset.scnHear 112 65535).scnKnown 112 65535 = true ∧ Wafer.reset.scnKnown 112 65535 = false ∧
    (∀ k ∈ [FenceKind.site, .cluster, .field, .routerPlane, .arbiter], fenceTold ⟨k, 0, 0⟩ = true) ∧
    (flitW { flitX x3 y3 0 0 with left := true }).routerFenced (2 * 3 + 0) = false ∧ siteOfXY x3 y3 = some 3 ∧
    (addRect [] ⟨0, 0, 59, 47⟩).all (fun q => !rectHas q x3 y3) = false ∧ (addRect [] ⟨x3 + 1, y3, x3 + 1, y3⟩).all (fun q => !rectHas q x3 y3) = true := by decide
theorem witness_FencesAndBites : (∀ k ∈ [FenceKind.site, .cluster, .field, .routerPlane, .arbiter, .port, .stackChannel], unitOk ⟨k, 0, 0⟩ = true) ∧
    unitOk ⟨.site, 111, 19⟩ = true ∧ unitOk ⟨.stackChannel, 0, 1023⟩ = true ∧ arbUnit (fenceArbBase 0 0) = some ⟨.arbiter, 0, 0⟩ ∧
    arbUnit (fenceArbBase 111 1055) = some ⟨.arbiter, 111, 1055⟩ := by decide
def faultW (p : JobPhase) (f : Bool) : Wafer := { Wafer.reset with job := { phase := p, faulted := f } }
theorem witness_JobFaults : (faultW .running false).armedOrRunning = true ∧ (faultW .armed false).armedOrRunning = true ∧
    (faultW .stopped true).job.phase = .stopped ∧ (faultW .stopped true).job.faulted = true ∧ (faultW .placed false).armedOrRunning = false ∧
    ¬ ((faultW .placed false).job.phase = .stopped ∧ (faultW .placed false).job.faulted = true) := by decide

/-! ## Stacks, the quay and the tiers -/

/-- A flit with an operation at stack 31, line `a`; the basin of stack 31 is its first 2 MiB, the quay its last 4 GiB. -/
def rimX (rop a : Nat) (sem : Option Nat) : Flit :=
  { flitX 20 0 20 0 with runit := 31, rop := rop, daddr := a, sem := sem, x1 := 24, data := [0x3F8000003F800000#64, 1#64] ++ List.replicate 30 0#64 }
def rimW (rop a : Nat) (sem : Option Nat) : Wafer := { (flitW (rimX rop a sem)).wr (stkBase 31) Reg.stkBasinSize 1 with canal := { flits := [rimX rop a sem] } }
/-- The last line of the basin and of the quay; two lines read; a line address that is no multiple of 256; ROP 3. -/
theorem witness_RimFlits : (∀ rop ∈ [0, 1, 2, 3], (rimW rop 0 none).flitAt 0 = some (rimX rop 0 none) ∧ atRim (rimX rop 0 none) = true) ∧
    rimCheck (rimW 0 (2 ^ 21 - 256) (some 6)) (rimX 0 (2 ^ 21 - 256) (some 6)) 1 = none ∧ rimCheck (rimW 1 0 none) (rimX 1 0 none) 1 = none ∧
    rimCheck (rimW 0 (49152 * 2 ^ 21 - 256) none) (rimX 0 (49152 * 2 ^ 21 - 256) none) 1 = none ∧
    readLines (rimX 2 0 none) = 2 ∧ rimCheck (rimW 2 0 none) (rimX 2 0 none) 2 = none ∧
    (∀ j, j < 2 → (rimW 2 0 none).lineFenced 31 (256 * j) = false) ∧ (rimX 0 256 (some 6)).sem = some 6 ∧
    ((rimW 0 0 (some 6)).stack 31).gathers = [] ∧ (((rimW 0 0 none).setStack 31 { gathers := [⟨24, 0, 6, 2⟩] }).stack 31).gathers[0]? = some ⟨24, 0, 6, 2⟩ ∧
    (rimW 0 1 none).running = false ∧ (rimX 0 1 none).daddr % 256 ≠ 0 ∧ rimCheck (rimW 3 0 none) (rimX 3 0 none) 1 = some 2 := by decide
/-- R185: 1.0 + 1.0 = 2.0 in the first two values of the line; STK_ACCS counts it. -/
theorem test_rim_acc :
    let w := { rimW 1 256 none with stkMem := ({} : Mem).write (stkAddr 31 256) (natLE 8 0x3F8000003F800000) }
    let t := after (exec (.rimAcc 0) (atW w))
    t.stkMem.num (stkAddr 31 256) 8 = 0x4000000040000000 ∧ t.rd (stkBase 31) Reg.stkAccs = 1 ∧ t.canal.flits = [] := by decide
/-- The last byte of port 1's window and of its chamber. -/
theorem witness_HostAccesses : (1 : Nat) < 2 ∧ 2 ^ 36 - 1 + [0x5A#8].length ≤ 2 ^ 36 ∧ [true].getD 0 false = true ∧ (2 ^ 36 - 1 : Nat) < 2 ^ 36 ∧
    2 ^ 36 ≤ 2 ^ 36 + 2 ^ 22 - 1 ∧ 2 ^ 22 - 1 + [0x5A#8].length ≤ 2 ^ 22 := by decide
/-- A fenced stack port puts the lines of its stack out of reach: byte 0 of port 0's window is stack 0's, byte 4,096 stack 1's. -/
theorem witness_LinesOutOfReach : ({ Wafer.reset with fences := [⟨fStackPort 0, 1, none⟩] } : Wafer).quayShut 4095 1 = true ∧
    ({ Wafer.reset with fences := [⟨fStackPort 0, 1, none⟩] } : Wafer).quayShut 4096 4096 = false ∧ Wafer.reset.quayShut (2 ^ 37 - 64) 64 = false ∧
    ({ Wafer.reset with fences := [⟨fStackPort 31, 1, none⟩] } : Wafer).lineFenced 31 0 = true := by decide
/-- R187: byte 4,096 × 33 + 5 of port 0's window is byte 4,096 + 5 of stack 1's quay. -/
theorem test_cxl_write : (after (exec (.cxlMemWrite 0 (4096 * 33 + 5) [0x5A#8] [true]) State.reset)).stkMem.get
    (stkAddr 1 (47104 * 2 ^ 21 + 4096 + 5)) = 0x5A#8 := by decide
/-- No flip, two flips and three; the last word of core memory. -/
theorem witness_Scrubbing : ([] : List Nat).eraseDups.length = 0 ∧ ([3, 3, 79].eraseDups.filter (· < 80)).length = 2 ∧
    ([0, 1, 79].eraseDups.filter (· < 80)).length = 3 ∧ 3 < ([0, 1, 2, 3].eraseDups.filter (· < 80)).length ∧ 2240 * 2 ^ 24 - 1 < scrubLimit 0 := by decide

/-- Cluster 0 with two frames (SCRATCH 14), 16 pages admitted, all readable, pages 0 and 1 on stacks 0 and 1; and descriptors at 4,096 of site 3. -/
def tierW (t : Tier) (l : List Byte) : Wafer :=
  let w := ((put coreW 4096 l).wr (tirBase 0) Reg.tirSplitScratch 14).wr tirmBase Reg.tirPagesPages 16
  { w.wr (penBase 0) Reg.tirPenqT1 16 with
    reservoir := { place1 := dealPages (List.range 16), ready1 := List.range 16 }, tiers := mapSet (fun _ => {}) [] 0 t }
def cacheOf (num page : Nat) (filled : Bool) (pins : List Pin) : CacheFrame := ⟨num, page, 1, filled, !filled, pins⟩
def twoFrames : Tier := { frames := [cacheOf 0 14 true [], cacheOf 1 15 true [⟨5, 6⟩]] }
/-- Two pages from page 14, DT 1, and a GET of 64 bytes at the end of page 15 to 16,384, semaphore 6. -/
def pagesB (first : Nat) : List Byte := natLE 4 first ++ natLE 2 2 ++ natLE 2 1 ++ [0#8] ++ List.replicate 23 0#8
def getB (ra : Nat) : List Byte := natLE 8 ra ++ natLE 4 64 ++ natLE 4 16384 ++ [0#8, 6#8, 0#8] ++ List.replicate 13 0#8
def getX : Get := ⟨3, 16 * 2 ^ 21 - 64, 64, 16384, 0, 6, 1, []  , []⟩
theorem witness_TierInstructions : (tierW {} (pagesB 14)).descAddr (ins 0 5 0 0) = 4096 ∧ (tierW {} (pagesB 14)).coreMem.badIn (coreAddr 3 4096) 32 = false ∧
    (tierW {} (pagesB 14)).pagesOk (pagesDesc ((tierW {} (pagesB 14)).coreBytes 3 4096 32)) = true ∧
    (tierW {} (pagesB 15)).pagesOk (pagesDesc ((tierW {} (pagesB 15)).coreBytes 3 4096 32)) = false ∧
    countIf (fun (p : Nat × Nat × List Nat) => p.1 == 3) ((tierW { prefetches := List.replicate 16 (3, 0, [1]) } []).tier 0).prefetches = 16 ∧
    countIf (fun (g : Get) => g.site == 3) ((tierW { gets := List.replicate 8 getX } []).tier 0).gets = 8 ∧
    fieldAt (getB (16 * 2 ^ 21 - 64)) 0 8 % 2 ^ 40 + fieldAt (getB 0) 8 4 ≤ (tierW {} []).pageCount * 2 ^ 21 ∧
    (tierW {} []).pageCount * 2 ^ 21 < fieldAt (getB (16 * 2 ^ 21 - 32)) 0 8 % 2 ^ 40 + fieldAt (getB 0) 8 4 ∧
    landingOk (tierW {} []) 3 0 16384 64 = true := by decide
theorem witness_PrefetchedPages : (twoFrames.frames.find? (fun f => f.page == 15 && f.buf == 1)) = some (cacheOf 1 15 true [⟨5, 6⟩]) ∧
    (twoFrames.frames.find? (fun f => f.page == 3 && f.buf == 1)) = none ∧ (tierW twoFrames []).framePlace 0 3 = some (0, true) ∧
    (tierW { frames := [cacheOf 0 14 true [⟨5, 6⟩], cacheOf 1 15 true [⟨5, 6⟩]] } []).framePlace 0 3 = none := by decide
/-- R197: page 3 takes frame 0, the only one that is not pinned. -/
theorem test_prefetch_page : (((tierW twoFrames []).prefetchPage 0 3 1 ⟨9, 9⟩).1.tier 0).frames = [cacheOf 1 15 true [⟨5, 6⟩], ⟨0, 3, 1, false, false, [⟨9, 9⟩]⟩] := by decide
theorem witness_TierEvents : ((tierW { frames := [cacheOf 1 15 false []] } []).tier 0).frames.any (fun f => f.num == 1 && f.filling) = true ∧
    ((tierW { gets := [getX] } []).tier 0).gets[0]? = some getX ∧ (tierW {} []).tick % 64 = 0 ∧ ((tierW twoFrames []).tiers.map (·.1)).Nodup ∧
    ((tierW {} []).wr lckBase Reg.lckTickTick 65).tick % 64 ≠ 0 := by decide
theorem witness_TierWaits : ({ tierW { frames := [cacheOf 1 15 false []] } [] with fences := [⟨fGroup 0 3, 1, none⟩] } : Wafer).groupsShut 0 0 512 = true ∧
    (tierW { frames := [cacheOf 1 15 false []] } []).groupsShut 0 0 512 = false ∧ (cacheOf 1 15 false []).filling = true ∧
    ({ tierW {} [] with fences := [⟨fGroup 0 3, 1, none⟩] } : Wafer).groupsShut 0 192 64 = true := by decide
theorem witness_CompletedGets : ((tierW { gets := [getX] } []).tier 0).gets[0]? = some getX ∧
    ((pagesOf getX.ra getX.len).map fun p => (tierW { frames := [cacheOf 0 15 true []], gets := [getX] } []).pageSource 0 getX p).any (fun x => x == .none || x == .fill) = false ∧
    ((pagesOf getX.ra getX.len).map fun p => (tierW { frames := [cacheOf 0 15 false [⟨5, 6⟩]], gets := [getX] } []).pageSource 0 getX p).any (fun x => x == .none || x == .fill) = true ∧
    getX.dspace ≤ 1 ∧ ((tierW {} []).core 3).semGet 6 + 1 ≤ 65535 := by decide

/-! ## Towpath links -/

/-- Port 175 in a link state, with its entry. -/
def linkW (st : Nat) (p : Port) : Wafer := (((Wafer.reset.wr (portBase 175) Reg.tpLinkstatState st).wr (portBase 175) Reg.tpLinkctlPlan 1).wr (portBase 175) Reg.tpTagCur 0x10007).setPort 175 p
def expect1 (hash : Nat) (w : Wafer) : Wafer := w.wrs (portBase 175) [(Reg.tpExpidValid, 1), (Reg.tpExphash0Hash, hash)]
def rec1 : PeerRec := ⟨5, 0, 0, 0⟩
def keyxP (initiator : Bool) (shared : Option (List Byte)) : Port := { setup := true, exch := { initiator := initiator, shared := shared } }
theorem witness_BringUp : linkState (linkW 1 {}) 175 = 1 ∧ widthFor 175 ((linkW 1 {}).rd (portBase 175) Reg.tpLinkstatRetired) = some (16, 0, 65535) ∧
    widthFor 175 0x8000 = some (8, 0, 255) ∧ linkState (linkW 2 {}) 175 = 2 ∧ expectHeld ((linkW 2 {}).storePeer 175 rec1 [] []) 175 = false ∧
    peerMatches ((expect1 5 (linkW 2 {})).storePeer 175 rec1 [] []) 175 = true ∧ expectHeld ((expect1 6 (linkW 2 {})).storePeer 175 rec1 [] []) 175 = true ∧
    peerMatches ((expect1 6 (linkW 2 {})).storePeer 175 rec1 [] []) 175 = false ∧ linkState (linkW 3 {}) 175 = 3 ∧ linkState (linkW 4 {}) 175 = 4 ∧
    (linkW 2 {}).portInJob 175 = false ∧ (linkW 3 {}).rd (portBase 175) Reg.tpPeeridValid = 0 ∧
    ((linkW 3 {}).storePeer 175 rec1 [] []).rd (portBase 175) Reg.tpPeeridValid = 1 ∧
    (∀ i ∈ [false, true], ∀ x ∈ [none, some [7#8]], ((linkW 4 (keyxP i x)).port 175).setup = true ∧ ((linkW 4 (keyxP i x)).port 175).exch.initiator = i ∧
      ((linkW 4 (keyxP i x)).port 175).exch.shared = x ∧ expectHeld (linkW 4 (keyxP i x)) 175 = false ∧ (linkW 4 (keyxP i x)).portInJob 175 = false) ∧
    ((linkW 4 {}).port 175).setup = false := by decide +kernel
/-- Whether a chain or a signature verifies is a free value (log entry 3): the partner's chains verify at the Umastad roots or at none. -/
theorem peer_anchors (w : Wafer) (h : chainsOk (w.port 175).peerEd (w.port 175).peerMl Config.edRootHash Config.mlRootHash 0 w.chainTime = true) :
    (w.peerAnchor 175 1).isSome = true := by simp [Wafer.peerAnchor, h]
theorem peer_anchors_nowhere (w : Wafer) (h : chainsOk (w.port 175).peerEd (w.port 175).peerMl Config.edRootHash Config.mlRootHash 0 w.chainTime = false) :
    w.peerAnchor 175 1 = none := by simp [Wafer.peerAnchor, h]
theorem keyx_verifies (w : Wafer) (ed ml : List Byte) (he : ∀ k m, Config.ed25519Ok k m ed = true) (hm : ∀ k m, Config.mlDsaOk k m ml = true) :
    w.keyxVerified 175 ed ml = true := by simp [Wafer.keyxVerified, he, hm]
theorem keyx_fails (w : Wafer) (ed ml : List Byte) (he : ∀ k m, Config.ed25519Ok k m ed = false) : w.keyxVerified 175 ed ml = false := by
  simp [Wafer.keyxVerified, he]
/-- Table 9-8: signatures before any secret is shared quarantine the port (3). -/
theorem test_keyx : linkState (after (exec (.keyx 175 (.signed [] [])) (atW (linkW 4 (keyxP true none))))) 175 = 3 := by decide +kernel

/-- An unprotected VL0 frame with the next SEQ, 9, of a job tag and a MSG; one that says it is protected; a CRC that is wrong. -/
def vl0F (tag seq msg : Nat) (prot : Bool) : Frame := ⟨0, 0, prot, false, seq, 4, tag, [0#8, 0#8, BitVec.ofNat 8 msg, 0#8]⟩
def vl0B (tag seq msg : Nat) (prot : Bool) : List Byte := frameBytes (vl0F tag seq msg prot) []
/-- A protected VL1 frame of job tag 0x10007 with MSG 4 (XFER) for logical core 0 at address 16,384. -/
def xferB : List Byte := natLE 2 0 ++ [4#8, 0#8] ++ natLE 4 512 ++ List.replicate 224 0x77#8
def frameX (tag : Nat) : Frame := ⟨1, 0, true, false, 9, 232, tag, xferB⟩
def upP : Port := { expectSeq := 9, secret := some 77 }
def upW : Wafer := { linkW 6 upP with job := { phase := .running, placement := [0] } }
theorem witness_HopFrames : linkState upW 175 ≠ 0 ∧ linkState upW 175 ≠ 7 ∧ crcOk (vl0B 0x10007 9 6 false) = true ∧ frameOf (vl0B 0x10007 9 6 false) = vl0F 0x10007 9 6 false ∧
    (upW.port 175).expectSeq = 9 ∧ mustProtect (vl0F 0x10007 9 6 false) = false ∧ portCarries upW 175 0 = true ∧ upW.portFenced 175 = false ∧
    arrayShut upW 175 (vl0F 0x10007 9 6 false) = false ∧ isXfer (vl0F 0x10007 9 6 false) = false ∧ tagOk upW 175 0x10007 = true ∧
    fieldAt (vl0F 0x10007 9 6 false).payload 2 1 ≤ 6 ∧ frameOf (vl0B 0x10008 9 6 false) = vl0F 0x10008 9 6 false ∧ tagOk upW 175 0x10008 = false ∧
    crcOk (List.replicate 256 0#8) = false ∧ fullLanes 175 ≤ 16 := by decide +kernel
/-- A frame 32,767 ahead; a protected one on a link without a session, outside a job. -/
theorem witness_HopFramesApart : crcOk (vl0B 0x10007 (9 + 32767) 6 false) = true ∧ (frameOf (vl0B 0x10007 (9 + 32767) 6 false)).seq = 32776 ∧
    (32776 + 2 ^ 16 - 9) % 2 ^ 16 < 2 ^ 15 ∧ (upW.port 175).nakked = false ∧ (frameOf (vl0B 0x10007 9 6 true)).prot = true ∧
    crcOk (vl0B 0x10007 9 6 true) = true ∧ ((linkW 5 { expectSeq := 9 }).port 175).openFrame (vl0F 0x10007 9 6 true) [] = none ∧
    linkState (linkW 5 { expectSeq := 9 }) 175 = 5 ∧ (linkW 5 { expectSeq := 9 }).portInJob 175 = false := by decide +kernel
/-- R214: a bad CRC asks for SEQ 9 again. -/
theorem test_hop_bad_crc : (after (exec (.hopFrameReceive 175 ⟨List.replicate 256 0#8, none⟩) (atW upW))).out = [.linkCtl 175 3 [9]] := by decide +kernel
/-- R223: a VL0 frame with another tag is counted in TPx_DROPTAG. -/
theorem test_hop_bad_tag : (after (exec (.hopFrameReceive 175 ⟨vl0B 0x10008 9 6 false, none⟩) (atW upW))).rd (portBase 175) Reg.tpDroptag = 1 := by decide +kernel
/-- The header of spec/09, Table 9-4, and the CRC-32 of the ASCII digits 1 to 9 (IEEE 802.3). -/
theorem test_frame_bytes : frameHeader ⟨1, 0, true, false, 0x1234, 232, 0x00270003, []⟩ = [0x41#8, 0x34#8, 0x12#8, 0xE8#8, 0x03#8, 0x00#8, 0x27#8, 0x00#8] ∧
    crc32 (asciiBytes "123456789") = 0xCBF43926 := by decide +kernel
/-- AES-256 of NIST SP 800-38D's test case 13: the zero key and nonce give this tag over nothing. -/
theorem test_gcm_tag : gcmMac (List.replicate 32 0#8) (List.replicate 12 0#8) [] [] =
    [0x53#8, 0x0F#8, 0x8A#8, 0xFB#8, 0xC7#8, 0x45#8, 0x36#8, 0xB9#8, 0xA9#8, 0x63#8, 0xB4#8, 0xF1#8, 0xC4#8, 0xCB#8, 0x73#8, 0x8B#8] := by decide +kernel

def txX (seq : Nat) : TxFrame := ⟨7, 1, 0, 0x10007, seq, [], none, []⟩
def replayP (n : Nat) : Port := { replay := [txX 65535, txX 0], resends := n, owed := [0, 63, 0, 0], unacked := 1 }
theorem witness_CreditsAndReplay : ((linkW 6 (replayP 15)).port 175).egress = [] ∧ 0 < ((linkW 6 (replayP 15)).port 175).ackedCount 0 ∧
    indexOf? (fun (f : TxFrame) => f.seq == 0) ((linkW 6 (replayP 15)).port 175).replay = some 1 ∧ ((linkW 6 (replayP 15)).port 175).resends < 16 ∧
    16 ≤ ((linkW 6 (replayP 16)).port 175).resends ∧ (linkW 6 (replayP 16)).portInRun 175 = false ∧ ((linkW 6 (replayP 15)).port 175).replay ≠ [] ∧
    ((linkW 6 (replayP 15)).port 175).owed.all (· == 0) = false ∧ ((linkW 6 (replayP 15)).port 175).unacked ≠ 0 := by decide +kernel
/-- R212: VL1 of an area port never holds more than 4,096 credits. -/
theorem test_credit_cap : ((after (exec (.credit 175 [0, 9, 0, 1]) (atW (linkW 6 { credits := [0, 4090, 0, 0] })))).port 175).credits = [0, 4096, 0, 1] := by decide +kernel
theorem witness_LanesAndLosses : (15 : Nat) < fullLanes 175 ∧ (7 : Nat) < fullLanes 0 ∧ ((linkW 6 { widthTo := some 1 }).port 175).widthTo = some 1 ∧
    ((linkW 6 { secret := some 7, txTotal := 2 ^ 32 }).port 175).secret.isSome = true ∧ 2 ^ 32 ≤ ((linkW 6 { secret := some 7, txTotal := 2 ^ 32 }).port 175).txTotal ∧
    (linkW 6 {}).rd (portBase 175) Reg.tpKeystatKph ≤ 1 ∧ (linkW 6 {}).portInRun 175 = false ∧ upW.portInRun 175 = true ∧ (2 ≤ 2 ∧ 6 ≤ 6) ∧
    ((linkW 6 { oldKey := true }).port 175).oldKey = true ∧ linkState (linkW 2 {}) 175 = 2 ∧ linkState (linkW 6 {}) 175 = 6 ∧
    partnerSilent (linkW 5 { hbSeen := true, hbMissed := 3 }) 175 = true ∧ partnerSilent { linkW 6 { hbSeen := true, hbMissed := 3 } with job := { phase := .running } } 175 = true ∧
    ({ linkW 6 { hbSeen := true, hbMissed := 3 } with job := { phase := .running } }).portInRun 175 = true := by decide +kernel
/-- A flit for port 175 at its gate; the port with and without credit, fenced, and with its egress arbiter fenced; and the frame that lands at
site 0 of field 0. -/
def gateX : Flit := { flitX 20 0 20 0 with runit := 207, short := true, data := List.replicate 32 0x11#64 }
def gateW (p : Port) : Wafer := { linkW 6 p with canal := { flits := [gateX] } }
theorem witness_Transfers : (gateW { credits := fullCredits 175 }).flitAt 0 = some gateX ∧ atPort gateX = true ∧ gateX.runit - 32 = 175 ∧
    (gateW {}).portFenced 175 = false ∧ portCarries (gateW {}) 175 1 = true ∧ 0 < ((gateW { credits := fullCredits 175 }).port 175).credits.getD 1 0 ∧
    (gateW {}).fenced (fEgress 175) = false ∧ ({ gateW {} with fences := [⟨fEgress 175, 1, none⟩] } : Wafer).fenced (fEgress 175) = true ∧
    ({ gateW {} with fences := [⟨fEgress 175, 1, none⟩] } : Wafer).portFenced 175 = false ∧ ((gateW { widthTo := some 0 }).port 175).widthTo.isSome = true ∧
    ((gateW {}).port 175).replay.length < replayRoom 175 ∧ replayRoom 175 ≤ (List.replicate (replayRoom 175) (txX 0)).length ∧
    ((gateW {}).port 175).credits.getD 1 0 = 0 ∧
    ({ gateW {} with fences := [⟨fPort 175, 1, none⟩] }).portFenced 175 = true ∧ isXfer (frameX 0x10007) = true ∧
    upW.portFenced 175 = false ∧ arrayShut upW 175 (frameX 0x10007) = false ∧ tagOk upW 175 0x10007 = true ∧ upW.running = true ∧
    fieldAt xferB 0 2 % 2 ^ 11 / 16 < upW.job.placement.length ∧ landingOk upW (upW.siteOf 0 0 0) 0 16384 224 = true ∧
    landingOk upW (upW.siteOf 0 0 0) 0 (2 ^ 24 - 224) 224 = true ∧ tagOk upW 175 0x10008 = false := by decide +kernel
/-- R227: the frame's 224 bytes go to logical core 0 of cluster 0, at address 512 × 32. -/
theorem test_xfer_lands : ((after (exec (.xferFrame 175 (frameX 0x10007)) (atW upW))).canal.flits.map fun f => (f.daddr, f.short, f.payload)) =
    [(16384, true, List.replicate 224 0x77#8)] := by decide +kernel

/-! ## Parameter ingest -/

/-- FIPS 202: SHA3-256 of the empty message begins a7 ff c6 f8. -/
theorem test_sha3_empty : (natLE 32 (sha3 [])).take 4 = [0xA7#8, 0xFF#8, 0xC6#8, 0xF8#8] := by decide +kernel

/-- A base source of one page that expects generation 2, its manifest 9 of one chunk, and a train 4 from port 175 to ports 174 and 173. -/
def src1 : Source := ⟨0, 0, 175, 0, 1, 0, 2, 0⟩
def man1 : Manifest := ⟨9, 2, 0, 10, 1, 65536, 77⟩
def st1 : SrcSt := { src := src1, next := some man1, keyNext := some 7, expects := 2 }
def train1 (ready : Bool) : Train := ⟨4, 175, [174, 173], 1, 0, 0, [(174, 9, 2), (173, 9, 2)], ready⟩
def inW (st : SrcSt) (ready : Bool) (g : Ingest) : Wafer :=
  { linkW 6 upP with ingest := { g with admitted := true, sources := [st], trains := [train1 ready], nextBuf := 1 }, reservoir := { place1 := [(3, 0)] } }
def msg (body : List Byte) : Vl0Msg := ⟨175, 4, false, true, body⟩

/-- The manifest of R239 for that source: one section, the key all zeros. -/
def mTable : List Byte := natLE 4 0 ++ natLE 4 1 ++ natLE 8 0
def mHead (pub table : Nat) : List Byte :=
  natLE 4 0x4E414D57 ++ natLE 2 1 ++ [0#8, 10#8] ++ natLE 8 9 ++ natLE 4 2 ++ natLE 4 1 ++ natLE 8 65536 ++ natLE 4 1 ++ natLE 2 1 ++ natLE 2 0 ++
    natLE 32 pub ++ natLE 32 77 ++ natLE 32 table ++ List.replicate 120 0#8
def mKey : List Byte := List.replicate 1984 0#8
theorem mKey_length : mKey.length = 1984 := List.length_replicate
def mBody (pub table : Nat) : List Byte := mHead pub table ++ (mKey ++ (mTable ++ List.replicate 3373 0#8))
theorem mBody_drop256 (p t : Nat) : (mBody p t).drop 256 = mKey ++ (mTable ++ List.replicate 3373 0#8) := List.drop_left' (i := 256) (by rfl)
theorem mBody_key (p t : Nat) : bytesAt (mBody p t) 256 1984 = mKey := by
  have hl : (mBody p t).length = 5629 := by
    simp only [mBody, mHead, mKey, mTable, List.length_append, List.length_replicate, natLE_length, List.length_cons, List.length_nil]
  unfold bytesAt
  rw [mBody_drop256, hl, List.take_left' (i := 1984) mKey_length]
  exact List.append_nil _
theorem mBody_table (p t : Nat) : bytesAt (mBody p t) 2240 16 = mTable := by
  have hl : (mBody p t).length = 5629 := by
    simp only [mBody, mHead, mKey, mTable, List.length_append, List.length_replicate, natLE_length, List.length_cons, List.length_nil]
  have hd : (mBody p t).drop 2240 = mTable ++ List.replicate 3373 0#8 := by
    rw [show 2240 = 256 + 1984 from rfl, ← List.drop_drop, mBody_drop256, List.drop_left' (i := 1984) mKey_length]
  unfold bytesAt
  rw [hd, hl, List.take_left' (i := 16) (by rfl)]
  exact List.append_nil _
theorem mBody_pub (p t : Nat) : fieldAt (mBody p t) 40 32 = p % 256 ^ 32 := leNat_natLE 32 p
theorem mBody_th (p t : Nat) : fieldAt (mBody p t) 104 32 = t % 256 ^ 32 := leNat_natLE 32 t
def stM (p : Nat) : SrcSt := { src := { src1 with pubHash := p }, expects := 2 }
/-- The checks before the signatures pass; the outcomes of the two signature checks are free values (log entry 3). -/
theorem manifest_passes (p t : Nat) (hp : sha3 mKey = p) (ht : sha3 mTable = t) : ∃ key sig key' sig', manifestStatus (stM p) (mBody p t) =
    sigStatus (Config.ed25519Ok key ((mBody p t).take 256) sig) (Config.mlDsaOk key' ((mBody p t).take 256) sig') := by
  have hn : fieldAt (mBody p t) 36 2 = 1 := leNat_natLE 2 1
  have hp' : fieldAt (mBody p t) 40 32 = p := by rw [mBody_pub, ← hp, sha3_bytes]
  have ht' : fieldAt (mBody p t) 104 32 = t := by rw [mBody_th, ← ht, sha3_bytes]
  have hs : (stM p).src.pubHash = p := rfl
  refine ⟨bytesAt (mBody p t) 256 32, bytesAt (mBody p t) (2240 + 16) 64, bytesAt (mBody p t) 288 1952, bytesAt (mBody p t) (2304 + 16) 3309, ?_⟩
  unfold manifestStatus
  simp only [hn, hp', ht', hs, mBody_key, mBody_table, Nat.mul_one, hp, ht]
  have hm : manifestHeader (mBody p t) = man1 := by
    show (⟨fieldAt (mBody p t) 8 8, fieldAt (mBody p t) 16 4, fieldAt (mBody p t) 6 1, fieldAt (mBody p t) 7 1, fieldAt (mBody p t) 20 4,
      fieldAt (mBody p t) 24 8, fieldAt (mBody p t) 72 32⟩ : Manifest) = _
    rw [show fieldAt (mBody p t) 8 8 = 9 from leNat_natLE 8 9, show fieldAt (mBody p t) 16 4 = 2 from leNat_natLE 4 2, show fieldAt (mBody p t) 6 1 = 0 from rfl,
      show fieldAt (mBody p t) 7 1 = 10 from rfl, show fieldAt (mBody p t) 20 4 = 1 from leNat_natLE 4 1, show fieldAt (mBody p t) 24 8 = 65536 from leNat_natLE 8 65536,
      show fieldAt (mBody p t) 72 32 = 77 from leNat_natLE 32 77]
    rfl
  have hl : (mBody p t).length = 5629 := by
    simp only [mBody, mHead, mKey, mTable, List.length_append, List.length_replicate, natLE_length, List.length_cons, List.length_nil]
  simp only [hm, hl, show fieldAt (mBody p t) 0 4 = 0x4E414D57 from leNat_natLE 4 0x4E414D57, show fieldAt (mBody p t) 4 2 = 1 from leNat_natLE 2 1,
    show fieldAt (mBody p t) 32 4 = 1 from leNat_natLE 4 1]
  rw [if_neg (by simp [man1, stM, src1, ceilDiv, clog2]), if_neg (by simp), if_neg (by simp [man1]; decide)]
theorem witness_Manifests : ingestOpen (inW (stM 5) false {}) 175 = true ∧ (inW (stM 5) false {}).ingest.manifestSource (msg (mBody 5 6)) = some 0 ∧
    (inW (stM 5) false {}).ingest.sources = [stM 5] ∧ manifestStatus (stM 5) [] = 0x0103 ∧ sigStatus true true = 0 := by decide

def bargeB : List Byte := natLE 8 9 ++ natLE 4 0 ++ natLE 4 2 ++ List.replicate 16 0#8 ++ List.replicate 65552 0#8
def seg1 (leaf : Nat) : HeldSegment := ⟨0, 2, 0, [leaf], []⟩
def bargeW (segs : List HeldSegment) (st : SrcSt) : Wafer := inW st true { segments := segs }
theorem bargeB_length : bargeB.length = 65584 := by simp only [bargeB, List.length_append, List.length_replicate, natLE_length]
/-- The leaf is the body's digest, or another number. -/
theorem witness_Barges : ingestOpen (bargeW [] st1) 175 = true ∧ ((bargeW [] st1).ingest.trainOf 175 4).isSome = true ∧
    (bargeW [] st1).ingest.beforeReady (msg bargeB) = false ∧ (bargeW [] st1).ingest.named (msg bargeB) (fieldAt bargeB 0 8) (fieldAt bargeB 12 4) = some 0 ∧
    fieldAt bargeB 16 1 = st1.src.kind ∧ (st1.next.map fun x => st1.src.holds x 0).getD false = true ∧ st1.passedNext.contains 0 = false ∧
    (bargeW [] st1).pageBusy 1 0 = false ∧ ¬ 65536 ≤ (bargeW [] st1).ingest.chunks.length ∧ (bargeW [] st1).voids (msg bargeB) 0 = false ∧
    (bargeW [] st1).inputsOf 175 = [] ∧ 0 < (bargeW [] st1).ingest.sources.length ∧ st1.keyNext = some 7 ∧ (∀ n, n < 256 → (bargeW [] st1).lineFenced 3 (256 * n) = false) ∧
    (bargeW [] st1).ingest.segmentFor 0 2 0 = none ∧ (bargeW [] st1).ingest.chunks.any (fun c => c.source == 0 && c.chunk == 0) = false ∧
    (bargeW [] { st1 with passedNext := [0] }).ingest.srcAt 0 = { st1 with passedNext := [0] } ∧ (inW st1 false {}).ingest.beforeReady (msg bargeB) = true := by
  decide +kernel
theorem witness_Barges_leaf (n : Nat) : (bargeW [seg1 n] st1).ingest.segmentFor 0 2 0 = some (seg1 n) ∧ (seg1 n).leaves.getD (0 % 1024) 0 = n := ⟨rfl, rfl⟩
/-- A barge of chunk 0 whose tag is that of zeros under content key 7: it opens. -/
def bargeHead : List Byte := natLE 8 9 ++ natLE 4 0 ++ natLE 4 2 ++ List.replicate 16 0#8
def bargeTag : List Byte := (gcmMac (natLE 32 7) (natLE 4 0 ++ natLE 4 2 ++ natLE 4 0) (bargeHead.take 17) (List.replicate 65536 0#8)).take 16
def bargeG : List Byte := bargeHead ++ (List.replicate 65536 0#8 ++ bargeTag)
theorem gcmMac_length (key nonce aad ct : List Byte) : (gcmMac key nonce aad ct).length = 16 := by
  unfold gcmMac gcmTag; simp only [List.length_reverse, natLE_length]
theorem bargeTag_length : bargeTag.length = 16 := by simp only [bargeTag, List.length_take, gcmMac_length]; rfl
theorem bargeHead_length : bargeHead.length = 32 := by rfl
theorem bargeG_length : bargeG.length = 65584 := by
  simp only [bargeG, List.length_append, bargeHead_length, List.length_replicate, bargeTag_length]
theorem bargeG_body : bytesAt bargeG 32 65536 = List.replicate 65536 0#8 := by
  unfold bytesAt
  rw [bargeG_length, bargeG, List.drop_left' (i := 32) bargeHead_length, List.take_left' (i := 65536) List.length_replicate]
  exact List.append_nil _
theorem bargeG_tag : bytesAt bargeG 65568 16 = bargeTag := by
  unfold bytesAt
  rw [bargeG_length, bargeG, show 65568 = 32 + 65536 from rfl, ← List.drop_drop, List.drop_left' (i := 32) bargeHead_length,
    List.drop_left' (i := 65536) List.length_replicate, List.take_of_length_le (Nat.le_of_eq bargeTag_length)]
  exact List.append_nil _
theorem bargeG_opens : gcmOpen 16 (natLE 32 7) (natLE 4 0 ++ natLE 4 2 ++ natLE 4 0) (bargeG.take 17) (bytesAt bargeG 32 65536) (bytesAt bargeG 65568 16) =
    some (gcmCrypt (natLE 32 7) (natLE 4 0 ++ natLE 4 2 ++ natLE 4 0) (List.replicate 65536 0#8)) := by
  rw [bargeG_body, bargeG_tag]
  exact if_pos rfl
theorem witness_Barges_good : fieldAt bargeG 8 4 = 0 ∧ fieldAt bargeG 12 4 = 2 ∧ fieldAt bargeG 0 8 = 9 ∧ fieldAt bargeG 16 1 = 0 := by decide
/-- A GET still reads the page of the freed buffer; a store that is full; an input that holds a message. -/
def busyW : Wafer := { bargeW [] st1 with tiers := [(0, { gets := [⟨3, 0, 64, 0, 0, 0xFF, 1, [], [(0, 3, 0)]⟩] })] }
theorem witness_Barges_wait : busyW.pageBusy 1 0 = true ∧ (bargeW [] st1).ingest.inputs.any (fun y => !y.seg && y.m == msg bargeB) = false ∧
    ({ bargeW [] st1 with ingest := { (bargeW [] st1).ingest with inputs := [⟨true, msg [], false, false⟩] } } : Wafer).inputsOf 175 ≠ [] ∧
    65536 ≤ (List.replicate 65536 0).length := ⟨by decide, by decide, by decide, Nat.le_of_eq List.length_replicate.symm⟩
/-- R251: a chunk that has passed is counted in WST_DUP. -/
theorem test_barge_dup : (after (exec (.barge (msg bargeB)) (atW (bargeW [] { st1 with passedNext := [0] })))).rd wstBase Reg.wstDup = 1 := by decide +kernel

/-- A segment message of all-zero leaves whose climb is the manifest's root. -/
def segB : List Byte := natLE 8 9 ++ natLE 4 2 ++ natLE 4 0 ++ natLE 2 0 ++ List.replicate 14 0#8 ++ List.replicate 32768 0#8
def segLeaves : List Nat := (List.range 1024).map fun i => fieldAt segB (32 + 32 * i) 32
def manS (r : Nat) : Manifest := { man1 with root := r }
def stS (r : Nat) : SrcSt := { st1 with next := some (manS r) }
theorem segB_length : segB.length = 32800 := by simp only [segB, List.length_append, List.length_replicate, natLE_length]
theorem segB_ok (r : Nat) (hr : (merkleUps 10 segLeaves).getD 0 0 = r) : segmentOk (manS r) segB = some ⟨0, 2, 0, segLeaves, []⟩ := by
  have h : fieldAt segB 16 2 = 0 := by decide
  have h12 : fieldAt segB 12 4 = 0 := by decide
  unfold segmentOk
  simp only [h, h12]
  rw [if_pos ⟨rfl, segB_length, hr⟩]
  rfl
def wrapB : List Byte := natLE 8 9 ++ natLE 4 2 ++ List.replicate 100 0#8
def keptW : KeyWrap := ⟨9, 2, 77, 1, wrapB⟩
/-- A KEYWRAP body whose tag is that of a wrapped key of zeros under the session's wrap key: it opens. -/
def wrapKeyW : List Byte := hkdfExpand (natLE 32 77) (asciiBytes "towpath wrap" ++ Config.keyContext 0 0) 32
def wrapHead : List Byte := natLE 8 9 ++ natLE 4 2 ++ List.replicate 12 0#8
def wrapG : List Byte := wrapHead ++ (List.replicate 32 0#8 ++ gcmMac wrapKeyW (List.replicate 12 0#8) (natLE 8 9 ++ natLE 4 2) (List.replicate 32 0#8))
theorem wrapG_opens : gcmOpen 16 wrapKeyW (bytesAt wrapG 12 12) (bytesAt wrapG 0 12) (bytesAt wrapG 24 32) (bytesAt wrapG 56 16) =
    some (gcmCrypt wrapKeyW (List.replicate 12 0#8) (List.replicate 32 0#8)) := by
  have hl := gcmMac_length wrapKeyW (List.replicate 12 0#8) (natLE 8 9 ++ natLE 4 2) (List.replicate 32 0#8)
  have h1 : bytesAt wrapG 12 12 = List.replicate 12 0#8 := by simp only [bytesAt, wrapG, List.length_append, hl]; rfl
  have h2 : bytesAt wrapG 0 12 = natLE 8 9 ++ natLE 4 2 := by simp only [bytesAt, wrapG, List.length_append, hl]; rfl
  have h3 : bytesAt wrapG 24 32 = List.replicate 32 0#8 := by simp only [bytesAt, wrapG, List.length_append, hl]; rfl
  have h4 : bytesAt wrapG 56 16 = gcmMac wrapKeyW (List.replicate 12 0#8) (natLE 8 9 ++ natLE 4 2) (List.replicate 32 0#8) := by
    unfold bytesAt
    rw [show wrapG.length = 72 by simp only [wrapG, List.length_append, hl]; rfl, wrapG, show 56 = 24 + 32 from rfl, ← List.drop_drop,
      List.drop_left' (i := 24) (by rfl), List.drop_left' (i := 32) (by rfl), List.take_of_length_le (Nat.le_of_eq hl)]
    exact List.append_nil _
  rw [h1, h2, h3, h4]
  exact if_pos (List.take_of_length_le (Nat.le_of_eq hl))
/-- Of two bodies that differ in their tags, one does not open. -/
def wrapT (tag : Byte) : List Byte := wrapHead ++ (List.replicate 32 0#8 ++ List.replicate 16 tag)
theorem wrapT_fails : ∃ tag, gcmOpen 16 wrapKeyW (bytesAt (wrapT tag) 12 12) (bytesAt (wrapT tag) 0 12) (bytesAt (wrapT tag) 24 32) (bytesAt (wrapT tag) 56 16) = none := by
  by_cases h : (gcmMac wrapKeyW (List.replicate 12 0#8) (natLE 8 9 ++ natLE 4 2) (List.replicate 32 0#8)).take 16 = List.replicate 16 0#8
  · exact ⟨1#8, if_neg fun h' => absurd (h.symm.trans h') (by decide)⟩
  · exact ⟨0#8, if_neg h⟩
theorem witness_SegmentsAndKeys : (inW (stS 5) true {}).ingest.named (msg segB) (fieldAt segB 0 8) (fieldAt segB 8 4) = some 0 ∧ (stS 5).next = some (manS 5) ∧
    (inW (stS 5) true {}).ingest.chunks = [] ∧ ((stS 5).src.inSegment (manS 5) 0).all (fun c => (stS 5).passedNext.contains c) = false ∧
    (inW (stS 5) true {}).ingest.segmentFor 0 2 0 = none ∧ (inW (stS 5) true {}).ingest.segments.length < 128 ∧
    segmentOk (manS 5) [] = none ∧ laneOpen (inW st1 true {}) 175 0 = true ∧ ((linkW 6 upP).port 175).secret.getD 0 = 77 ∧
    indexOf? (fun (y : SrcSt) => y.src.keyPort == 175 && (y.next.map fun y => y.id == 9 && y.gen == 2).getD false) (inW st1 true {}).ingest.sources = some 0 ∧
    indexOf? (fun (y : SrcSt) => y.src.keyPort == 175 && (y.next.map fun y => y.id == 9 && y.gen == 2).getD false) (inW (stM 5) true {}).ingest.sources = none ∧
    (inW (stM 5) true {}).ingest.keepAt 175 2 = some 0 ∧ (inW { stM 5 with kept := some (keptW, 0) } true {}).ingest.srcAt 0 = { stM 5 with kept := some (keptW, 0) } ∧
    64 ≤ tickDiff 64 0 ∧ tickDiff 63 0 < 64 ∧ tickFuture 16 16 = false ∧ (msg wrapG).prot = true ∧ (inW st1 true {}).voids (msg wrapG) 3 = false ∧
    ((inW st1 true {}).port 175).exch.recvDir = 0 ∧ (inW st1 true {}).ingest.stopped = false ∧
    ({ st1 with keyNext := none, keyFetchAt := some 16 } : SrcSt).keyFetchAt = some 16 ∧ 128 ≤ (List.replicate 128 (seg1 0)).length ∧
    (inW (stS 5) true {}).inputsOf 175 = [] := by decide +kernel

def relayB (gen : Nat) : List Byte := natLE 2 4 ++ [0#8, 1#8] ++ natLE 4 0 ++ natLE 8 9 ++ natLE 4 0 ++ natLE 4 gen ++ List.replicate 208 0#8
def relayF (gen : Nat) : Frame := ⟨0, 0, false, false, 9, 232, 0x10007, relayB gen⟩
theorem witness_Trains : ingestOpen (inW st1 true {}) 175 = true ∧ tagOk (inW st1 true {}) 175 0x10007 = true ∧ fieldAt (relayB 2) 2 1 ≤ 2 ∧
    bit (fieldAt (relayB 2) 3 1) 2 = false ∧ bit (fieldAt (relayB 2) 3 1) 0 = true ∧ (inW st1 true {}).ingest.trainOf 175 (fieldAt (relayB 2) 0 2) = some (train1 true) ∧
    (inW st1 true {}).relayCase (train1 true) (relayB 2) = 0 ∧ (inW st1 true {}).relayCase (train1 true) (relayB 3) = 2 ∧
    (inW st1 false {}).ingest.trains[0]? = some (train1 false) ∧ (inW st1 false {}).ingest.stopped = false ∧
    (inW st1 false {}).readyHolds (train1 false) = some man1 ∧ (inW (stM 5) false {}).readyHolds (train1 false) = none := by decide
/-- R249: the frame goes to both outputs, and is counted once. -/
theorem test_train_relay : let t := after (exec (.trainRelay 175 (relayF 2)) (atW (inW st1 true {})))
    t.rd wstBase Reg.wstRelayed = 1 ∧ t.ports.map (fun e => (e.1, e.2.egress.length)) = [(173, 1), (174, 1), (175, 0)] := by decide

/-- A request for chunk 0 (WHAT 0) at port 174, an output of the train. -/
def fetchB (what gen : Nat) : List Byte := natLE 8 9 ++ natLE 4 gen ++ natLE 4 0 ++ natLE 2 1 ++ natLE 1 what ++ natLE 13 0
def fetchR (what gen : Nat) : FetchIn := ⟨174, 4, 9, gen, 0, 1, what⟩
def outW (st : SrcSt) (g : Ingest) : Wafer := (((inW st true g).wr (portBase 174) Reg.tpLinkstatState 6).wr (portBase 174) Reg.tpLinkctlPlan 1).wr (portBase 174) Reg.tpTagCur 0x10007
def ff (attempt : Nat) : FetchOut := ⟨175, 0, 0, 0, 1, 8, attempt, 4, true⟩
def adapter : SrcSt := { src := { src1 with kind := 1 } }
theorem witness_Fetches : laneOpen (outW st1 {}) 174 0 = true ∧ (outW st1 {}).ingest.trains.any (fun t => t.outs.contains 174) = true ∧
    fetchR 0 2 = ⟨174, 4, fieldAt (fetchB 0 2) 0 8, fieldAt (fetchB 0 2) 8 4, fieldAt (fetchB 0 2) 12 4, fieldAt (fetchB 0 2) 16 2, fieldAt (fetchB 0 2) 18 1⟩ ∧
    fieldAt (fetchB 3 2) 18 1 = 3 ∧ (outW st1 {}).serveCase (fetchR 0 3) = .refuse 2 ∧ (outW st1 {}).serveCase (fetchR 0 2) = .wait ∧
    (outW { st1 with passedNext := [0] } {}).serveCase (fetchR 0 2) = .serve 0 true ∧ (outW st1 {}).ingest.waiting.length < 64 ∧
    (outW st1 { waiting := [fetchR 0 2] }).ingest.waiting[0]? = some (fetchR 0 2) ∧
    (∀ n ∈ [0, 1], (inW st1 true { fetches := [ff n] }).ingest.fetches.find? (fun f => f.port == 175 && f.stream == 4) = some (ff n)) ∧
    tickFuture (ff 1).due 9 = false ∧ (ff 1).due ≠ 9 ∧ adapter.src.kind = 1 ∧ (inW adapter true {}).ingest.nextFetch 0 = some (2, 0, 1) ∧
    (inW adapter true { fetches := [⟨175, 0, 2, 0, 1, 8, 0, 4, true⟩] }).ingest.nextFetch 0 = none ∧
    countIf (fun (f : FetchOut) => f.port == 175) (inW adapter true { fetches := List.replicate 63 (ff 0) }).ingest.fetches < 64 ∧
    (inW adapter true { fetches := List.replicate 63 (ff 0) }).ingest.outstanding 175 < 64 ∧ (ff 1).sent = true ∧
    (outW st1 { waiting := [fetchR 0 3] }).serveCase (fetchR 0 3) = .refuse 2 ∧ 64 ≤ (List.replicate 64 (fetchR 0 2)).length := by decide

/-! ## Chains and collectives -/

/-- A primary chain 5 of 60 elements: from port 175 to port 174, the tail, its slice on stack 0. -/
def chainE : ChainEntry := ⟨5, 0, 175, 0xFF, 174, 8, 60, 0, 0, 1, 0, 0, 0, 0, 20, 0, 6, 2⟩
def chainR (next : Nat) (frames : List GradFrame) (last : Bool) : ChainRun := ⟨chainE, 0, 0, [⟨175, next, frames, 0⟩], 0, [], last⟩
def chainW (rs : List ChainRun) : Wafer := { outW st1 {} with reduce := { chains := [chainE], runs := rs }, job := { phase := .running } }
/-- The second frame: elements 56 to 59. -/
def gradB (chain elem n : Nat) : List Byte := natLE 2 chain ++ [0#8, 2#8] ++ natLE 4 elem ++ (List.replicate n (natLE 4 0x3F800000)).flatten
theorem witness_GradFrames : laneOpen (chainW [chainR 56 [] false]) 175 1 = true ∧ (chainW [chainR 56 [] false]).chainInto 5 175 = some chainE ∧
    indexOf? (fun (r : ChainRun) => r.entry.chain == 5) (chainW [chainR 56 [] false]).reduce.runs = some 0 ∧
    indexOf? (fun (y : ChainIn) => y.port == 175) (chainR 56 [] false).ins = some 0 ∧ (chainR 56 [] false).ins[0]? = some ⟨175, 56, [], 0⟩ ∧
    fieldAt (gradB 5 56 4) 0 2 = 5 ∧ fieldAt (gradB 5 56 4) 4 4 = 56 ∧ 56 < chainE.nelem ∧ 56 % 16384 % 56 = 0 ∧ (gradB 5 56 4).length = 8 + 4 * frameLen 60 56 ∧
    (gradB 5 56 3).length ≠ 8 + 4 * frameLen 60 56 ∧ fieldAt (gradB 5 0 56) 4 4 ≠ 56 ∧ (gradB 5 0 56).length = 8 + 4 * frameLen 60 0 ∧
    (chainW []).chainInto 6 175 = none ∧ (chainW []).chainInto 5 175 = some chainE ∧
    indexOf? (fun (r : ChainRun) => r.entry.chain == 5) (chainW []).reduce.runs = none := by decide +kernel
def oneR : ChainRun := { chainR 0 [⟨0, false, false, List.replicate 56 0x3F800000⟩] false with ahead := List.replicate 60 (0x3F800000, false) }
theorem witness_JunctionSums : (chainW [oneR]).reduce.runs[0]? = some oneR ∧ oneR.lastSent = false ∧ oneR.ins.all (fun x => !x.frames.isEmpty) = true ∧
    frameLen oneR.entry.nelem oneR.next ≤ oneR.ahead.length ∧ (chainW [oneR]).chainQueued 174 = false ∧
    (chainW [oneR]).fenced (fJunction 174 (junctionLane 174 oneR.next)) = false ∧ oneR.ahead.all (fun x => !x.2) = true ∧ oneR.entry.isShadow = false := by decide +kernel
/-- R262: 2^24 + 1 + 1, rounded once, is 2^24 + 2. -/
theorem test_sum_once : sum32 [0x4B800000, 0x3F800000, 0x3F800000] = 0x4B800001 := by decide +kernel
/-- The block with this many counts passed. -/
def timedW (n : Nat) : Wafer := { chainW [] with time := { passed := n } }
theorem witness_ChainsEnd : (chainW [chainR 60 [] true]).reduce.runs.find? (fun r => r.entry.chain == 5 && r.entry.out == 174) = some (chainR 60 [] true) ∧
    (chainW [chainR 60 [] true]).runLeft (chainR 60 [] true) = true ∧ (chainW [chainR 60 [] false]).runLeft (chainR 60 [] false) = false ∧
    (let w := timedW (1250 * 2 + 2 * 125000); w.period = 125000 ∧
      ((chainR 56 [] false).ins.find? fun x => decide (x.next < 60 ∧ x.lastAt + 1250 * chainE.delay + 2 * w.period ≤ w.time.passed)) = some ⟨175, 56, [], 0⟩) ∧
    (let w := timedW (1250 * 2 + 2 * 125000 - 1);
      ((chainR 56 [] false).ins.find? fun x => decide (x.next < 60 ∧ x.lastAt + 1250 * chainE.delay + 2 * w.period ≤ w.time.passed)) = none) ∧
    linkState (chainW []) 174 = 6 ∧ (chainW []).portFenced 174 = false ∧ (chainW []).running = true ∧
    (chainW []).reduce.chains.find? (fun e => e.chain == fieldAt (natLE 16 5) 0 2 && e.out == 174 && e.tail && !e.isShadow) = some chainE ∧
    fieldAt (natLE 16 5) 12 1 = 0 ∧ fieldAt (natLE 16 (5 + 2 ^ 96)) 12 1 ≠ 0 := by decide +kernel
/-- R268: one SIGNAL to semaphore 6 of core (20, 0). -/
theorem test_chain_complete : ((after (exec (.chainComplete 174 5) (atW (chainW [chainR 60 [] true])))).canal.flits.map fun f => (f.kind, f.dx, f.dy, f.sem, f.daddr)) =
    [(3, 20, 0, some 6, 1)] := by decide +kernel

/-- Two members, this one rank 0, in the counting phase, and doubling over two elements. -/
def collE : CollEntry := ⟨7, 1, 0, 1, 0, 0, 8, 8, 0, 0, 2, 1, 0, 20, 0, 6, 2⟩
def collR (p : CollPhase) : CollRun := ⟨collE, 0, p, 0, 1, 1, 2, 0, [(0x3F800000, false), (0x40000000, false)], 0, [], 0⟩
def collW (r : CollRun) : Wafer := { outW st1 {} with reduce := { colls := [collE], run := some r, queue := [8] } }
def collB (id step rank frag : Nat) (body : List Byte) : List Byte := natLE 1 id ++ natLE 1 step ++ [2#8, 2#8] ++ natLE 2 rank ++ natLE 2 frag ++ body
def takes : CollCase → Bool
  | .take _ => true
  | _ => false
theorem witness_Collectives : (collW (collR .count)).reduce.run = some (collR .count) ∧ laneOpen (collW (collR .count)) 175 1 = true ∧
    takes ((collW (collR .count)).collCase (collR .count) true (collB 7 1 1 0 (natLE 4 2))) = true ∧
    takes ((collW (collR .doubling)).collCase (collR .doubling) false (collB 7 1 1 0 (natLE 4 0 ++ natLE 4 0))) = true ∧
    (collW (collR .count)).collCase (collR .count) false (collB 7 1 1 0 []) = .wait ∧ (collW (collR .count)).collCase (collR .count) true (collB 8 1 1 0 []) = .wait ∧
    (collW (collR .count)).collCase (collR .count) true (collB 7 1 2 0 []) = .fault 1 ∧
    (collR .doubling).current = some ⟨1, some 1, 0, 2, some 1, 0, 2, true⟩ ∧ msgFrameCount 2 ≤ 0 + 1 ∧ ¬ msgFrameCount 57 ≤ 0 + 1 ∧ 0 + 2 ≤ (collR .doubling).vec.length ∧
    0 + 1250 * collE.delay + 2 * (timedW (1250 * 2 + 250000)).period ≤ (timedW (1250 * 2 + 250000)).time.passed ∧
    (timedW (1250 * 2 + 249999)).time.passed < 0 + 1250 * collE.delay + 2 * (timedW 0).period := by decide +kernel

/-! ## Command packets -/

/-- A packet on CXL port A with sequence number 0, TARGET 0 and no response data but 64 bytes. -/
def pk (tag : Nat) (params : List Byte) : Packet := ⟨0, 0, 0, 0, 0, tag, 0, 64, 9, none, params⟩
/-- The module powered, with Shepherd's firmware running. -/
def baseW : Wafer := (Wafer.reset.wr 0 Reg.shpStatRecovery 0).wr pwrBase Reg.pwrStatState 2
def jobW (p : JobPhase) : Wafer := { baseW with job := { phase := p, tag := 0x10007 } }
def img1 : Image := ⟨0, 1, 5, [5], 0, 1, [], 0⟩
def armedW : Wafer := { baseW with job := { phase := .placed, image := some img1, tag := 3 } }
/-- Bytes at QA 0. -/
def inQuay0 (l : List Byte) : Wafer :=
  { baseW with stkMem := { bytes := ((List.range l.length).filter fun i => l.getD i 0#8 != 0#8).map fun i => (47104 * 2 ^ 21 + i, l.getD i 0#8) } }
/-- SHA3-256 of nothing (FIPS 202), and of the body of the image below. -/
def emptySha : Nat := 33591244640371925502122120465629805428922884526608935689726864827131003076519
def imgSha : Nat := 107636410334727820340759745091950231168384757623125302353230388595314442664315
/-- An authorisation at QA 0 with no new roots, and one partner root pair, empty. -/
def authW : Wafer :=
  { inQuay0 (natLE 4 0x54524F52 ++ natLE 60 0) with shp := { baseW.shp with nonceAt := some 0, roots := baseW.shp.roots.commit [⟨[], [], true, true⟩] } }
/-- An image of one core (Table 5-11): a budget of 5, 8 bytes of code at 4,096, entry 0. -/
def imgBody : List Byte := natLE 4 5 ++ (natLE 4 0 ++ natLE 4 164 ++ natLE 4 8 ++ natLE 4 4096 ++ natLE 12 0 ++ natLE 4 172) ++ natLE 8 0x1122334455667788 ++ natLE 4 0
def imgHead : List Byte := natLE 4 0x4B434F4C ++ natLE 2 1 ++ natLE 2 128 ++ natLE 4 0 ++ natLE 4 1 ++ natLE 8 5 ++ natLE 8 0x55 ++ natLE 2 1 ++ natLE 6 1 ++
  natLE 8 128 ++ natLE 8 132 ++ natLE 8 176 ++ natLE 32 imgSha ++ natLE 32 0
def loadW1 : Wafer := inQuay0 (imgHead ++ imgBody)
/-- A source entry of one page, pen 0, KEYPORT 5. -/
def src8 : List Byte := [0#8, 0#8, 5#8, 0#8] ++ natLE 4 0 ++ natLE 4 1 ++ natLE 4 0 ++ natLE 4 1 ++ natLE 32 7 ++ natLE 12 0
def admitW : Wafer := baseW.wrs (penBase 0) [(Reg.tirPenqT2, 32), (Reg.tirPenqBasin, 32)]
/-- Every field in RUN and usable, an image of one field loaded. -/
def allRun : Wafer :=
  { baseW with
    regs := baseW.regs ++ (List.range 112).map fun f => ((Reg.fpwStateState.at (fieldBase f)).key, 0)
    health := { map := { a := some (0, { fields := (List.range 112).map fun f => (f, { status := 0 }) }) } }
    job := { phase := .loaded, image := some img1 } }
def placeP : Packet := pk 0 (natLE 8 0 ++ [14#8])
/-- The packet in flight, accepted in tick 0 for the boundary of tick 1. -/
def flying (sp : CmdSpec) (p : Packet) : InFlight := ⟨sp.opcode, p, 0, 1, false, 0⟩
/-- For every command an accepted packet, most with a parameter at the end of its range. -/
def accepted : List (CmdSpec × Wafer × Packet) :=
  [(nopSpec, baseW, pk 0 []),
   (identifySpec, baseW, pk 0 []),
   (seqResetSpec, baseW, pk 0 []),
   (placeSetSpec, baseW, pk 0 (natLE 4 33554431)),
   (quayWriteSpec, baseW, pk 0 (natLE 8 (2 ^ 37 - 1) ++ [0x5A#8])),
   (quayReadSpec, baseW, pk 0 (natLE 8 (2 ^ 37 - 4032) ++ natLE 4 4032)),
   (armSpec, armedW, pk 0x10007 (natLE 4 1 ++ natLE 4 0 ++ natLE 8 0 ++ natLE 6 0 ++ natLE 2 0 ++ natLE 4 (baseW.period) ++ natLE 84 0)),
   (startSpec, (jobW .armed).wr cmdmBase Reg.cmdArmArmid 1, pk 0x10007 (natLE 4 1 ++ natLE 6 3)),
   (quiesceSpec, jobW .running, pk 0x10007 []),
   (abortSpec, jobW .placed, pk 0x10007 []),
   (statusSpec, baseW, pk 0 []),
   (penQuotaSpec, baseW, pk 0 (natLE 1 63 ++ natLE 8 16)),
   (admissionSpec, admitW, pk 0 (natLE 4 32 ++ natLE 4 1 ++ src8)),
   (trainSetSpec, baseW, pk 0 (natLE 4 0)),
   (flipPlanSpec, baseW, pk 0 (natLE 3 7)),
   (portPlanSpec, baseW, pk 0 [2#8]),
   (fenceSpec, baseW, pk 0 [0#8, 111#8, 19#8, 0#8]),
   (unfenceSpec, baseW, pk 0 [2#8, 0#8, 0#8, 0#8]),
   (peerExpectSpec, baseW, pk 0 (natLE 41 175)),
   (routeLoadSpec, baseW, pk 0 (natLE 20 0)),
   (chainLoadSpec, baseW, pk 0 (natLE 12 0)),
   (memberLoadSpec, baseW, pk 0 (natLE 8 0 ++ natLE 4 1)),
   (collLoadSpec, baseW, pk 0 (natLE 4 0)),
   (tickScheduleSpec, baseW, pk 0 (natLE 8 0 ++ natLE 6 0 ++ natLE 4 31250)),
   (tickRateChangeSpec, baseW, pk 0 (natLE 4 500000 ++ natLE 6 8)),
   (timeSourceSpec, baseW, pk 0 (natLE 8 0xFFFFFF00)),
   (timeServersSpec, baseW, pk 0 (natLE 5 7)),
   (timeReadSpec, baseW, pk 0 []),
   (capSetSpec, baseW, pk 0 (natLE 4 12000)),
   (brakeSpec, baseW, pk 0 [1#8, 100#8]),
   (gearSetSpec, baseW, pk 0 (natLE 2 300)),
   (fieldStateSpec, baseW, pk 0 [111#8, 0#8]),
   (powerReadSpec, baseW, pk 0 []),
   (snapReadSpec, { baseW with time := { snaps := [(1, [])] } }, pk 0 (natLE 4 0 ++ natLE 4 (matBase 2239 1 + Reg.matPasses.off) ++ natLE 4 8)),
   (mapReadSpec, baseW, pk 0 (natLE 4 0 ++ natLE 4 16)),
   (mapReadSpec, baseW, pk 0 (natLE 4 0x10000 ++ natLE 4 4)),
   (floodTestSpec, baseW, pk 0 [1#8]),
   (marginSurveySpec, baseW, pk 0 []),
   (marginReadSpec, baseW, pk 0 []),
   (tallyReadSpec, baseW, pk 0 (natLE 8 0 ++ natLE 4 65536)),
   (fwWriteSpec, baseW, pk 0 (natLE 1 1 ++ natLE 4 (2^28-1) ++ natLE 8 0 ++ natLE 4 1)),
   (fwCommitSpec, baseW, pk 0 [1#8]),
   (fwActivateSpec, { baseW with shp := { baseW.shp with slotB := baseW.shp.slotB.commit ⟨.committed, 0, 0⟩ } }, pk 0 [1#8]),
   (rootAddSpec, authW, pk 0 (natLE 8 0)),
   (rootRemoveSpec, authW, pk 0 (natLE 32 emptySha ++ natLE 8 0)),
   (loadSpec, loadW1, pk 0 (natLE 8 0 ++ natLE 8 176)),
   (resetSpec, baseW, pk 0 [1#8, 111#8, 0#8, 0#8, 0#8, 0#8, 0#8, 0#8]),
   (placeSpec, allRun, placeP)]
/-- Every row is accepted. -/
theorem witness_PacketsPass : (accepted.all fun x => x.2.1.passes x.1 x.2.2) = true := by decide +kernel
/-- Every row that waits for a boundary is due there. -/
theorem witness_PacketsDue : ((accepted.filter fun x => !x.1.now).all fun x => x.2.1.due x.1 (flying x.1 x.2.2)) = true := by decide +kernel
/-- Held, duplicate and outside at the ends of R288's windows; a path not served; a full interpreter; a check that fails. -/
theorem witness_PacketsInOrder : (accepted.all fun x => x.2.1.reaches x.2.2 && x.2.1.interprets x.2.2.path && decide (x.2.2.path < 4)) = true ∧
    seqClass (baseW.nextSeq (pk 0 [])) 4095 = .hold ∧ seqClass (baseW.nextSeq (pk 0 [])) 4096 = .outside ∧
    seqClass (baseW.nextSeq (pk 0 [])) (2 ^ 32 - 4096) = .duplicate ∧ seqClass (baseW.nextSeq (pk 0 [])) (2 ^ 32 - 4097) = .outside ∧
    nopSpec.opcode ≠ 2 ∧ (baseW.wr 0 Reg.shpStatPairup 14).interprets 0 = baseW.interprets 0 ∧
    ({ baseW with shp := { baseW.shp with pair0 := { up := false } } } : Wafer).interprets 0 = false ∧
    4096 ≤ ({ baseW with cmd := { inflight := List.replicate 4096 ⟨0, pk 0 [], 0, 0, false, 0⟩ } } : Wafer).inflightTotal ∧
    ((baseW.taken (pk 0 [1#8])).headerStatus nopSpec (pk 0 [1#8])).1 ≠ 0 ∧ gearSetSpec.step ≠ 7 ∧ gearSetSpec.now = false ∧ (capSetSpec.step = 7 ∧ capSetSpec.now = false) := by decide +kernel
/-- Table 12-5: opcode in the recovery service, length, reserved, flags, RDADDR, TARGET past, on a command that acts now, too far, tag. -/
theorem witness_Checks : (baseW.wr 0 Reg.shpStatRecovery 1).inRecovery = true ∧ recoveryTakes capSetSpec.opcode = false ∧ recoveryTakes nopSpec.opcode = true ∧
    baseW.inRecovery = false ∧ nopSpec.len 1 = false ∧ capSetSpec.len 4 = true ∧ ({ pk 0 [] with reserved := some 20 } : Packet).reserved = some 20 ∧ 2 ≤ ({ pk 0 [] with flags := 2 } : Packet).flags ∧
    ({ pk 0 [] with flags := 1, rdaddr := 63 } : Packet).rdaddr % 64 ≠ 0 ∧ reservedParam capSetSpec (pk 0 (natLE 4 12000)) = none ∧
    reservedParam resetSpec (pk 0 (natLE 8 0x10000)) = some 66 ∧ tickFuture (2 ^ 48 - 1) baseW.tick = false ∧ tickFuture 1 baseW.tick = true ∧ nopSpec.now = true ∧
    2 ^ 24 < tickDiff (2 ^ 24 + 1) baseW.tick ∧ tickDiff (2 ^ 24) baseW.tick ≤ 2 ^ 24 ∧ capSetSpec.opcode ≠ 0x0103 ∧ (pk 1 []).jobTag ≠ (if capSetSpec.job then baseW.job.tag else 0) ∧
    (capSetSpec.now = false ∧ (baseW.inTurn capSetSpec (pk 1 [])) = true) := by decide +kernel
/-- Table 12-6: a NOP is answered 0 with kind 0 once the ring is on. -/
theorem test_nop_reply : (((after (exec (.nop (pk 0 [])) (atW (baseW.wr (cmdBase 0) Reg.cmdRingcfgEn 1)))).cmdPort 0).outgoing.map fun x => (x.entry.opcode, x.entry.status, x.entry.kind, x.entry.cookie)) =
    [(0, 0, 0, 9)] := by decide +kernel

/-! ## Jobs and configuration -/

/-- Field 0 in RUN and usable: its 16 cores reach each other (R170); with the array dark they do not. -/
theorem witness_Place : allRun.routesOk [0] = true ∧ allRun.placeTable placeP = [0] := by decide +kernel
/-- A router of field 0's first cluster has failed. -/
def noRouteW : Wafer := { allRun with health := { allRun.health with map := { allRun.health.map with
    a := some (0, { fields := (List.range 112).map fun f => (f, { status := 0, rtrFail := if f = 0 then 1 else 0 }) }) } } }
theorem witness_NoRoute : noRouteW.health.clustersDue = [] ∧ noRouteW.placeTable placeP = [0] ∧ noRouteW.routesOk [0] = false ∧
    noRouteW.due placeSpec (flying placeSpec placeP) = true := by decide +kernel
theorem witness_Jobs : allRun.health.clustersDue = [] ∧ allRun.fieldState 0 = 0 ∧ allRun.fieldMoving 0 = false ∧ 0 ∉ allRun.health.surveying ∧ allRun.canWake 0 = true ∧
    allRun.fieldUsable 0 = true ∧ allRun.cmd.inflight = [] := by decide +kernel
def coreI : ImageCore := ⟨0, 3, 3, 4096, List.replicate 8 0x11#8, 0, [0x22#8], [0]⟩
def imgC : Image := { img1 with cores := [coreI] }
def armW (phase : JobPhase) (zeroed : Bool) : Wafer :=
  { baseW with job := { phase := phase, basinZeroed := zeroed, children := [(7, none), (8, some 0)], draining := phase == .stopped } }
theorem witness_PlacedCores : imgC.cores.find? (fun x => x.logical == 0 * 16 + 15) = some coreI ∧ coreI.codeBase + coreI.code.length ≤ 2 ^ 24 ∧
    coreI.dataBase + coreI.data.length ≤ 2 ^ 24 ∧ (armW .armed false).job.phase = .armed ∧ (armW .armed false).job.basinZeroed = false ∧
    (∀ c ∈ ({ armW .armed false with job := { (armW .armed false).job with children := [(8, some 0)] } } : Wafer).job.children, c.2 = some 0) ∧
    (∃ c ∈ (armW .armed false).job.children, c.2 ≠ some 0) ∧ (armW .placed false).job.phase ≠ .armed ∧ (armW .armed true).job.basinZeroed = true := by decide +kernel
/-- R128: code at 4,096 and data at 0 of the site that holds logical core 15; zero after the data. -/
theorem test_place_core : let t := allRun.placeCore imgC 0 0 15
    let s := allRun.siteOf 0 3 3
    t.coreMem.get (coreAddr s 4103) = 0x11#8 ∧ t.coreMem.get (coreAddr s 0) = 0x22#8 ∧ t.coreMem.get (coreAddr s 1) = 0#8 ∧ (t.core s).logical = some 15 := by decide +kernel
def lateW (n : Nat) : Wafer := (armW .armed false).wr lckBase Reg.lckCountCount n
theorem witness_Arms : (armW .armed false).job.children[0]? = some (7, none) ∧ (∀ c, (armW .armed false).job.children[1]? ≠ some (c, none)) ∧
    64 * (lateW (64 * baseW.period + 40000000)).period + 40000000 ≤ (lateW (64 * baseW.period + 40000000)).armAge ∧
    (lateW (64 * baseW.period + 39999999)).armAge < 64 * (lateW 0).period + 40000000 ∧ (lateW 12500000000).startSet = false ∧ 12500000000 ≤ (lateW 12500000000).armAge ∧
    (lateW 12499999999).armAge < 12500000000 ∧ tickFuture 3 baseW.tick = true ∧ tickFuture 0 baseW.tick = false ∧
    startSpec.opcode = 0x0104 ∧ ((jobW .armed).wr cmdmBase Reg.cmdArmArmid 1).passes startSpec (pk 0x10007 (natLE 4 1 ++ natLE 6 0)) = true := by
  refine ⟨by decide, by simp [armW], by decide +kernel, by decide +kernel, by decide, by decide +kernel, by decide +kernel, by decide, by decide, by decide, by decide +kernel⟩
theorem witness_Quiesce : (armW .stopped false).job.draining = true ∧ (armW .stopped false).queuesEmpty = true ∧ (armW .armed false).job.draining = false ∧
    ({ armW .stopped false with ports := [(0, { egress := [{ (default : TxFrame) with vl := 1 }] })] } : Wafer).queuesEmpty = false ∧
    (jobW .running).due abortSpec (flying abortSpec (pk 0x10007 [])) = true ∧ (jobW .running).due quiesceSpec (flying quiesceSpec (pk 0x10007 [])) = true ∧
    (jobW .placed).due abortSpec (flying abortSpec (pk 0x10007 [])) = true ∧ (jobW .running).armedOrRunning = true ∧ (jobW .placed).armedOrRunning = false := by decide +kernel
/-- R24: an UNFENCE takes away the fence of field 0, raised before, and not one raised after its acceptance; a working ADMIT. -/
def fencedW (tick : Option Nat) : Wafer := { baseW with fences := [⟨fField 0, 1, tick⟩], fenceSerial := 2 }
def unfP : Packet := pk 0 [2#8, 0#8, 0#8, 0#8]
/-- A FENCE of a fenced unit. -/
theorem witness_FenceAgain : (fencedW none).fenced (fenceUnitOf unfP.params) = true ∧ ((fencedW none).stateStatus fenceSpec unfP).1 = 0 ∧
    (flying fenceSpec unfP).opcode = 0x0302 ∧ fenceSpec.idle (fencedW none) unfP = true := by decide +kernel
def runW : Wafer := { jobW .running with job := { (jobW .running).job with placement := [111] } }
theorem witness_Admissions : (fencedW none).due unfenceSpec (flying unfenceSpec unfP) = true ∧ (fencedW none).fenceAnew (fField 0) 2 = false ∧
    (fencedW none).fenceAnew (fField 0) 1 = true ∧ (fencedW none).fenceAnew (fField 0) (flying unfenceSpec unfP).mark = true ∧
    ((fencedW (some 5)).wr lckBase Reg.lckTickTick 5).fenceAnew (fField 0) 1 = false ∧
    ({ baseW with cmd := { inflight := [⟨0x0202, pk 0 [], 0, 0, true, 0⟩] } } : Wafer).cmd.inflight.any (fun x => x.opcode == 0x0202 && x.working) = true ∧
    baseW.cmd.inflight.any (fun x => x.opcode == 0x0202 && x.working) = false ∧ baseW.unitInRun ⟨.site, 111, 19⟩ = false ∧
    runW.unitInRun (fField 111) = true ∧ runW.due fenceSpec (flying fenceSpec (pk 0 [2#8, 111#8, 0#8, 0#8])) = true ∧
    linkState baseW 175 ∉ [3, 5, 6] ∧ (natLE 41 175).length = 41 := by decide +kernel

/-! ## Boundaries, power, firmware, roots and resets -/

/-- Due at the boundary of tick 1. -/
def dueAt (sp : CmdSpec) (v : Wafer) (p : Packet) : Bool := v.due sp (flying sp p)
def flX (op : Nat) (p : Packet) : InFlight := ⟨op, p, 0, 0, false, 0⟩
/-- One route entry for place 7: valid, through port 0 with no alternate, or through port 175, which an area plan of 0 leaves dark. -/
def routeB (port : Nat) : List Byte := natLE 8 (7 + port * 2 ^ 32 + 255 * 2 ^ 40 + 2 ^ 63)
def routeP : Packet := pk 0 (natLE 8 0 ++ natLE 4 1 ++ natLE 8 0)
/-- A chain of one element that goes out by a port. -/
def chainB (out : Nat) : List Byte :=
  natLE 2 1 ++ natLE 2 0 ++ natLE 2 0xFFFF ++ natLE 1 out ++ natLE 1 0 ++ natLE 4 1 ++ natLE 4 0 ++ natLE 1 0 ++ natLE 1 1 ++ natLE 10 0 ++ natLE 2 0xFF ++ natLE 2 1
def chainP : Packet := pk 0 (natLE 8 0 ++ natLE 4 1)
theorem witness_Chains : dueAt chainLoadSpec (inQuay0 (chainB 0)) chainP = true ∧ dueAt chainLoadSpec (inQuay0 (chainB 175)) chainP = true ∧
    (chainList (chainB 0) 1).map ChainEntry.ports = [[0]] ∧ (inQuay0 (chainB 0)).portDark 0 = false ∧ (inQuay0 (chainB 175)).portDark 175 = true ∧
    (inQuay0 (chainB 175)).quayRead 0 32 = chainB 175 := by decide +kernel
/-- Fenced, the tag of another job, and both right; the rows that change at steps 4 to 6, each accepted; routes through a port that is up and one that is dark. -/
theorem witness_Boundary : fieldStateSpec.fenced (fencedW none) (pk 0 [0#8, 1#8]) = true ∧ fieldStateSpec.fenced baseW (pk 0 [0#8, 1#8]) = false ∧
    abortSpec.fenced (jobW .placed) (pk 0x10008 []) = false ∧ ((jobW .placed).stateStatus abortSpec (pk 0x10008 [])).1 ≠ 0 ∧
    (flX 0x0503 (pk 0 (natLE 2 300))).opcode = gearSetSpec.opcode ∧ (baseW.stateStatus gearSetSpec (pk 0 (natLE 2 300))).1 = 0 ∧
    (baseW.stateStatus portPlanSpec (pk 0 [2#8])).1 = 0 ∧ (baseW.stateStatus memberLoadSpec (pk 0 (natLE 8 0 ++ natLE 4 1))).1 = 0 ∧
    (baseW.stateStatus collLoadSpec (pk 0 (natLE 4 0))).1 = 0 ∧ (baseW.stateStatus chainLoadSpec (pk 0 (natLE 12 0))).1 = 0 ∧
    ((inQuay0 (routeB 0)).stateStatus routeLoadSpec routeP).1 = 0 ∧ (∀ e ∈ routePorts (routeB 0) (1, 0, 0), (inQuay0 (routeB 0)).portDark e.2 = false) ∧
    ((inQuay0 (routeB 175)).stateStatus routeLoadSpec routeP).1 = 0 ∧ (∃ e ∈ routePorts (routeB 175) (1, 0, 0), (inQuay0 (routeB 175)).portDark e.2 = true) ∧
    routePorts (routeB 0) (1, 0, 0) = [(0, 0)] ∧ dueAt routeLoadSpec (inQuay0 (routeB 0)) routeP = true ∧ dueAt routeLoadSpec (inQuay0 (routeB 175)) routeP = true := by decide +kernel
/-- R323: a load through a dark port is refused whole with 0x0105. -/
theorem test_dark_route : (routeLoadSpec.act (inQuay0 (routeB 175)) (flX 0x0305 routeP)).status = 0x0105 := by decide +kernel

/-- Field 111 rests in FALLOW and may wake; field 0 runs. -/
theorem witness_PowerCommands : dueAt capSetSpec baseW (pk 0 (natLE 4 12000)) = true ∧ baseW.power.levels.getD 3 none = none ∧
    baseW.passes brakeSpec (pk 0 [1#8, 0#8]) = true ∧ allRun.passes brakeSpec (pk 0 [1#8, 0#8]) = true ∧ allRun.braking = false ∧ allRun.fieldState 111 = 0 ∧
    dueAt fieldStateSpec baseW (pk 0 [111#8, 3#8]) = true ∧ baseW.fieldMoving 111 = false ∧ baseW.cmd.inflight = [] ∧ baseW.fieldState 111 = 3 ∧
    dueAt fieldStateSpec allRun (pk 0 [0#8, 1#8]) = true ∧ allRun.fieldState 0 = 0 ∧ allRun.fieldMoving 0 = false ∧
    dueAt fieldStateSpec baseW (pk 0 [111#8, 0#8]) = true ∧ baseW.canWake 111 = true ∧
    dueAt floodTestSpec baseW (pk 0 [1#8]) = true ∧ dueAt marginSurveySpec baseW (pk 0 []) = true ∧
    (allRun.fieldRec 0).status % 8 = 0 ∧ allRun.health.map.current.isSome = true ∧ allRun.fieldHeld 0 = false := by decide +kernel
/-- R333: FIELD_STATE 1 of a RUN field begins its entry. -/
theorem test_field_state : let t := (fieldStateSpec.act allRun (flX 0x0504 (pk 0 [0#8, 1#8]))).w
    t.fieldTarget 0 = 1 ∧ t.fieldMoving 0 = true ∧ t.fieldState 0 = 0 := by decide +kernel

/-- A firmware header of an empty body in slot 1. -/
def fwB : List Byte := natLE 4 0x57464D55 ++ natLE 4 3 ++ natLE 8 1 ++ natLE 8 0 ++ natLE 32 emptySha ++ natLE 4 512
def fwW : Wafer :=
  { baseW with
    fwMem := { bytes := ((List.range fwB.length).filter fun i => fwB.getD i 0#8 != 0#8).map fun i => (2 ^ 28 + i, fwB.getD i 0#8) }
    shp := { baseW.shp with boot := baseW.shp.boot.commit 1 } }
theorem witness_Firmware : baseW.passes fwWriteSpec (pk 0 (natLE 1 1 ++ natLE 4 (2 ^ 28 - 1) ++ natLE 8 0 ++ natLE 4 1)) = true ∧
    dueAt fwCommitSpec baseW (pk 0 [1#8]) = true ∧ baseW.fwCheck 1 = 0x0105 ∧ dueAt fwCommitSpec fwW (pk 0 [1#8]) = true ∧ fwW.bootSlot = 1 ∧
    fieldAt (fwW.fwHeader 1) 0 4 = 0x57464D55 ∧ fieldAt (fwW.fwHeader 1) 8 1 = 1 ∧ fieldAt (fwW.fwHeader 1) 16 8 = 0 ∧
    fieldAt (fwW.fwHeader 1) 24 32 = emptySha ∧ fwW.shp.otp = 0 ∧ baseW.runnable = none := by decide +kernel
/-- The checks of R310 before the chains pass; the outcomes of chains and signatures are free values (log entry 3): when they hold, so does the check. -/
theorem firmware_passes (hc : fwW.fwChains 1 = true)
    (he : Config.ed25519Ok (Config.chainLeaf (fwW.fwTrailer 1) Config.edRootHash) (fwW.fwHeader 1) (fwW.fwTrailer 1) = true)
    (hm : Config.mlDsaOk (Config.chainLeaf (fwW.fwTrailer 1) Config.mlRootHash) (fwW.fwHeader 1) (fwW.fwTrailer 1) = true) : fwW.fwCheck 1 = 0 ∧ fwW.runnable = some 1 := by
  have h0 : fieldAt (fwW.fwHeader 1) 0 4 = 0x57464D55 := by decide +kernel
  have h1 : fieldAt (fwW.fwHeader 1) 8 1 = 1 := by decide +kernel
  have h2 : fieldAt (fwW.fwHeader 1) 16 8 = 0 := by decide +kernel
  have h3 : sha3 (fwW.fwBody 1) = fieldAt (fwW.fwHeader 1) 24 32 := by decide +kernel
  have h4 : fwW.shp.otp = 0 := by decide +kernel
  have h5 : fwW.bootSlot = 1 := by decide +kernel
  have h : fwW.fwCheck 1 = 0 := by simp [Wafer.fwCheck, h0, h1, h2, h3, h4, hc, he, hm, sigStatus]
  exact ⟨h, by simp [Wafer.runnable, h5, h]⟩
theorem witness_Roots : dueAt rootAddSpec authW (pk 0 (natLE 8 0)) = true ∧ dueAt rootRemoveSpec authW (pk 0 (natLE 32 emptySha ++ natLE 8 0)) = true := by decide +kernel
/-- The outcomes of an authorisation's chains and signatures are free values (log entry 3): 0 when they hold, 0x0304 when no chain does. -/
theorem authorisation_passes (w : Wafer) (r : RootAuth) (h1 : chainsOk r.chain1 r.chain2 Config.edRootHash Config.mlRootHash 2 w.chainTime = true)
    (he : Config.ed25519Ok (Config.chainLeaf r.chain1 Config.edRootHash) r.signed r.sigEd = true)
    (hm : Config.mlDsaOk (Config.chainLeaf r.chain2 Config.mlRootHash) r.signed r.sigMl = true) : w.authSigned r = 0 := by
  simp [Wafer.authSigned, Wafer.authRoots, h1, he, hm, sigStatus]
theorem authorisation_fails (r : RootAuth) (h1 : Config.chainOk r.chain1 Config.edRootHash 2 baseW.chainTime = false) : baseW.authSigned r = 0x0304 := by
  have h : baseW.roots = [] := by decide +kernel
  simp [Wafer.authSigned, Wafer.authRoots, chainsOk, h1, h]
theorem witness_ResetCommand : ([(0#8, 1#8), (1#8, 111#8), (2#8, 0#8), (3#8, 0#8), (4#8, 0#8), (5#8, 0#8)].all fun c => baseW.passes resetSpec (pk 0 [c.1, c.2, 0#8, 0#8, 0#8, 0#8, 0#8, 0#8])) = true := by decide +kernel

/-! ## Rings, registers and the management plane -/

/-- CXL port 1 with a ring of 64 entries whose head and tail stand here, with replies held and produced, and an event that waits. -/
def itemX (c : Nat) : RingItem := ⟨⟨0, 0, 0, 0, 0, false, 0, c, 0⟩, 64, [1#8], true⟩
def ringW (head tail : Nat) (p : CmdPort) : Wafer :=
  ((baseW.wrs (cmdBase 1) [(Reg.cmdRingcfgEn, 1), (Reg.cmdRingcfgRsize, 6), (Reg.cmdRingheadHead, head), (Reg.cmdRingtailTail, tail)])).setCmdPort 1 p
theorem witness_Rings : (ringW 64 0 {}).dutyUp 0 = true ∧ (ringW 64 0 {}).rd (cmdBase 1) Reg.cmdRingcfgEn = 1 ∧ (ringW 64 0 {}).rd (cmdBase 1) Reg.cmdRingcfgRsize ≤ 16 ∧
    (ringW 64 0 {}).ringFull 1 = true ∧ (ringW 63 0 {}).ringFull 1 = false ∧ (ringW 127 127 {}).ringFull 1 = false ∧ baseW.rd (cmdBase 1) Reg.cmdRingcfgEn = 0 ∧
    ((ringW 63 0 { held := [itemX 1], outgoing := [itemX 2] }).cmdPort 1).held = itemX 1 :: [] ∧
    ((ringW 63 0 { outgoing := [itemX 2] }).cmdPort 1).outgoing = itemX 2 :: [] ∧ ((ringW 63 0 { outgoing := [itemX 2] }).cmdPort 1).held = [] ∧
    ((ringW 63 0 { events := [⟨0x0201, 0⟩] }).cmdPort 1).events = ⟨0x0201, 0⟩ :: [] ∧ baseW.tallyFull = false := by decide +kernel
/-- R292: entry 63 is written after its data, PHASE 1; the head goes on to 64, where PHASE is 0; from 127 it goes to 0. -/
theorem test_reply_write : let t := after (exec (.replyWrite 1) (atW (ringW 63 0 { held := [itemX 1], outgoing := [itemX 2] })))
    t.out = [.hostWrite 1 64 [1#8], .ringEntry 1 2016 (itemX 1).entry 1] ∧ t.rd (cmdBase 1) Reg.cmdRingheadHead = 64 ∧ (t.cmdPort 1).outgoing = [itemX 2] ∧
    (ringW 64 64 {}).ringPhase 1 = 0 ∧ (after (exec (.replyWrite 1) (atW (ringW 127 127 { outgoing := [itemX 2] })))).rd (cmdBase 1) Reg.cmdRingheadHead = 0 := by decide +kernel
/-- An unassigned offset; a late register; a RO, a RW and a W1C field with and without their lanes; a value its field refuses. -/
theorem witness_Registers : blockOf 0x600000 = none ∧ blockOf (stkBase 31 + Reg.stkScrubHours.off) = some (.stk, stkBase 31) ∧
    blockOf (hltBase + Reg.hltCtlService.off) = some (.hlt, hltBase) ∧ lateRegister .hlt Reg.hltCtlService.off = true ∧
    (regFields (hltBase + Reg.hltCtlService.off)).any (fun d => d.ty == .rw && touched 0xFF d.fld) = true ∧ lateRegister .stk Reg.stkScrubHours.off = false ∧
    (∃ d ∈ regFields (stkBase 31 + Reg.stkScrubHours.off), d.ty = .rw ∧ touched 0xFF d.fld = true ∧ touched 0 d.fld = false) ∧
    (∃ d ∈ regFields (stkBase 31 + Reg.stkCapCap.off), d.ty = .ro) ∧
    baseW.fieldRefuses .stk Reg.stkScrubHours.off 0 49 = false ∧
    (∃ d ∈ regFields (portBase 175 + Reg.tpDropvl.ovf.off), d.ty = .w1c ∧ touched 0xFF d.fld = true) ∧ lateRegister .tpx Reg.tpDropvl.ovf.off = false ∧
    (blockOf (portBase 175 + Reg.tpDropvl.ovf.off)).isSome = true ∧
    (jobW .armed).fieldRefuses .tirm 0 0 0 = true ∧ lateRegister .tirm 0 = false ∧ (∃ d ∈ regFields (tirmBase + Reg.tirPenqT1.off), d.ty = .rwl ∧ touched 0xFF d.fld = true) ∧ (blockOf (tirmBase + Reg.tirPenqT1.off)).map (·.1) = some .tirm := by decide +kernel
/-- R316: SCRUB.HOURS holds 1 to 48. -/
theorem test_scrub_hours : clampField .stk Reg.stkScrubHours.off 0 49 = 48 ∧ clampField .stk Reg.stkScrubHours.off 0 0 = 1 := by decide
theorem witness_Jtag : ({ jobW .armed with job := { (jobW .armed).job with placement := [111] } } : Wafer).fieldHeld 111 = true ∧ baseW.fieldHeld 111 = false ∧
    (jobW .armed).armedOrRunning = true ∧ baseW.armedOrRunning = false ∧ baseW.portInJob 175 = false ∧
    ({ linkW 6 upP with job := { phase := .armed } } : Wafer).portInJob 175 = true := by decide
/-- R392: built-in self-tests of units that no job holds are the one stop. -/
theorem test_jtag_stop : exec (.jtagInstruction (.bistField 111)) (atW baseW) = .refused .jtagUnspecified ∧
    exec (.jtagInstruction (.bistStack 31)) (atW baseW) = .refused .jtagUnspecified ∧ exec (.jtagInstruction (.bistPort 175)) (atW baseW) = .refused .jtagUnspecified := by
  refine ⟨rfl, rfl, rfl⟩

/-- A VL2 frame: DST, SRC, TTL, TYPE, MSGID, FRAG and body. -/
def mgB (place unit ttl kind : Nat) : List Byte := natLE 5 (place * 2 ^ 15 + unit) ++ natLE 5 5 ++ natLE 1 ttl ++ natLE 1 kind ++ natLE 4 0 ++ natLE 2 0
def mgF (l : List Byte) : Frame := ⟨2, 0, true, false, 0, l.length, 0, l⟩
def here : Nat := baseW.rd 0 Reg.shpPlacePlace
/-- Port 0, an edge port, MGMT_ONLY. -/
def mgW (routes : List (Nat × Nat × Nat)) : Wafer :=
  { ((Wafer.reset.wr (portBase 0) Reg.tpLinkstatState 5).setPort 0 upP) with shp := { upW.shp with routes := { exact := routes } } }
theorem witness_ManagementFrames : portCarries (mgW []) 0 2 = true ∧ linkState (mgW []) 0 = 5 ∧ linkState (linkW 3 upP) 175 = 3 ∧ portCarries (linkW 6 upP) 175 2 = false ∧ fieldAt (mgB 7 (125 * 2 ^ 8) 2 0x30) 0 5 / 2 ^ 8 % 2 ^ 7 = 125 ∧ (mgW []).shp.routes.mcast = [] ∧
    fieldAt (mgB 7 0 1 0x30) 10 1 < 2 ∧ 4 ≤ fieldAt (mgB 7 0 32 0x34) 11 1 % 16 ∧ fieldAt (mgB 7 0 2 0x33) 11 1 % 16 < 4 ∧
    fieldAt (mgB 7 0 2 0x33) 0 5 / 2 ^ 8 % 2 ^ 7 ≠ 125 ∧ fieldAt (mgB 7 0 2 0x30) 0 5 / 2 ^ 15 = 7 ∧ 7 ≠ here ∧ (mgW []).mlPort 7 = none ∧
    (mgW [(7, 0, 255)]).mlPort 7 = some 0 ∧ (mgW []).rd 0 Reg.shpPlacePlace = here ∧ fieldAt (mgB here (127 * 2 ^ 8) 2 0x30) 0 5 / 2 ^ 15 = here ∧
    fieldAt (mgB here (127 * 2 ^ 8) 2 0x30) 0 5 % 2 ^ 15 = 127 * 2 ^ 8 ∧ fieldAt (mgB here (127 * 2 ^ 8) 2 0x30) 11 1 = 0x30 ∧ fieldAt (mgB here 0 2 0x30) 14 2 = 0 ∧
    (mgB here 0 2 0x30).length ≤ 8208 ∧ (mgW []).dutyUp 1 = true ∧ (mgW []).cmd.inboxMl.length < 256 ∧
    unitTakes 0 9 = false ∧ fieldAt (mgB here (127 * 2 ^ 8 + 9) 2 0x30) 0 5 % 2 ^ 8 = 9 ∧
    fieldAt (mgB here (126 * 2 ^ 8) 2 0x30) 0 5 / 2 ^ 8 % 2 ^ 7 ≠ 127 := by decide +kernel
/-- R322: a frame for place 7 goes on with TTL 31. -/
theorem test_relay : after (exec (.mgmtFrame 0 (mgF (mgB 7 0 32 0x30))) (atW (mgW [(7, 0, 255)]))) = (mgW [(7, 0, 255)]).queueFrame 0 2 2 0 (mgB 7 0 31 0x30) := by
  decide +kernel
def eidW (n : Nat) : Wafer := { baseW with shp := { baseW.shp with eid := n } }
def noPair1 : Wafer := { baseW with shp := { baseW.shp with pair1 := { up := false } } }
theorem witness_Mctp : noPair1.dutyUp 1 = false ∧ (eidW 9).dutyUp 1 = true ∧ (eidW 9).shp.eid ≠ 0 ∧ baseW.shp.eid = 0 ∧
    (⟨0, 1, 0x7F, [0#8]⟩ : MctpMsg).via = 0 ∧ (⟨0, 1, 0x7F, [0#8]⟩ : MctpMsg).mtype ∉ [0, 1, 5] ∧ (⟨0, 1, 2, []⟩ : MctpMsg).mtype ∉ [0, 1, 5, 0x7F] ∧ pldmType [0#8, 0x42#8] ∈ [0, 2] ∧ pldmType [0#8, 1#8] ∉ [0, 2] ∧
    (eidW 9).cmd.inboxMctp.length < 256 ∧ 256 ≤ ({ eidW 9 with cmd := { inboxMctp := List.replicate 256 (0, pk 0 []) } } : Wafer).cmd.inboxMctp.length ∧
    (eidW 9).inRecovery = false ∧ (baseW.wr 0 Reg.shpStatRecovery 1).inRecovery = true ∧ (baseW.wr 0 Reg.shpStatRecovery 1).dutyUp 1 = true := by decide +kernel
/-- R324: an endpoint ID of 9. -/
theorem test_eid : (after (exec (.setEndpointId 9) (atW baseW))).shp.eid = 9 := by decide

/-! ## Security and Shepherd -/

/-- Connections as far as version, capabilities and algorithms, and after a signed response. -/
def spW (x : SpdmConn) : Wafer := { baseW with shp := { baseW.shp with spdm := [(1, x)] } }
theorem witness_Spdm : noPair1.dutyUp 1 = false ∧ (spW { version := true }).dutyUp 1 = true ∧ ((spW { version := true }).conn 1).version = true ∧ (baseW.conn 1).version = false ∧
    ((spW { caps := true }).conn 1).caps = true ∧ (baseW.conn 1).caps = false ∧ ((spW { algs := true }).conn 1).algs = true ∧ (baseW.conn 1).algs = false ∧
    fieldAt (natLE 4 0 ++ natLE 2 0 ++ natLE 2 16) 2 1 % 16 ≤ 1 ∧ fieldAt (natLE 4 0 ++ natLE 2 0 ++ natLE 2 16) 4 2 ≤ (certChain 0).length ∧
    1 < fieldAt (natLE 2 0 ++ natLE 2 2) 2 1 % 16 ∧ fieldAt (natLE 4 0) 2 1 = 0 ∧ fieldAt (natLE 2 0 ++ natLE 2 1) 2 1 ≠ 0 ∧
    measurementsAsked (spW { algs := true }) (fieldAt (natLE 4 0) 3 1) = some [8#8] ∧ bit (fieldAt (natLE 2 0 ++ [1#8]) 2 1) 0 = true ∧
    bit (fieldAt (natLE 4 0) 2 1) 0 = false ∧ measurementsAsked (spW { algs := true }) 9 = none ∧ ((spW { signed := some 5 }).conn 1).signed = some 5 ∧
    (baseW.conn 1).signed = none := by decide +kernel
/-- R313: capabilities before a version are ERROR 4; GET_VERSION makes 1.3 known. -/
theorem test_spdm_order : (after (exec (.getCapabilities 1 []) (atW baseW))).out = (baseW.spdmSend 1 (Config.spdmBody 0x7F [4#8])).out ∧
    ((after (exec (.getVersion 1 []) (atW baseW))).conn 1).version = true := by
  constructor <;> rfl

/-- Pair 0 with two restarts within the hour, and one of them more than an hour old. -/
def pairW (l : List Nat) (now : Nat) : Wafer := { baseW.wr lckBase Reg.lckCountCount now with shp := { baseW.shp with pair0 := { restarts := l } } }
def downW : Wafer := { baseW with shp := { baseW.shp with pair0 := { up := false }, evq := [⟨0x0201, 0⟩] } }
def tally1 : TallyEntry := ⟨1, 0, 0, 0, 0, 0, 0, 0, 0, 0, 0⟩
def tallyW : Wafer := { baseW with shp := { baseW.shp with tallyBuf := [tally1] } }
/-- Every pair down: nobody serves the duties of pair 3. -/
def noPair3 : Wafer := { baseW with shp := { baseW.shp with pair0 := { up := false }, pair1 := { up := false }, pair2 := { up := false }, pair3 := { up := false }, fusePending := true } }
theorem witness_Shepherd : ((pairW [9, 8] 10).pair 0).up = true ∧ ((pairW [9, 8] 10).pair 0).retired = false ∧ (downW.pair 0).up = false ∧ (downW.pair 0).retired = false ∧
    ({ baseW with shp := { baseW.shp with pair0 := { retired := true } } } : Wafer).pair 0 = { retired := true } ∧
    (after (exec (.pairRestartDone 0) (atW downW))).shpDown = false ∧
    (after (exec (.pairRestartDone 0) (atW { downW with shp := { downW.shp with pair1 := { up := false } } }))).shpDown = true ∧
    ({ baseW with shp := { baseW.shp with fusePending := true } } : Wafer).canCommit = true ∧ baseW.shp.fusePending = false ∧ baseW.dutyUp 3 = true ∧
    noPair3.dutyUp 3 = false ∧ noPair3.canCommit = false ∧ noPair3.shp.fusePending = true ∧ tallyW.dutyUp 3 = true ∧ downW.cmd.msgs = [] ∧ downW.power.capKept = none ∧
    downW.health.mapDue = none ∧ downW.health.planDue = none ∧ tallyW.shp.gapDue = false ∧ tallyW.health.mapDue = none ∧ tallyW.health.planDue = none ∧
    (tallyW.shp.tallyBuf.take 1).getLast? = some tally1 ∧ tallyW.shp.tallyLost = 0 ∧ tallyW.shp.tallyBuf.take 0 = [] := by decide +kernel
/-- R306: the third restart within an hour retires the pair; a restart an hour ago does not count. -/
theorem test_pair_retires : ((after (exec (.pairLockstepMismatch 0) (atW (pairW [9, 8] 10)))).pair 0).retired = true ∧
    ((after (exec (.pairLockstepMismatch 0) (atW (pairW [4500000000000, 0] 4500000000000)))).pair 0).retired = false ∧
    (after (exec (.pairRestartDone 0) (atW downW))).out = [.mgmtEvent ⟨0x0201, 0⟩] := by decide +kernel

/-! ## Power -/

/-- A tally buffer with no room (R317). -/
def tallyFullW : Wafer := { baseW with shp := { baseW.shp with tallyBuf := List.replicate 256 tally1 } }
theorem witness_TallyFull : tallyFullW.tallyFull = true ∧ tallyW.tallyFull = false ∧ State.reset.w.tallyFull = false := by decide +kernel

/-- Brake source `k` holds a level. -/
def brakeW (k l : Nat) : Wafer := { allRun with power := { allRun.power with levels := levelsWith allRun.power.levels k (some l) } }
/-- The field of a running job. -/
def jobAt (f : Nat) (w : Wafer) : Wafer := { w with job := { w.job with phase := .running, placement := [f] } }
def suppW (l : List (Fld × Nat)) : Wafer := baseW.wrs (fieldBase 111) l
def shutW : Wafer := { baseW with power := { baseW.power with shutdown := true } }
def stbyW : Wafer := { baseW.wr pwrBase Reg.pwrStatState 0 with power := { baseW.power with standby := true }, health := { baseW.health with floodDue := none } }
theorem witness_InputsAndSupplies : allRun.power.levels.getD 2 none = none ∧ ((brakeW 2 5).power.levels.getD 2 none).isSome = true ∧ allRun.braking = false ∧
    allRun.fieldState 111 = 0 ∧ Wafer.reset.powered = false ∧ baseW.powered = true ∧ shutW.power.shutdown = true ∧ baseW.power.shutdown = false ∧
    baseW.rd pwrBase Reg.pwrStatState ≠ 0 ∧ ({ baseW.power with standby := false } : PowerSt).standby = false ∧ stbyW.power.standby = true ∧ stbyW.power.shutdown = false ∧ stbyW.rd pwrBase Reg.pwrStatState = 0 ∧
    stbyW.health.floodDue = none ∧ ({ stbyW with health := { stbyW.health with floodDue := some (false, false, true) } } : Wafer).health.floodDue = some (false, false, true) ∧
    baseW.power.levels.getD 4 none = none ∧
    bit ((suppW [(Reg.fpwSupplyPhasefail, 2 ^ 23)]).rd (fieldBase 111) Reg.fpwSupplyPhasefail) 23 = true ∧
    bit ((suppW [(Reg.fpwSupplyPhasefail, 2 ^ 23)]).rd (fieldBase 111) Reg.fpwSupplyPhasefail) 22 = false ∧
    countIf (fun j => bit ((suppW [(Reg.fpwSupplyPhasefail, 2 ^ 23)]).rd (fieldBase 111) Reg.fpwSupplyPhasefail) j) (List.range 24) = 1 ∧
    1 < countIf (fun j => bit ((suppW [(Reg.fpwSupplyPhasefail, 2 ^ 23 + 1)]).rd (fieldBase 111) Reg.fpwSupplyPhasefail) j) (List.range 24) ∧
    bit ((suppW [(Reg.fpwSupplyPhasefail, 2 ^ 23 + 1)]).rd (fieldBase 111) Reg.fpwSupplyPhasefail) 22 = false ∧ baseW.rd (fieldBase 111) Reg.fpwSupplyPhasefail = 0 ∧
    bit ((baseW.wr pwrBase Reg.pwrStatRegionlost 0x8000).rd pwrBase Reg.pwrStatRegionlost) 15 = true ∧ bit (baseW.rd pwrBase Reg.pwrStatRegionlost) 15 = false ∧
    (jobAt 111 allRun).fieldInRun 111 = true := by decide +kernel
/-- Cluster 447 (the last of field 111): regulators 24 to 31 of its field, with none, two and three failed. -/
theorem witness_Regulators : let w := suppW [(Reg.fpwSupplyAssistfail, 3 * 2 ^ 24)]
    bit (w.rd (fieldBase (447 / 4)) Reg.fpwSupplyAssistfail) (8 * (447 % 4) + 0) = true ∧ bit (w.rd (fieldBase (447 / 4)) Reg.fpwSupplyAssistfail) (8 * (447 % 4) + 7) = false ∧
    countIf (fun j => bit (w.rd (fieldBase (447 / 4)) Reg.fpwSupplyAssistfail) (8 * (447 % 4) + j)) (List.range 8) = 2 ∧
    countIf (fun j => bit (baseW.rd (fieldBase (447 / 4)) Reg.fpwSupplyAssistfail) (8 * (447 % 4) + j)) (List.range 8) < 2 ∧
    (let m := (suppW [(Reg.fpwSupplyAssistfail, 7 * 2 ^ 24)]).rd (fieldBase (447 / 4)) Reg.fpwSupplyAssistfail;
      bit m (8 * (447 % 4) + 7) = false ∧ 2 < countIf (fun j => bit m (8 * (447 % 4) + j)) (List.range 8)) ∧
    baseW.fieldState 111 = 3 ∧ allRun.fieldState 111 ≠ 3 ∧ allRun.rd (fieldBase 111) Reg.fpwDroop + 10 < 2 ^ 48 - 1 := by decide +kernel
/-- R341: the last hundred samples, in units of 0.1 mW, average 44 kW or a little more; at 44 kW the overpower source is not set. -/
def sampW : Wafer := { baseW with power := { baseW.power with samples := List.replicate 100 440000000 } }
theorem test_overpower : (after (exec (.inputSample 20000 22000 0 0) (atW sampW))).power.levels.getD 4 none = none ∧
    44000000000 < ((20000 * 22001) :: sampW.power.samples.take 99).foldl (· + ·) 0 ∧ ((20000 * 22000) :: sampW.power.samples.take 99).foldl (· + ·) 0 ≤ 44000000000 := by decide +kernel
/-- R329: a second failed phase fences the field. -/
theorem test_phase_fail : (after (exec (.phaseFail 111 22) (atW (suppW [(Reg.fpwSupplyPhasefail, 2 ^ 23)])))).fieldFenced 111 = true ∧
    (after (exec (.phaseFail 111 22) (atW baseW))).fieldFenced 111 = false := by decide +kernel

/-- Field 111: its state, target and whether it moves, and the rest of its power state. -/
def fpW (st target trans : Nat) (p : FieldPower) : Wafer :=
  (baseW.wrs (fieldBase 111) [(Reg.fpwStateState, st), (Reg.fpwStateTarget, target), (Reg.fpwStateTrans, trans)]).setFieldPower 111 p
def crackW (x : List (Nat × Nat)) : Wafer :=
  { fpW 0 0 0 { suspects := x } with health := { baseW.health with plan := baseW.health.plan.commit { fields := [(111, { base := [(3, 100, 1000), (4, 100, 1000)] })] } } }
theorem witness_FieldStates : (fpW 0 1 1 {}).fieldMoving 111 = true ∧ (fpW 0 1 1 {}).fieldTarget 111 ≠ 0 ∧ ((fpW 0 1 1 {}).fieldPower 111).goal = none ∧
    (fpW 0 1 1 {}).rd pwrBase Reg.pwrStatState ≠ 3 ∧ (fpW 0 1 1 {}).canWake 111 = true ∧ (fpW 0 0 1 {}).fieldTarget 111 = 0 ∧ (fpW 1 1 0 {}).fieldMoving 111 = false ∧
    (fpW 3 3 0 { holds := [0x0C] }).canWake 111 = false ∧ (fpW 1 1 0 {}).fieldState 111 = 1 ∧ (fpW 2 2 0 {}).canWake 111 = true ∧
    ((fpW 3 0 1 { repeating := true }).fieldPower 111).repeating = true ∧ (fpW 3 0 1 { repeating := true }).fieldState 111 ≠ 0 ∧ (fpW 3 0 1 { repeating := true }).fieldMoving 111 = true ∧
    ((fpW 2 2 0 { repeating := true }).fieldPower 111).repeating = true ∧ (fpW 2 2 0 { repeating := true }).fieldMoving 111 = false ∧ (fpW 2 2 0 { repeating := true }).canWake 111 = true ∧
    (∀ k ∈ [0, 1, 2, 3, 4], ((fpW 3 0 1 { step := k }).fieldPower 111).step = k) ∧ ((fpW 3 0 1 { step := 4 }).fieldPower 111).goal = none ∧
    (fpW 3 0 1 { step := 4 }).job.placing = none := by decide +kernel
/-- R332: 1,000 mA at a baseline of 1,000 mA, 100 µΩ; a rise of 12,000 µΩ is 12 mV, and 12,001 is more. -/
theorem witness_Cracks : (crackW []).fieldState 111 = 0 ∧ (crackW []).fieldMoving 111 = false ∧ crackRise ((crackW []).marginRec 111) ⟨3, 12100, 1000⟩ = some 12000000 ∧
    crackRise ((crackW []).marginRec 111) ⟨3, 12101, 250⟩ = some 12001000 ∧ (crackW []).rd (fieldBase 111) Reg.fpwCrackFailed = 0 ∧
    ((crackW []).fieldPower 111).suspects = [] ∧ ((crackW [(4, 13000000)]).fieldPower 111).suspects = [(4, 13000000)] := by decide +kernel
/-- R332: at 12 mV the field is not suspect. -/
theorem test_crack : (after (exec (.crackCheck 111 [⟨3, 12100, 1000⟩]) (atW (crackW [])))).rd (fieldBase 111) Reg.fpwCrackSuspect = 0 := by decide +kernel
/-- R390: ALERT_N is asserted by a valid record, and in standby after an ordered shutdown; not by standby alone. -/
theorem test_alert : baseW.alertAsserted = false ∧ (baseW.wr hltBase Reg.hltMeventValid 1).alertAsserted = true ∧
    (({ baseW with power := { baseW.power with shutdown := true } } : Wafer).wr pwrBase Reg.pwrStatState 0).alertAsserted = true ∧
    (baseW.wr pwrBase Reg.pwrStatState 0).alertAsserted = false := by decide +kernel

/-! ## Brakes, gears, temperatures, floods -/

/-- The last ten samples, in units of 0.1 mW, average `watts`. -/
def drawW (watts : Nat) (w : Wafer) : Wafer := { w with power := { w.power with samples := List.replicate 10 (watts * 10000) } }
/-- The command's brake at 10 kW, the pulses removed, and the draw. -/
def trimW (p : Nat) (fresh : Bool) (watts : Nat) : Wafer :=
  drawW watts ((({ brakeW 1 10000 with power := { (brakeW 1 10000).power with fresh := fresh } } : Wafer)).wr pwrBase Reg.pwrBrakePulse p)
/-- Ten times the last ten samples, as BRAKE_TRIM and the cap loop use them. -/
def drawn (w : Wafer) : Nat := 10 * (w.power.samples.take 10).foldl (· + ·) 0
/-- Fields in RUN under a cap, and a hundred samples that average `watts`: with a further one like them the averages stay. -/
def capW (cap watts : Nat) : Wafer :=
  { allRun.wr pwrBase Reg.pwrCapCap cap with power := { allRun.power with samples := List.replicate 100 (watts * 10000) } }
/-- The sum that the 100 µs average is read from. -/
def allOf (w : Wafer) : Nat := w.power.samples.foldl (· + ·) 0
def pressW (passed : Nat) : Wafer := { allRun.wr pwrBase Reg.pwrStatCappress 1 with time := { allRun.time with passed := passed } }
theorem witness_Brakes : allRun.power.levels.getD 0 none = none ∧ ((brakeW 0 5).power.levels.getD 0 none).isSome = true ∧ allRun.braking = false ∧
    11000000 * (capW 12000 13201).loopCap < 10 * drawn (capW 12000 13201) ∧ 10 * drawn (capW 12000 13200) ≤ 11000000 * (capW 12000 13200).loopCap ∧
    allOf (capW 12000 13201) ≤ 44000000000 ∧ 44000000000 < allOf (capW 40000 44001) ∧ 11000000 * (capW 40000 44001).loopCap < 10 * drawn (capW 40000 44001) ∧
    10 * drawn (capW 40001 44001) ≤ 11000000 * (capW 40001 44001).loopCap ∧ (capW 40000 44001).power.levels.getD 4 none = none ∧
    (drawW 48401 allRun).power.levels.getD 3 none = none ∧ ((brakeW 3 5).power.levels.getD 3 none).isSome = true ∧
    (pressW 124875000).rd pwrBase Reg.pwrStatCappress = 1 ∧
    (pressW 124875000).power.pressAt + 1250000 * (pressW 124875000).rd pwrBase Reg.pwrCapGrace ≤ (pressW 124875000).time.passed + (pressW 124875000).period ∧
    ¬ (pressW 124874999).power.pressAt + 1250000 * (pressW 124874999).rd pwrBase Reg.pwrCapGrace ≤ (pressW 124874999).time.passed + (pressW 124874999).period ∧
    (pressW 0).power.levels.getD 3 none = none ∧ allRun.rd pwrBase Reg.pwrStatCappress ≠ 1 ∧ allRun.brakeLevel = none ∧
    (trimW 0 true 20000).brakeLevel = some 10000 ∧ (trimW 0 true 20000).power.fresh = true ∧ (trimW 0 true 20000).pulse = 0 ∧
    drawn (trimW 0 true 20000) * (8 - 4) ≤ 1000000 * 10000 * (8 - (trimW 0 true 20000).pulse) ∧
    (∀ j, j < 4 → 1000000 * 10000 * (8 - (trimW 0 true 20000).pulse) < drawn (trimW 0 true 20000) * (8 - j)) ∧
    (∀ j, j < 8 → 1000000 * 10000 * (8 - (trimW 7 true 10001).pulse) < drawn (trimW 7 true 10001) * (8 - j)) ∧ (trimW 3 false 9799).power.fresh = false ∧
    1000000 * 10000 < drawn (trimW 3 false 10001) ∧ drawn (trimW 3 false 9799) * 100 < 98 * (1000000 * 10000) ∧
    98 * (1000000 * 10000) ≤ drawn (trimW 3 false 9800) * 100 ∧ drawn (trimW 3 false 9800) ≤ 1000000 * 10000 ∧ (brakeW 0 5).braking = true := by decide +kernel
/-- R343: 20 kW at full pulses against a level of 10 kW removes four pulses in eight. -/
theorem test_trim : (after (exec (.brakeTrim 12500) (atW (trimW 0 true 20000)))).pulse = 4 ∧ (after (exec (.brakeTrim 12500) (atW (trimW 3 false 10001)))).pulse = 4 ∧
    (after (exec (.brakeTrim 12500) (atW (trimW 3 false 9799)))).pulse = 2 ∧ (after (exec (.brakeTrim 12500) (atW (trimW 3 false 9800)))).pulse = 3 := by decide +kernel
def raiseW : Wafer := ((allRun.wr (fieldBase 111) Reg.fpwGearApplied 300).setFieldPower 111 { raising := some 600 })
theorem witness_Gears : raiseW.applied 111 = 300 ∧ raiseW.fieldState 111 = 0 ∧ baseW.fieldState 111 ≠ 0 ∧ (raiseW.fieldPower 111).raising.isSome = true ∧
    (baseW.fieldPower 111).raising = none ∧ baseW.tallyFull = false ∧ baseW.rd pwrBase Reg.pwrBrakeApply = 0 ∧
    (baseW.wr pwrBase Reg.pwrBrakeApply 1).rd pwrBase Reg.pwrBrakeApply = 1 ∧ tallyFullW.tallyFull = true := by decide +kernel
/-- The coolant as measured, in 0.01 °C. -/
def warmW (tin tout : Nat) : Wafer := baseW.wrs pwrBase [(Reg.pwrCoolTin, tin), (Reg.pwrCoolTout, tout)]
def noPair2 : Wafer := { baseW with shp := { baseW.shp with pair2 := { up := false } } }
theorem witness_Temperatures : noPair2.dutyUp 2 = false ∧ allRun.dutyUp 2 = true ∧ baseW.fieldState 111 = 3 ∧ allRun.fieldState 111 ≠ 3 ∧
    ((fpW 0 0 0 { cool := 9 }).fieldPower 111).cool = 9 ∧ ((fpW 0 0 0 { cool := 8 }).fieldPower 111).cool < 9 ∧
    ((fpW 0 0 0 { cool := 9 }).wr (fieldBase 111) Reg.fpwGearThermal 300).rd (fieldBase 111) Reg.fpwGearThermal ≠ 600 ∧
    (fpW 0 0 0 {}).fieldTarget 111 ≠ 3 ∧ (fpW 0 3 1 {}).fieldTarget 111 = 3 ∧ shutW.power.shutdown = true ∧ baseW.power.shutdown = false ∧ baseW.shpDown = false ∧
    (warmW 2000 3801).rd pwrBase Reg.pwrCoolTin + 1800 < (warmW 2000 3801).rd pwrBase Reg.pwrCoolTout ∧ (warmW 2000 3801).power.shutdown = false ∧
    (warmW 2000 3800).rd pwrBase Reg.pwrCoolTout ≤ (warmW 2000 3800).rd pwrBase Reg.pwrCoolTin + 1800 := by decide +kernel
/-- R345: 95 °C takes 600 MHz to 570; 94 does not. -/
theorem test_hot : ((after (exec (.thermalPoll [⟨111, 20, 95, 20, 20⟩]) (atW ((fpW 0 0 0 {}).wr (fieldBase 111) Reg.fpwGearThermal 600)))).fieldPower 111).thermal = 570 ∧
    ((after (exec (.thermalPoll [⟨111, 20, 94, 20, 20⟩]) (atW ((fpW 0 0 0 {}).wr (fieldBase 111) Reg.fpwGearThermal 600)))).fieldPower 111).thermal = 600 := by decide +kernel

/-! ## Floods, surveys and errors -/

def fr1 : FieldRec := { status := 1 }
def floodX (step : Nat) (testing : List Nat) : FloodRun := ⟨true, false, true, step, 0, testing, (List.range 112).map fun f => (f, { fr1 with status := 2 }), [], [], []⟩
def floodW (fl : FloodRun) : Wafer := { baseW with health := { baseW.health with flood := some fl } }
def dueW : Wafer := { baseW with health := { baseW.health with floodDue := some (true, true, true) } }
def testX : FieldTest := ⟨111, true, 0, 2 ^ 20 - 1, 0, 15, 0, 0, 7, 9, []⟩
/-- Field 111 alone under test after a FIELD reset. -/
def retestW : Wafer := { allRun with health := { allRun.health with retests := [111], flood := none } }
def retestX : FloodRun := ⟨false, false, true, 4, (retestW.fieldRec 111).depth, [111], retestW.map.fields, [], [], []⟩
theorem witness_Retests : retestW.health.flood = none ∧ testX.field ∈ retestW.health.retests ∧ testX.field ∉ allRun.health.retests ∧ allRun.health.flood = none ∧
    noPair2.dutyUp 2 = false ∧ retestW.dutyUp 2 = true ∧ (retestW.verdict retestX testX).1 < 2 ∧ 2 ≤ (retestW.verdict retestX { testX with relay := false, cause := 3 }).1 := by decide +kernel
theorem witness_Floods : dueW.health.floodDue = some (true, true, true) ∧ dueW.powered = true ∧ dueW.health.flood = none ∧ dueW.armedOrRunning = false ∧
    ({ baseW with health := { baseW.health with floodDue := none } } : Wafer).health.floodDue = none ∧ Wafer.reset.powered = false ∧ (floodW (floodX 1 [])).health.flood = some (floodX 1 []) ∧ (floodX 1 []).step < 3 ∧
    baseW.untested (floodX 1 []) 3 = false ∧ 3 ≤ (floodX 4 [111]).step ∧ (floodX 4 [111]).testing = [testX.field] ∧
    ((floodW (floodX 4 [111])).verdict (floodX 4 [111]) testX).1 < 2 ∧ 2 ≤ ((floodW (floodX 4 [111])).verdict (floodX 4 [111]) { testX with relay := false, cause := 3 }).1 ∧
    ({ floodX 4 [] with fields := (List.range 112).map fun f => (f, fr1) }).stackDue 31 = true ∧ (floodX 4 []).testing = [] ∧ (floodW (floodX 4 [])).armedOrRunning = false ∧ 3 ≤ (floodX 4 []).step ∧ ({ (floodW (floodX 4 [])).health with quayLost := true } : HealthSt).quayLost = true ∧
    (∀ k, k < 32 → (floodX 4 []).stackDue k = false) := by decide +kernel

def survW (l todo : List Nat) : Wafer :=
  { allRun with health := { allRun.health with surveying := l, surveyTodo := todo, surveyPlan := some {} } }
/-- Surveyed at wall time 1, and the wall clock past that time by the period, and by a nanosecond more. -/
def surveyedW (now : Nat) : Wafer := { allRun.wr lckBase Reg.lckWallWall now with time := { allRun.time with wallSet := true }, health := { allRun.health with plan := allRun.health.plan.commit { fields := [(111, { wall := 1 })] } } }
theorem witness_SurveyAges : (surveyedW 259200000000001).surveyOld 111 = false ∧ (surveyedW 259200000000002).surveyOld 111 = true ∧ allRun.dutyUp 2 = true ∧
    (surveyedW 259200000000001).dutyUp 2 = true ∧ (surveyedW 259200000000001).wall = 259200000000001 := by decide +kernel
theorem witness_Surveys : (jobAt 111 allRun).fieldHeld 111 = true ∧ allRun.fieldHeld 111 = false ∧ allRun.health.flood = none ∧ (allRun.fieldRec 111).status % 8 = 0 ∧
    allRun.health.map.current.isSome = true ∧ allRun.health.surveyPlan = none ∧ (survW [111, 0] []).health.surveyPlan = some {} ∧ 111 ∈ (survW [111, 0] []).health.surveying ∧
    0 ∈ (survW [111, 0] []).health.surveying ∧ 0 / 7 ≠ 111 / 7 ∧ 111 ∉ (survW [111, 0] []).health.surveyTodo ∧ (survW [111, 0] []).job.placing = none ∧
    allRun.fieldInRun 111 = false ∧ (jobAt 111 allRun).fieldInRun 111 = true ∧ (jobAt 111 allRun).fieldState 111 = 0 ∧
    gearRail.getD (gearIdx ((jobAt 111 allRun).applied 111)) 480 + 5 * (((jobAt 111 allRun).marginRec 111).offsets.getD (gearIdx ((jobAt 111 allRun).applied 111)) 0 + 1) ≤ 750 ∧
    gearIdx ((jobAt 111 allRun).rd (fieldBase 111) Reg.fpwGearTop) < 5 := by decide +kernel
/-- An offset of 54 steps in every gear: 480 mV and 55 steps is above 750 mV. -/
def highW : Wafer := { jobAt 111 allRun with health := { allRun.health with plan := allRun.health.plan.commit { fields := [(111, { offsets := List.replicate 6 54 })] } } }
theorem witness_Ceiling : 750 < gearRail.getD (gearIdx (highW.applied 111)) 480 + 5 * ((highW.marginRec 111).offsets.getD (gearIdx (highW.applied 111)) 0 + 1) ∧
    gearIdx (highW.rd (fieldBase 111) Reg.fpwGearTop) < 5 ∧ highW.fieldInRun 111 = true ∧ highW.fieldState 111 = 0 := by decide +kernel
/-- R364: below 20 ps one step more; 20 ps asks for nothing. -/
theorem test_canary : ((after (exec (.canaryWatch 111 [19, 40, 40, 40]) (atW (jobAt 111 allRun)))).fieldPower 111).offsetNew = some (gearIdx (allRun.applied 111), 1) ∧
    ((after (exec (.canaryWatch 111 [20, 40, 40, 40]) (atW (jobAt 111 allRun)))).fieldPower 111).offsetNew = none := by decide +kernel

def errW (l : ErrLoc) (ticks : List Nat) (now : Nat) : Wafer :=
  { baseW.wr lckBase Reg.lckTickTick now with health := { baseW.health with errs := [⟨l, ticks, false⟩] } }
def locX (kind : Nat) : ErrLoc := ⟨kind, 111, 19, 0, 4⟩
theorem witness_Errors : (∀ k ∈ [1, 3, 5, 7, 8, 9], errLocOk (locX k) = true) ∧ errLocOk ⟨2, 111, 35, 0, 0⟩ = true ∧ errLocOk ⟨4, 0, 0, 31, 2 ^ 22 - 1⟩ = true ∧
    errLocOk ⟨6, 0, 0, 207, 15⟩ = true ∧ baseW.dutyUp 2 = true ∧ noPair2.dutyUp 2 = false ∧
    ((errW (locX 1) [3, 2] 4).health.errs.find? fun e => e.loc == locX 1) = some ⟨locX 1, [3, 2], false⟩ ∧
    ((errW (locX 1) [3, 2, 1] (2 ^ 20)).health.errs.find? fun e => e.loc == locX 1) = some ⟨locX 1, [3, 2, 1], false⟩ ∧
    tickDiff (errW (locX 1) [3, 2, 1] (2 ^ 20)).tick 1 < 2 ^ 20 ∧ ¬ tickDiff (errW (locX 1) [3, 2, 1] (2 ^ 20 + 1)).tick 1 < 2 ^ 20 := by decide +kernel
/-- The word of each kind of location that holds one, and one stack address whose word is fenced away. -/
theorem witness_Words : baseW.locWord ⟨1, 111, 19, 0, 524287⟩ 3 = some (0, 2239 * 2 ^ 24 + 16777208) ∧ (baseW.locWord ⟨2, 111, 35, 0, 65535⟩ 7).isSome = true ∧
    (baseW.locWord ⟨9, 0, 0, 0, 8191⟩ 127).isSome = true ∧ errLocOk ⟨1, 111, 19, 0, 524287⟩ = true ∧ errLocOk ⟨9, 0, 0, 0, 8191⟩ = true ∧
    ({ baseW with fences := [⟨fStackPort 0, 1, none⟩] } : Wafer).lineFenced 0 0 = true ∧ baseW.lineFenced 0 0 = false ∧ (baseW.locWord ⟨4, 0, 0, 0, 5⟩ 3).isSome = true ∧ baseW.groupsShut 0 0 8 = false := by decide +kernel
def retW : Wafer := { allRun with health := { allRun.health with retireSites := [2239] } }
theorem witness_RepairsAndNotices : (jobAt 111 allRun).fieldHeld (447 / 4) = true ∧ retW.fieldHeld (447 / 4) = false ∧
    (retW.health.retireSites.any fun x => siteCluster x == 447) = true ∧ coremapFor (bits (retW.fieldRec (447 / 4)).siteFail (5 * (447 % 4)) 5) < 2 ^ 16 ∧
    retW.dutyUp 2 = true ∧ 447 ∉ retW.health.retireClusters ∧ retW.health.markSites = [] ∧ linkState (linkW 3 {}) 175 = 3 ∧ linkState (linkW 6 {}) 175 = 6 ∧ (linkW 6 {}).armedOrRunning = false ∧
    ({ linkW 6 {} with job := { phase := .running, tag := 0x10007 } } : Wafer).armedOrRunning = true ∧ allRun.rd hltBase Reg.hltReplaceState ≠ 1 ∧
    ((jobAt 111 allRun).wr hltBase Reg.hltReplaceState 1).rd hltBase Reg.hltReplaceState = 1 := by decide +kernel
/-- R366: the fourth error within 2^20 ticks is permanent; after that time it is not. -/
theorem test_permanent : (after (exec (.errorReport (locX 1) none) (atW (errW (locX 1) [3, 2, 1] (2 ^ 20 + 1))))).rd hltBase Reg.hltPermValid = 0 ∧
    (after (exec (.errorReport (locX 1) none) (atW (errW (locX 1) [3, 2, 1] (2 ^ 20 + 1))))).rd hltBase Reg.hltCe = 1 := by decide +kernel
/-- A usable field stays in the proposal (R370). -/
theorem test_replace : (after (exec .replaceReady (atW ((jobAt 111 allRun).wr hltBase Reg.hltReplaceState 1)))).health.proposal = [111] := by decide +kernel

/-! ## Time -/

def waveMsg (n : Nat) (p : Option (Nat × Nat)) : WaveMsg := ⟨n, 0, p, 0, 0⟩
/-- A wave is out, every field with a latency correction of 30; the last change applied, and what field 111 knows of it. -/
def waveW (n : Nat) (p changed pend : Option (Nat × Nat)) : Wafer :=
  { jobAt 111 allRun with
    health := { map := { a := some (0, { fields := (List.range 112).map fun f => (f, { status := 0, wlat := 30, wlatAlt := 40 }) }) } }
    time := { allRun.time with wave := some (waveMsg n p), changed := changed, fields := [(111, { pend := pend, corr := 30 })], boundaries := 64 } }
def refW (k : Nat) (other : Nat) : Wafer :=
  { allRun with
    health := { map := { a := some (0, { fields := (List.range 112).map fun f => (f, { status := 0, refAlt := 4, wave := 4, waveAlt := 3 }) }) } }
    time := { allRun.time with fields := [(110, { refSource := other }), (111, { refSource := k })] } }
theorem witness_Waves : baseW.runs 111 = false ∧ allRun.time.wave = none ∧ (refW 0 0).waveCorr 111 0 = 0xFFFF ∧ (waveW 5 none none none).runs 111 = true ∧
    (waveW 5 none none none).time.wave = some (waveMsg 5 none) ∧ (waveW 5 none none none).waveCorr 111 ((waveW 5 none none none).fieldTime 111).waveParent ≠ 0xFFFF ∧
    (waveW 5 none none none).time.changed = none ∧ ((waveW 5 none (some (7, 4)) (some (7, 4))).fieldTime 111).pend = (waveW 5 none (some (7, 4)) (some (7, 4))).time.changed ∧
    (waveMsg 5 (some (7, 9))).pend ≠ (waveW 5 none (some (7, 4)) (some (7, 4))).time.changed ∧
    ¬ ((waveW 5 none (some (7, 4)) none).time.changed = none ∨ ((waveW 5 none (some (7, 4)) none).fieldTime 111).applied = (waveW 5 none (some (7, 4)) none).time.changed ∨
      ((waveW 5 none (some (7, 4)) none).fieldTime 111).pend = (waveW 5 none (some (7, 4)) none).time.changed) ∧
    ((waveW 5 none none none).fieldTime 111).heardAt + 64 ≤ (waveW 5 none none none).time.boundaries ∧ allRun.time.boundaries < (allRun.fieldTime 111).heardAt + 64 ∧
    ((refW 2 0).fieldTime 111).refSource = 2 ∧ ((refW 1 0).fieldTime 111).refSource = 1 ∧ ((refW 0 0).fieldTime 111).refSource = 0 ∧
    fieldNeighbour 111 ((refW 0 0).fieldRec 111).refAlt = some 110 ∧ (refW 0 0).runs 110 = true ∧ ((refW 0 0).fieldTime 110).refSource = 0 ∧
    ((refW 0 0).fieldTime 111).waveParent = 0 ∧ waveFrom (refW 0 0) 111 110 = true ∧ fieldNeighbour 111 ((refW 0 0).fieldRec 111).waveAlt = some 105 ∧
    (refW 0 0).runs 105 = true ∧ ((refW 0 0).fieldTime 105).waveParent = 0 ∧ waveFrom (refW 0 0) 105 110 = false ∧ waveFrom (refW 0 0) 105 111 = false ∧ (jobAt 111 allRun).fieldInRun 111 = true := by decide +kernel
/-- R28: an alternate on its own primary is used; one that is not leaves the rim line. -/
theorem test_reference : ((after (exec (.referenceSwitch 111) (atW (refW 0 0)))).fieldTime 111).refSource = 1 := by decide +kernel
theorem test_rim_reference : ((after (exec (.referenceSwitch 111) (atW (refW 0 1)))).fieldTime 111).refSource = 2 := by decide +kernel
def hbX (t : Nat) : Heartbeat := ⟨t, 125000, 0x10007, 0⟩
theorem witness_Heartbeats : linkState (linkW 3 upP) 175 ≠ 5 ∧ linkState (linkW 3 upP) 175 ≠ 6 ∧ linkState upW 175 = 6 ∧
    heartbeatOk (upW.wr lckBase Reg.lckTickTick 9) 175 (hbX 9) = true ∧ heartbeatOk (upW.wr lckBase Reg.lckTickTick 9) 175 (hbX 8) = true ∧
    heartbeatOk (upW.wr lckBase Reg.lckTickTick 9) 175 (hbX 7) = false ∧ (upW.wr lckBase Reg.lckTickTick 9).portInRun 175 = true ∧ (linkW 6 upP).portInRun 175 = false ∧
    heartbeatOk ((linkW 6 upP).wr lckBase Reg.lckTickTick 9) 175 (hbX 7) = false := by decide +kernel

/-- The counter follows port 175's timing frames. -/
def srvW (p : JobPhase) : Wafer := { (linkW 6 upP).wrs lckBase [(Reg.lckSrcPhase, 1), (Reg.lckSrcUpstream, 175), (Reg.lckSrcAlt1, 174), (Reg.lckSrcAlt2, 173), (Reg.lckSyncstatActive, 175)] with job := { phase := p } }
theorem witness_Servos : linkState (srvW .idle) 175 = 6 ∧ (srvW .idle).rd lckBase Reg.lckSrcPhase = 1 ∧ (srvW .idle).activePort = 175 ∧ (linkW 6 upP).rd lckBase Reg.lckSrcPhase ≠ 1 ∧
    (srvW .running).armedOrRunning = true ∧ (srvW .idle).armedOrRunning = false ∧ (srvW .idle).activePort = (srvW .idle).rd lckBase Reg.lckSrcUpstream ∧
    (srvW .idle).rd lckBase Reg.lckSrcAlt1 ≠ 0xFF ∧ ((srvW .idle).wr lckBase Reg.lckSyncstatActive 174).activePort ≠ (srvW .idle).rd lckBase Reg.lckSrcUpstream ∧
    ((srvW .idle).wr lckBase Reg.lckSyncstatActive 174).activePort ≠ ((srvW .idle).wr lckBase Reg.lckSyncstatActive 174).rd lckBase Reg.lckSrcAlt2 ∧
    (srvW .running).running = true ∧ 5000000 < (toInt 32 (((srvW .running).wr lckBase Reg.lckSyncstatOffset 5000001).rd lckBase Reg.lckSyncstatOffset)).natAbs ∧
    ((srvW .running).wr lckBase Reg.lckSyncstatState 3).syncState = 3 ∧ (srvW .idle).running = false := by decide +kernel
/-- Port 175 with a Sync of number 5 that came `x` units of 0.1 ns late, and a Delay_Req that took as much less: no delay, an offset of x. -/
def ptpW (x : Int) : Wafer := (srvW .idle).wr lckBase Reg.lckCountCount 2000 |> fun (w : Wafer) =>
  { w with time := { w.time with ports := [(175, { syncSeq := 5, t2 := some x, reqSeq := 6, t3 := some x, t4 := some 0 })] } }
def followUp (seq : Nat) : List Byte := ptpMsg 8 seq 0 0 []
/-- The four messages, a two-step Sync and one that is not, and numbers that match and do not. -/
theorem witness_Timing : ptpType (ptpMsg 0 5 0 0 []) = 0 ∧ ptpType (ptpMsg 1 5 0 0 []) = 1 ∧ ptpType (followUp 5) = 8 ∧ ptpType (ptpMsg 9 6 0 0 []) = 9 ∧
    ptpType (ptpMsg 11 5 0 0 []) ∉ [0, 1, 8, 9] ∧ ptpSeq (followUp 5) = 5 ∧ ptpSeq (ptpMsg 9 6 0 0 []) = 6 ∧ ptpTwoStep (ptpMsg 0 5 0 0 []) = true ∧ ptpTwoStep (List.replicate 44 0#8) = false ∧
    ptpType (List.replicate 44 0#8) = 0 ∧ (ptpW 10008).activePort = 175 ∧ (ptpW 10008).activePort ≠ 174 ∧ linkState ((ptpW 10008).wr (portBase 174) Reg.tpLinkstatState 6) 174 = 6 ∧
    linkState (ptpW 10008) 175 = 6 ∧ linkState (ptpW 10008) 174 ∉ [5, 6] ∧
    (let p := (((ptpW 10008).elapseWithin 0).rxTook 175 3 6 (followUp 5)).portTime 175;
      p.t2 = some 10008 ∧ p.t3 = some 10008 ∧ p.t4 = some 0 ∧ p.syncSeq = 5 ∧ p.reqSeq = 6 ∧ ptpSeq (followUp 4) ≠ p.syncSeq ∧ p.asym = 0) := by decide +kernel
/-- R53: 1 µs is steered; more than 1 µs outside a job steps the counter by the offset at 0.8 ns a count. -/
theorem test_servo : let t := after (exec (.timingFrame 175 (followUp 5) 0 0) (atW (ptpW 10008)))
    t.countNow = 749 ∧ t.rd lckBase Reg.lckTickStepped = 1 ∧
    (after (exec (.timingFrame 175 (followUp 5) 0 0) (atW (ptpW 10000)))).countNow = 2000 ∧
    (after (exec .upstreamLost (atW (srvW .idle)))).activePort = 174 := by decide +kernel
def ppsW (at' : Option Nat) (seed : Option (Nat × Nat)) (n : Nat) : Wafer :=
  { baseW.wrs lckBase [(Reg.lckCountCount, n), (Reg.lckPpsloadSeed, 77)] with time := { baseW.time with ppsAt := at', seedArmed := seed, servers := [7] } }
theorem witness_PpsAndWall : (ppsW (some 0) none 624999999).countNow < 2 ^ 64 ∧ ((ppsW (some 0) none 624999999).countNow + 2 ^ 64 - 0) % 2 ^ 64 < 625000000 ∧
    ¬ ((ppsW (some 0) none 625000000).countNow + 2 ^ 64 - 0) % 2 ^ 64 < 625000000 ∧ (ppsW none (some (7, 1)) 5).time.seedArmed = some (7, 1) ∧ (ppsW none (some (7, 1)) 5).time.ppsAt = none ∧
    (ppsW none (some (7, 1)) 5).armedOrRunning = false ∧ (ppsW none (some (7, 1)) 5).rd lckBase Reg.lckSrcPhase ≠ 2 ∧ (ppsW none none 5).time.seedArmed = none ∧
    (ppsW none none 1250000000).countNow % 1250000000 = 0 ∧ (ppsW none none 5).countNow % 1250000000 ≠ 0 ∧ (ppsW none none 5).wall < 2 ^ 64 ∧ tallyFullW.tallyFull = true ∧
    baseW.tallyFull = false ∧ (jobW .running).armedOrRunning = true ∧ baseW.power.standby = true ∧ ({ ppsW none (some (7, 1)) 5 with job := { phase := .armed } } : Wafer).armedOrRunning = true ∧ 8 ∉ (ppsW none none 5).time.servers ∧ 7 ∈ (ppsW none none 5).time.servers ∧ noPair1.dutyUp 1 = false ∧
    (ppsW none none 5).dutyUp 1 = true := by decide +kernel
/-- R391: an unlocked module pulses PPS_OUT for 50 µs. -/
theorem test_pps_out : (after (exec (.ppsOutPulse 0) (atW (ppsW none none 1250000000)))).out = [.ppsOut 50] ∧
    (after (exec (.ppsOutPulse 0) (atW (ppsW none none 1250000001)))).out = [] := by decide +kernel

/-! ## The boundary and the scans -/

/-- A packet in the management lane's inbox, from a source that expects number 0. -/
def scanW (seq : Nat) : Wafer := { baseW with cmd := { baseW.cmd with inboxMl := [(0, { pk 0 [] with path := 2, seq := seq })] } }
def scanP (seq : Nat) : Packet := { pk 0 [] with path := 2, seq := seq }
/-- A running job whose core 3 has not passed its mark, or has. -/
def overW (marked : Bool) : Wafer :=
  { (coreW.wr 0 Reg.shpSnapctlInterval 3).wr (fieldBase 0) Reg.fpwStateState 0 with
    time := { coreW.time with fields := [(0, { armStart := 125000 })] }
    cores := [(3, { core3 with marked := marked })]
    job := { phase := .running, placement := [0], image := some img1 } }
def rateW (t : Nat) : Wafer := baseW.wrs lckBase [(Reg.lckPendingValid, 1), (Reg.lckPendingPeriod, 500000), (Reg.lckPendtickTick, t)]
theorem witness_Boundaries : (overW true).cmd.inflight = [] ∧ (overW true).cmd.clears = [] ∧ (overW true).cmd.swaps = [] ∧ (overW true).cmd.lifts = [] ∧ ((overW true).elapse (overW true).toNextStart).fieldFires 0 = true ∧ (overW true).fieldState 0 = 0 ∧ (overW true).time.late = [] ∧ (overW true).job.placing = none ∧
    baseW.running = false ∧ (rateW 9).pendingRate = some (500000, 9) ∧ tickFuture 9 1 = true ∧ tickFuture 1 1 = false ∧ baseW.pendingRate = none ∧
    baseW.tickAt ((baseW.countNow + baseW.toNextStart) % 2 ^ 64) = 1 ∧ (baseW.wr 0 Reg.shpSnapctlInterval 3).rd 0 Reg.shpSnapctlInterval = 3 ∧ 1 % 2 ^ 3 ≠ 0 ∧ 1 % 2 ^ 0 = 0 ∧
    (overW false).overruns = [3] ∧ (overW false).rd lckBase Reg.lckOvrstatValid ≠ 1 ∧ (overW true).overruns = [] ∧ (overW true).job.image = some img1 ∧
    (overW true).reduce = {} ∧ (overW true).rd wstBase Reg.wstFlipValid = 0 ∧ 3 ∈ (overW true).jobSites ∧ ((overW true).core 3).hasStage = true ∧
    (overW true).coreFenced 3 = false := by decide +kernel
/-- R111: with its mark passed in every core the job runs on. -/
theorem test_boundary : (after (exec (.tickBoundary 0) (atW (overW true)))).job.phase = .running := by decide +kernel
theorem witness_Scans : (scanW 0).cmd.inflight = [] ∧ (scanW 0).inflightTotal = 0 ∧ (scanW 0).cmd.clears = [] ∧ (scanW 0).cmd.swaps = [] ∧ (scanW 0).time.late = [] ∧
    (scanW 0).running = false ∧ (scanW 0).job.placing = none ∧ (scanW 0).job.tagsDue = none ∧ (scanW 0).chamber = {} ∧ (scanW 0).cmd.inboxMctp = [] ∧
    (scanW 0).cmd.inboxMl = [(0, scanP 0)] ∧ (scanP 0).path = 2 ∧ (scanW 0).interprets 2 = true ∧ seqClass ((scanW 0).nextSeq (scanP 0)) (scanP 0).seq = .take ∧
    seqClass ((scanW 4095).nextSeq (scanP 4095)) (scanP 4095).seq = .hold ∧ baseW.cmd.scanCut = 0 ∧
    ({ baseW with cmd := { baseW.cmd with scanCut := 2 } } : Wafer).cmd.scanCut ≠ 0 := by decide +kernel

/-! ## Well-formed commands -/

def l64 : List Byte := List.replicate 64 0#8
def e64 : List Bool := List.replicate 64 true
/-- Every check of a packet's header fields refuses the first value past its range. -/
def badPackets : List Packet :=
  [{ pk 0 [] with path := 4 }, { pk 0 [] with origin := 2 ^ 40 }, { pk 0 [] with flags := 2 ^ 16 }, { pk 0 [] with seq := 2 ^ 32 }, { pk 0 [] with target := 2 ^ 48 },
   { pk 0 [] with jobTag := 2 ^ 32 }, { pk 0 [] with rdaddr := 2 ^ 64 }, { pk 0 [] with rdlen := 2 ^ 32 }, { pk 0 [] with cookie := 2 ^ 32 }]
/-- Every check of an instruction's fields refuses the first value past its range. -/
def badIssues : List Issue := [{ ins 0 0 0 0 with site := 2240 }, ins 32 0 0 0, ins 0 32 0 0, ins 0 0 32 0, { ins 0 0 0 0 with c := 32 }]
def badFrames : List Frame := [{ mgF [] with vl := 4 }, { mgF [] with payload := List.replicate 233 0#8 }]
theorem wf_refuses_fields : (badPackets.all fun p => !p.wf) = true ∧ (pk 0 []).wf = true ∧ (badIssues.all fun i => !i.wf) = true ∧ (ins 31 31 31 0).wf = true ∧
    (badFrames.all fun f => !f.wf) = true ∧ (mgF []).wf = true ∧ (FenceUnit.mk .site 256 0).wf = false ∧ (FenceUnit.mk .site 0 65536).wf = false ∧
    ([Rect.mk 1 0 0 0, .mk 0 0 60 0, .mk 0 1 0 0, .mk 0 0 0 48].all fun r => !r.wf) = true ∧ (Rect.mk 59 47 59 47).wf = true := by decide
theorem wf_refuses_1 : (([fun n => .registerWrite n default default default, fun n => .ppsseed ⟨n, default⟩, fun n => .matClear n default default, fun n => .seqClear n default,
    fun n => .gmeClear n default, fun n => .arbSwap n default, fun n => .rtrClear n default, fun n => .stkClear n default, fun n => .tirClear n default,
    fun n => .tpxClear n default, .wstClear, fun n => .jncClear n default, .collClear, fun n => .cmdRingtailWrite n default default,
    fun n => .ringEnable n default default, fun n => .cmdClear n default, fun n => .assistFail default n, fun n => .pwrBrakeApply n default default,
    fun n => .pwrBrakeLevel n default, fun n => .pwrCapWrite n default, .pwrClear, fun n => .fpwClear n default, .hltFclear] :
    List (Nat → Instr)).all fun c => !(c 8).wf && (c 7).wf) = true := by decide
theorem wf_refuses_2 : (([fun n => .registerWrite default default default n] :
    List (Nat → Instr)).all fun c => !(c 256).wf && (c 255).wf) = true := by decide
theorem wf_refuses_3 : (([.referenceSwitch, .tickWave, .tickWaveReroot, .tickWaveLost, fun n => .phaseFail n default, .powerDroop, fun n => .crackCheck n default,
    fun n => .fieldEntryDone n default, .wakeRepeat, .fieldWakeStepDone, .fieldWakeFail, .railReady, fun n => .fpwClear default n,
    fun n => .thermalFallow n default, .thermalCooldown, fun n => .thermalShutdown n default, .surveyPeriodExpiry, fun n => .surveyFieldDone n default,
    fun n => .canaryWatch n default] :
    List (Nat → Instr)).all fun c => !(c 112).wf && (c 111).wf) = true := by decide
theorem wf_refuses_4 : (([.tickSchedule, .tickRateChange, .load, .place, .arm, .start, .quiesce, .abort, .status, .nop, .identify, .seqReset, .placeSet, .quayWrite,
    .quayRead, .penQuota, .admission, .trainSet, .flipPlan, .portPlan, .fence, .unfence, .peerExpect, .routeLoad, .chainLoad, .memberLoad, .timeSource,
    .timeServers] :
    List (Packet → Instr)).all fun c => badPackets.all (fun p => !(c p).wf) && (c (pk 0 [])).wf) = true := by decide
theorem wf_refuses_5 : (([.timeRead, .capSet, .brake, .gearSet, .fieldState, .powerRead, .snapRead, .mapRead, .floodTest, .marginSurvey, .marginRead, .tallyRead, .fwWrite,
    .fwCommit, .fwActivate, .rootAdd, .rootRemove, .reset, .collLoad] :
    List (Packet → Instr)).all fun c => badPackets.all (fun p => !(c p).wf) && (c (pk 0 [])).wf) = true := by decide
theorem wf_refuses_6 : (([fun n => .heartbeat n default, fun n => .timingFrame n default default default, .linkTrainingDone, fun n => .ident n default default,
    fun n => .keyx n default, .quarantineRetry, fun n => .hopFrameReceive n ⟨List.replicate 256 0#8, none⟩, fun n => .credit n default, fun n => .ack n default,
    fun n => .nak n default, .replayTimeout, fun n => .laneSerExceeded n default, .linkWidthChanged, .rekey, .oldKeyExpiry,
    fun n => .xferFrame n default, .lossOfLight, .partnerLost, fun n => .tpxClear default n, fun n => .trainRelay n default, fun n => .grad n default,
    fun n => .chainComplete n default, fun n => .chainStall n default, fun n => .verdict n default, fun n => .collCount n default,
    fun n => .collData n default, fun n => .jncClear default n, fun n => .mgmtFrame n default] :
    List (Nat → Instr)).all fun c => !(c 176).wf && (c 175).wf) = true := by decide
theorem wf_refuses_7 : (([fun n => .jobFaultNotice n default, fun n => .laneLossOfLock n default, .creditFrameSend, .ackSend] :
    List (Nat → Instr)).all fun c => !(c 176).wf && (c 175).wf) = true := by decide
theorem wf_refuses_8 : (([.matMode, .matLoad, .matStream, .matWait, .seqNop, .seqLdi, .seqLdih, .seqAdd, .seqAddi, .seqSub, .seqMul, .seqAnd, .seqOr, .seqXor, .seqShl,
    .seqShr, .seqSra, .seqLd, .seqSt, .seqBeq, .seqBne, .seqBlt, .seqBge, .seqBltu, .seqBgeu, .seqJal, .seqJr, .seqRdsys] :
    List (Issue → Instr)).all fun c => badIssues.all (fun i => !(c i).wf) && (c (ins 31 31 31 0)).wf) = true := by decide
theorem wf_refuses_9 : (([.movCopy, .movFill, .movWait, .cnlSend, .cnlMcast, .cnlConf, .cnlPost, .cnlWait, .synMark, .synSemwait, .synSempost, .synSemread, .synAttime,
    .vecAdd, .vecSub, .vecMul, .vecFma, .vecMax, .vecMin, .vecAbs, .vecNeg, .vecSel, .vecCmpgt, .vecCmpge, .vecCmpeq, .vecBcast, .vecExp, .vecLog] :
    List (Issue → Instr)).all fun c => badIssues.all (fun i => !(c i).wf) && (c (ins 31 31 31 0)).wf) = true := by decide
theorem wf_refuses_10 : (([.vecRcp, .vecRsqrt, .vecTanh, .vecErf, .vecGelu, .vecSigmoid, .vecGelut, .vecRsum, .vecRmax, .vecRmin, .vecRargmax, .vecRargmin, .vecTopk, .vecLd,
    .vecSt, .vecLdacc, .vecStacc, .vecCvt, .vecQmx, .vecRand, .tirPrefetch, .tirRelease, .tirGet] :
    List (Issue → Instr)).all fun c => badIssues.all (fun i => !(c i).wf) && (c (ins 31 31 31 0)).wf) = true := by decide
theorem wf_refuses_11 : (([fun n => .shadowLoadStart n default, fun n => .passIssue n default default, fun n => .passComplete n default default,
    fun n => .matClear default n default, fun n => .copyComplete n default, fun n => .sendComplete n default, fun n => .seqClear default n,
    fun n => .canalLanding n default] :
    List (Nat → Instr)).all fun c => !(c 2240).wf && (c 2239).wf) = true := by decide
theorem wf_refuses_12 : (([fun n => .shadowLoadStart default n, fun n => .passIssue default n default, fun n => .passComplete default n default,
    fun n => .matClear default default n, fun n => .rect default ⟨n, ⟨0, 0, 0, 0⟩⟩, fun n => .cxlMemWrite n default l64 e64, fun n => .cxlMemRead n default,
    fun n => .chamberWrite n default default, .replyWrite, fun n => .cmdRingtailWrite default n default, fun n => .ringEnable default n default,
    fun n => .cmdClear default n, .perstN, .cxlHotReset, .cxlLinkDown] :
    List (Nat → Instr)).all fun c => !(c 2).wf && (c 1).wf) = true := by decide
theorem wf_refuses_13 : (([.spareRemap, .gmeLaneTake, fun n => .gmeSetupDone n default, fun n => .gmeEmissionDone n default, fun n => .gmeClear default n,
    fun n => .frameFillDone n default, .pinExpiry, fun n => .getDeadlineMiss n default, fun n => .tirGetComplete n default,
    fun n => .tirClear default n, fun n => .assistFail n default] :
    List (Nat → Instr)).all fun c => !(c 448).wf && (c 447).wf) = true := by decide
theorem wf_refuses_14 : (([fun n => .confBufferTimeout n default, fun n => .rtrClear default n] :
    List (Nat → Instr)).all fun c => !(c 4480).wf && (c 4479).wf) = true := by decide
theorem wf_refuses_15 : (([fun n => .fenceMessage default ⟨n, default⟩] :
    List (FenceUnit → Instr)).all fun c => !(c ⟨.site, 256, 0⟩).wf && (c ⟨.site, 255, 65535⟩).wf) = true := by decide
theorem wf_refuses_16 : (([fun n => .rect default ⟨default, n⟩] :
    List (Rect → Instr)).all fun c => !(c ⟨1, 0, 0, 0⟩).wf && (c ⟨59, 47, 59, 47⟩).wf) = true := by decide
theorem wf_refuses_17 : (([fun n => .rimAck n default, fun n => .stkClear default n, fun n => .floodStackTestDone n default default default] :
    List (Nat → Instr)).all fun c => !(c 32).wf && (c 31).wf) = true := by decide
theorem wf_refuses_18 : (([fun n => .xferFrame default n, fun n => .trainRelay default n, fun n => .mgmtFrame default n] :
    List (Frame → Instr)).all fun c => badFrames.all (fun f => !(c f).wf) && (c (mgF [])).wf) = true := by decide
theorem wf_refuses_19 : (([.pairLockstepMismatch, .pairSheepdogExpiry, .pairRestartDone, fun n => .thermalFallow default n, fun n => .thermalShutdown default n] :
    List (Nat → Instr)).all fun c => !(c 4).wf && (c 3).wf) = true := by decide
theorem wf_refuses_20 : (([fun n => .phaseFail default n] :
    List (Nat → Instr)).all fun c => !(c 24).wf && (c 23).wf) = true := by decide
theorem wf_refuses_21 : (([.powerRegionLost] :
    List (Nat → Instr)).all fun c => !(c 16).wf && (c 15).wf) = true := by decide
theorem wf_refuses_22 : (([fun n => .fenceMessage ⟨n, 0⟩ ⟨⟨.site, 0, 0⟩, 0⟩, fun n => .rect ⟨n, 0⟩ ⟨0, ⟨0, 0, 0, 0⟩⟩, fun n => .jobFault ⟨n, default⟩ default] :
    List (Nat → Instr)).all fun c => !(c 113).wf && (c 112).wf) = true := by decide
theorem wf_refuses_23 : (([fun n => .fenceMessage ⟨0, n⟩ ⟨⟨.site, 0, 0⟩, 0⟩, fun n => .rect ⟨0, n⟩ ⟨0, ⟨0, 0, 0, 0⟩⟩, fun n => .jobFault ⟨default, n⟩ default,
    fun n => .inputSample n default 0 0, fun n => .inputSample default n 0 0, fun n => .capLoopSample n default, fun n => .capLoopSample default n] :
    List (Nat → Instr)).all fun c => !(c 65536).wf && (c 65535).wf) = true := by decide
/-- Offsets past BAR0 or not of a register, CXL addresses past 64 GiB or not of a line, lines of 64 bytes and enables, wake sources 1 to 4, brake sources 2 to 4. -/
theorem wf_refuses_last : (([.registerWrite 0 0x10000000 0 0, .registerWrite 0 4 0 0, .cxlMemWrite 0 (2 ^ 36) l64 e64, .cxlMemWrite 0 32 l64 e64, .cxlMemWrite 0 0 [] e64,
    .cxlMemWrite 0 0 l64 [], .cxlMemRead 0 (2 ^ 36), .cxlMemRead 0 32, .fieldWakeEvent 112 1, .fieldWakeEvent 0 0, .fieldWakeEvent 0 5, .brakeSourceRelease 1, .brakeSourceRelease 5,
    .chamberWrite 0 (2 ^ 22) default, .hopFrameReceive 0 ⟨List.replicate 255 0#8, none⟩, .hopFrameReceive 0 ⟨List.replicate 257 0#8, none⟩] : List Instr).all fun i => !i.wf) = true ∧
    ([.registerWrite 7 0xFFFFFF8 0 255, .cxlMemWrite 1 (2 ^ 36 - 64) l64 e64, .cxlMemRead 1 0, .fieldWakeEvent 111 4, .brakeSourceRelease 4].all Instr.wf) = true := by decide

/-! ## Words, steps and reset -/

/-- Table 5-2, bit by bit: CLASS, OP, D, A, B, C and IMM. -/
def word (cls : BitVec 4) (op : BitVec 8) (d a b c : BitVec 5) (imm : BitVec 32) : BitVec 64 := cls ++ op ++ d ++ a ++ b ++ c ++ imm
/-- SEQ ADDI, MAT LOAD, VEC ADD, MOV COPY, CNL SEND, SYN SEMWAIT and TIR PREFETCH, and the two last reserved classes. -/
theorem test_words : decodeWord 0b0000000010010010000001000000000011111111111111111111111111111111#64 = .ok ⟨.seq, 9, 4, 1, 0, 0, 0xFFFFFFFF⟩ ∧
    decodeWord 0b0001000000010000100101000000000000000000000000000000000000000000#64 = .ok ⟨.mat, 1, 1, 5, 0, 0, 0⟩ ∧
    decodeWord 0b0010000000000010000001000100001100000000000000000000000000000001#64 = .ok ⟨.vec, 0, 4, 1, 2, 3, 1⟩ ∧
    decodeWord 0b0011000000000000000101000000000000000000000000000000000000000000#64 = .ok ⟨.mov, 0, 0, 5, 0, 0, 0⟩ ∧
    decodeWord 0b0100000000000000000101000000000000000000000000000000000000000000#64 = .ok ⟨.cnl, 0, 0, 5, 0, 0, 0⟩ ∧
    decodeWord 0b0101000000010011000000000000000000000000000000001111111111111111#64 = .ok ⟨.syn, 1, 6, 0, 0, 0, 65535⟩ ∧
    decodeWord 0b0110000000000000000101000000000000000000000000000000000000000000#64 = .ok ⟨.tir, 0, 0, 5, 0, 0, 0⟩ ∧
    decodeWord (word 7 0 0 0 0 0 0) = .error (.reservedClass 7) ∧ decodeWord (word 15 255 31 31 31 31 0xFFFFFFFF) = .error (.reservedClass 15) := by
  refine ⟨rfl, rfl, rfl, rfl, rfl, rfl, rfl, rfl, rfl⟩

theorem witness_Steps : State.reset.w.memOk = true ∧ (⟨[.nop (pk 0 [])], baseW⟩ : State).pending = .nop (pk 0 []) :: [] ∧ State.reset.pending = [] := by decide +kernel
theorem witness_StepRuns : ∃ t, step ⟨[.refclkLoss], Wafer.reset⟩ = .next t ∧ t.pending = [] ∧ t.w.memOk = true := ⟨_, rfl, rfl, by decide +kernel⟩
/-- A full frame of the example's header, and an empty one. -/
theorem witness_Frames : ([(⟨1, 0, true, false, 0x1234, 232, 0x00270003, List.replicate 232 0xA5#8⟩ : Frame), ⟨3, 15, false, true, 65535, 0, 2 ^ 32 - 1, []⟩].all fun f =>
    decide (f.vl < 4 ∧ f.ftype < 16 ∧ f.seq < 2 ^ 16 ∧ f.plen ≤ 232 ∧ f.payload.length = f.plen ∧ f.tag < 2 ^ 32)) = true ∧ (List.replicate 12 0#8).length = 12 := by decide
/-- R200: one flipped bit makes no code word of a code word. -/
theorem test_code_word : codeValid (codeWord 5 true) = true ∧ codeValid (codeWord 5 true ^^^ 1) = false ∧ codeData (codeWord 5 true) = 5 := by decide +kernel

end Sys2Proof.Tests
end

/-!
SUPPORT. The read of LCK_WALL through JTAG (R56, R392): what it latches in LCK_WALLCNT, and why the statement on rings and registers
fails.
-/

namespace Sys2Proof.Machine

/-- LCK_WALLCNT has 64 bits (Table 2-14), and a write is cut to its field. -/
theorem Wafer.rd_wallcnt_readReg_wall (w : Wafer) :
    (w.readReg (lckBase + Reg.lckWallWall.off)).rd lckBase Reg.lckWallcntCount = w.countNow % 2 ^ 64 := by
  unfold Wafer.readReg
  rw [if_pos rfl, Wafer.rd_emit, Wafer.rd_wr]
  rfl

/-- The clause of R56 in the range of the counter, where it does hold. -/
theorem runs_jtag_readReg_wall_of_countNow_lt (s : State) (h : s.w.countNow < 2 ^ 64) :
    Runs (.jtagInstruction (.readReg (lckBase + Reg.lckWallWall.off))) s
      (fun t => t.rd lckBase Reg.lckWallcntCount = s.w.countNow) :=
  ⟨_, rfl, rfl, s.w.rd_wallcnt_readReg_wall.trans (Nat.mod_eq_of_lt h)⟩

/-- Refutes O44: the statement takes every state, and the register file is a table of unbounded numbers. In a module in canonical form
whose LCK_COUNT holds 2^64, a JTAG read of LCK_WALL leaves 0 in LCK_WALLCNT, which is not the counter. The writes of the model
cut every value to its field; the statement lacks the hypothesis that the counter lies below 2^64. -/
theorem not_ringsAndRegistersAreWritten : ¬ Obligations.RingsAndRegistersAreWritten := by
  unfold Obligations.RingsAndRegistersAreWritten
  rintro ⟨-, -, hjtag⟩
  obtain ⟨w, -, hcount⟩ : ∃ w : Wafer, w.memOk = true ∧ w.countNow = 2 ^ 64 :=
    ⟨{ Wafer.reset with regs := [((Reg.lckCountCount.at lckBase).key, 2 ^ 64)] }, by decide, by decide⟩
  obtain ⟨-, -, hwall, -⟩ := hjtag 0 0 0 0 0 ⟨[], w⟩
  obtain ⟨t, hexec, -, hlatch, -⟩ := hwall
  obtain rfl : _ = t := Host.Outcome.next.inj hexec
  rw [Wafer.rd_wallcnt_readReg_wall, hcount] at hlatch
  exact absurd hlatch (by decide)

end Sys2Proof.Machine

/-!
SUPPORT. What a vector instruction reaches outside its core (R104, R377), once for every instruction of the class: the window of its
site, and nothing of another core, a memory or a unit; and the lanes and poison marks of its vector registers.
-/

namespace Sys2Proof.Machine

/-- A weaker statement of a run. -/
theorem Runs.mono {c : Instr} {s : State} {P Q : Wafer → Prop} (h : Runs c s P) (hPQ : ∀ t, P t → Q t) : Runs c s Q := by
  obtain ⟨t, hexec, hqueue, hP⟩ := h
  exact ⟨t, hexec, hqueue, hPQ _ hP⟩

/-! ### The module around the core -/

/-- `t` is `w` with core `c` at a site, up to the registers of the site's window and what a saturated counter reports. -/
structure Wafer.ReachedCore (w t : Wafer) (site : Nat) (c : Core) : Prop where
  core : t.core site = c
  others : w.sameOtherCores t site
  memory : w.sameMemory t
  units : w.sameUnits t
  regs : w.sameRegsBut t (vecRegs site)
  state : t.rd (siteBase site) Reg.seqStatState = w.rd (siteBase site) Reg.seqStatState

namespace Wafer.ReachedCore

variable {w t : Wafer} {site : Nat} {c : Core}

theorem refl (w : Wafer) (site : Nat) : w.ReachedCore w site (w.core site) :=
  ⟨rfl, fun _ _ => rfl, ⟨rfl, rfl, rfl, rfl, rfl, rfl⟩, ⟨rfl, rfl, rfl, rfl, rfl, rfl, rfl, rfl, rfl, rfl, rfl, rfl, rfl, rfl, rfl⟩,
    fun _ _ _ _ => rfl, rfl⟩

theorem updCore (h : w.ReachedCore t site c) (f : Core → Core) : w.ReachedCore (t.updCore site f) site (f c) where
  core := by rw [Wafer.core_updCore, h.core]
  others j hj := (Wafer.core_updCore_ne t site j f hj).trans (h.others j hj)
  memory := h.memory
  units := h.units
  regs := h.regs
  state := h.state

/-- The registers answer to two clauses; Shepherd, the command ports and what leaves the module answer to none. -/
theorem of_shape {r : List (Nat × Nat)} {sh : ShpSt} {k : CmdSt} {o : List Emit} (h : w.ReachedCore t site c)
    (hregs : w.sameRegsBut { t with regs := r, shp := sh, cmd := k, out := o } (vecRegs site))
    (hstate : ({ t with regs := r, shp := sh, cmd := k, out := o } : Wafer).rd (siteBase site) Reg.seqStatState =
      w.rd (siteBase site) Reg.seqStatState) :
    w.ReachedCore { t with regs := r, shp := sh, cmd := k, out := o } site c :=
  ⟨h.core, h.others, h.memory, h.units, hregs, hstate⟩

/-- A counter of the site's VECC block is in the window. -/
theorem count (h : w.ReachedCore t site c) {f : Fld} (hoff : f.off < 0x1000) (hlo : f.lo < 64) (n : Nat) :
    w.ReachedCore (t.count (veccBase site) f n) site c := by
  have hregs : w.sameRegsBut (t.count (veccBase site) f n) (vecRegs site) := by
    intro b g hg hout
    refine Eq.trans ?_ (h.regs b g hg hout)
    simp only [vecRegs, not_or] at hout
    apply Wafer.rd_count _ _ _ _ _ _ hout.1 hg <;> unfold veccBase <;> omega
  have hstate : (t.count (veccBase site) f n).rd (siteBase site) Reg.seqStatState = w.rd (siteBase site) Reg.seqStatState := by
    refine Eq.trans ?_ h.state
    apply Wafer.rd_count _ _ _ _ _ _ (siteBase_clear site _) (by decide) <;> simp only [veccBase, Reg.seqStatState] <;> omega
  obtain ⟨r, sh, k, o, hshape⟩ := t.count_shape (veccBase site) f n
  rw [hshape] at hregs hstate ⊢
  exact h.of_shape hregs hstate

/-- So is the SEQ block, which issuing writes. -/
theorem issued (h : w.ReachedCore t site c) (held pc : Nat) : w.ReachedCore (t.issued site held pc) site c := by
  have hregs : w.sameRegsBut (t.issued site held pc) (vecRegs site) := by
    intro b g hg hout
    refine (t.issued_sameRegs site held pc b g hg ?_).trans (h.regs b g hg hout)
    unfold seqRegs
    unfold vecRegs at hout
    omega
  have hstate := (t.issued_regs site held pc).2.2.2.trans h.state
  obtain ⟨r, sh, k, o, hshape⟩ := t.issued_shape site held pc
  rw [hshape] at hregs hstate ⊢
  exact h.of_shape hregs hstate

/-- After issue, the frame of a vector instruction. -/
theorem vecIssued_issued {i : Issue} (h : w.ReachedCore t i.site c) (hrun : w.rd (siteBase i.site) Reg.seqStatState = 1)
    (hc : (w.core i.site).sameButVec c) : w.vecIssued (t.issued i.site i.held ((w.pcOf i.site + 8) % 2 ^ 24)) i := by
  have ht := h.issued i.held ((w.pcOf i.site + 8) % 2 ^ 24)
  have hat := t.issuedAt_issued i i.held ((w.pcOf i.site + 8) % 2 ^ 24) (h.state.trans hrun)
  refine ⟨?_, ht.others, ht.units, ht.regs, by rwa [ht.core]⟩
  simpa [Wafer.issuedAt, Wafer.pcNext] using hat

end Wafer.ReachedCore

/-- A vector instruction that goes through, with a TYPE that is not reserved. -/
theorem runs_vecInstr {i : Issue} {s : State} {unused : Bool} {go : Wafer → Went} {c : Instr} {k : Core} {P : Wafer → Prop}
    (hc : exec c s = vecInstr i s unused go) (hs : s.issuing i) (hty : vTy i < 2) (hu : unused = false)
    (hgo : ∃ t, go s.w = .ok t ∧ s.w.ReachedCore t i.site k) (hk : (s.w.core i.site).sameButVec k)
    (hP : ∀ t, s.w.vecIssued t i → s.w.sameMemory t → t.core i.site = k → P t) : Runs c s P := by
  obtain ⟨t, hgo, ht⟩ := hgo
  refine runs_ok hc hs hu (w' := t) ((if_neg (by omega)).trans hgo) ?_
  have hissued := ht.issued i.held ((s.w.pcOf i.site + 8) % 2 ^ 24)
  exact hP _ (ht.vecIssued_issued hs.2.1 hk) hissued.memory hissued.core

/-! ### Vector registers -/

@[simp] theorem Core.vget_vset (c : Core) (r : Nat) (l : List Nat) : (c.vset r l).vget r = l := by
  simp [Core.vget, Core.vset]

theorem Core.vget_vset_ne (c : Core) (r k : Nat) (l : List Nat) (h : k ≠ r) : (c.vset r l).vget k = c.vget k := by
  simp [Core.vget, Core.vset, mapGet_mapSet_ne _ _ _ _ _ h]

@[simp] theorem Core.vget_setVbad (c : Core) (r k : Nat) (l : List Bool) : (c.setVbad r l).vget k = c.vget k := rfl

theorem Core.sameButVec_with_lanes (c : Core) (v : List (Nat × List Nat)) (bad : List Nat) (q : Nat) :
    c.sameButVec { c with v := v, vbad := bad, q := q } := ⟨rfl, rfl, rfl, rfl, rfl, rfl, rfl, rfl, rfl, rfl, rfl, rfl⟩

theorem mem_foldl_setInsert_if (p : Nat → Bool) (g : Nat → Nat) (l : List Nat) (kept : List Nat) (x : Nat) :
    x ∈ l.foldl (fun a j => if p j then setInsert a (g j) else a) kept ↔ x ∈ kept ∨ ∃ j ∈ l, p j = true ∧ x = g j := by
  induction l generalizing kept with
  | nil => simp
  | cons j l ih =>
    rw [List.foldl_cons, ih]
    by_cases hj : p j = true
    · simp [hj, mem_setInsert, or_assoc, or_left_comm]
    · simp [hj]

/-- The poison marks of a register just written. -/
theorem Core.vbadAt_setVbad (c : Core) (r : Nat) (bad : List Bool) (l : Nat) (hl : l < 128) :
    (c.setVbad r bad).vbadAt r l = bad.getD l false := by
  have hmem : (r * 128 + l ∈ (c.setVbad r bad).vbad) ↔ bad.getD l false = true := by
    refine (mem_foldl_setInsert_if _ _ _ _ _).trans ⟨?_, fun h => .inr ⟨l, List.mem_range.2 hl, h, rfl⟩⟩
    rintro (hkept | ⟨j, -, hj, heq⟩)
    · have := (List.mem_filter.1 hkept).2
      simp only [bne_iff_ne] at this
      omega
    · obtain rfl : l = j := by omega
      exact hj
  rw [Core.vbadAt, Bool.eq_iff_iff, List.contains_iff_mem, hmem]

theorem getD_map_range {α : Type} (f : Nat → α) (n l : Nat) (d : α) (h : l < n) : ((List.range n).map f).getD l d = f l := by
  simp [List.getD, h]

/-- No enabled lane of a clean register is poisoned. -/
theorem any_bad_eq_false {w : Wafer} {i : Issue} {r : Nat} (h : w.cleanLanes i [r]) :
    ((List.range 128).any fun l => vLanes w i l && (w.core i.site).vbadAt r l) = false := by
  rw [List.any_eq_false]
  intro l hl hbad
  obtain ⟨hon, hbad⟩ := Bool.and_eq_true_iff.1 hbad
  rw [h r (List.mem_singleton.2 rfl) l (List.mem_range.1 hl) hon] at hbad
  exact absurd hbad (by decide)

/-- What `vecWrite` leaves in the core. -/
def Core.vecWritten (c : Core) (on : Nat → Bool) (r : Nat) (lanes : List Nat) (bad : List Bool) : Core :=
  (c.vset r ((List.range 128).map fun l => if on l then lanes.getD l 0 % 2 ^ 32 else (c.vget r).getD l 0)).setVbad r
    ((List.range 128).map fun l => if on l then bad.getD l false else c.vbadAt r l)

theorem Wafer.reachedCore_vecWrite (w : Wafer) (i : Issue) (r : Nat) (lanes : List Nat) (bad : List Bool) :
    w.ReachedCore (w.vecWrite i r lanes bad) i.site ((w.core i.site).vecWritten (vLanes w i) r lanes bad) :=
  (Wafer.ReachedCore.refl w i.site).updCore fun c => c.vecWritten (vLanes w i) r lanes bad

/-- Clean lanes written to r, whatever the random count of the core has become. -/
theorem Wafer.tookLanes_of_vecWritten {w t : Wafer} {i : Issue} {r q : Nat} {f : Nat → Nat} {bad : List Bool}
    (hcore : t.core i.site = { (w.core i.site).vecWritten (vLanes w i) r ((List.range 128).map f) bad with q := q })
    (hclean : ∀ l, l < 128 → vLanes w i l = true → bad.getD l false = false) : w.tookLanes t i r f := by
  have hv : ∀ k, (t.core i.site).vget k = ((w.core i.site).vecWritten (vLanes w i) r ((List.range 128).map f) bad).vget k :=
    fun k => by rw [hcore]; rfl
  refine ⟨fun l hl => ?_, fun l hl hon => ?_, fun k l hk hl => ?_, by rw [hcore]; rfl⟩
  · rw [Wafer.lane, hv, Core.vecWritten, Core.vget_setVbad, Core.vget_vset, getD_map_range _ _ _ _ hl, getD_map_range _ _ _ _ hl]
    rfl
  · have hmarks : (t.core i.site).vbadAt r l =
        ((w.core i.site).vecWritten (vLanes w i) r ((List.range 128).map f) bad).vbadAt r l := by rw [hcore]; rfl
    rw [hmarks, Core.vecWritten, Core.vbadAt_setVbad _ _ _ _ hl, getD_map_range _ _ _ _ hl, if_pos hon, hclean l hl hon]
  · rw [Wafer.lane, hv, Core.vecWritten, Core.vget_setVbad, Core.vget_vset_ne _ _ _ _ hk]
    rfl

end Sys2Proof.Machine

/-!
SUPPORT. The special functions (R121, Table 5-9): the lanes they write and the bounds of a free result.
-/

namespace Sys2Proof.Machine

/-! ### The instruction -/

/-- Lane l of the result: the function of the FP32 lane, or of both BF16 elements as FP32, rounded under RND. -/
def sfuLane (op : Nat) (w : Wafer) (i : Issue) (l : Nat) : Nat :=
  if vTy i = 0 then sfu32 op (w.lane i i.a l)
  else bf16.enc (w.rndFor i (2 * l)) (val32 (sfu32 op (w.lane i i.a l % 2 ^ 16 * 2 ^ 16))) +
    2 ^ 16 * bf16.enc (w.rndFor i (2 * l + 1)) (val32 (sfu32 op (w.lane i i.a l / 2 ^ 16 % 2 ^ 16 * 2 ^ 16)))

/-- The poison marks of the lanes of vA, which the result takes. -/
def sfuBad (w : Wafer) (i : Issue) : List Bool := (List.range 128).map fun l => (w.core i.site).vbadAt i.a l

/-- The core after a special function: the lanes, and the random count on by one where a BF16 result was rounded stochastically. -/
def sfuCore (op : Nat) (w : Wafer) (i : Issue) : Core :=
  { (w.core i.site).vecWritten (vLanes w i) i.d ((List.range 128).map (sfuLane op w i)) (sfuBad w i) with
    q := (w.core i.site).q + vTy i * b2n (vStoch i) }

theorem sameButVec_sfuCore (op : Nat) (w : Wafer) (i : Issue) : (w.core i.site).sameButVec (sfuCore op w i) :=
  Core.sameButVec_with_lanes (w.core i.site) _ _ _

theorem sfuBad_enabled {w : Wafer} {i : Issue} (hclean : w.cleanLanes i [i.a]) (l : Nat) (hl : l < 128) (hon : vLanes w i l = true) :
    (sfuBad w i).getD l false = false :=
  (getD_map_range _ _ _ _ hl).trans (hclean i.a (List.mem_singleton.2 rfl) l hl hon)

/-- A special function before its BF16 results are counted as rounded. -/
def sfuWritten (op : Nat) (w : Wafer) (i : Issue) : Wafer :=
  (w.vecWrite i i.d ((List.range 128).map (sfuLane op w i)) (sfuBad w i)).count (veccBase i.site) Reg.vecSfu

theorem vecSfu_eq (op : Nat) (w : Wafer) (i : Issue) : vecSfu op i w =
    (if vTy i = 1 then (sfuWritten op w i).stoDone i else sfuWritten op w i).vecDone i
      ((List.range 128).any fun l => vLanes w i l && (sfuBad w i).getD l false) := rfl

/-- The count of stochastic roundings (R99). -/
theorem Wafer.ReachedCore.stoDone {w t : Wafer} {i : Issue} {c : Core} (h : w.ReachedCore t i.site c) :
    w.ReachedCore (t.stoDone i) i.site { c with q := c.q + b2n (vStoch i) } := by
  unfold Wafer.stoDone
  split
  next hsto =>
    rw [hsto]
    exact (h.updCore _).count (by decide) (by decide) 1
  next hsto =>
    rw [Bool.not_eq_true] at hsto
    rw [hsto]
    exact h

theorem reachedCore_sfuRounded (op : Nat) (w : Wafer) {i : Issue} (hty : vTy i < 2) :
    w.ReachedCore (if vTy i = 1 then (sfuWritten op w i).stoDone i else sfuWritten op w i) i.site (sfuCore op w i) := by
  have hwritten : w.ReachedCore (sfuWritten op w i) i.site ((w.core i.site).vecWritten (vLanes w i) i.d
      ((List.range 128).map (sfuLane op w i)) (sfuBad w i)) := (w.reachedCore_vecWrite i i.d _ _).count (by decide) (by decide) 1
  unfold sfuCore
  obtain hty | hty : vTy i = 0 ∨ vTy i = 1 := by omega
  · rw [hty, if_neg (by decide), Nat.zero_mul]
    exact hwritten
  · rw [hty, if_pos rfl, Nat.one_mul]
    exact hwritten.stoDone

theorem vecSfu_ok (op : Nat) {w : Wafer} {i : Issue} (hty : vTy i < 2) (hclean : w.cleanLanes i [i.a]) :
    ∃ t, vecSfu op i w = .ok t ∧ w.ReachedCore t i.site (sfuCore op w i) := by
  have hbad : ((List.range 128).any fun l => vLanes w i l && (sfuBad w i).getD l false) = false := by
    rw [List.any_eq_false]
    intro l hl hon
    obtain ⟨hon, hbad⟩ := Bool.and_eq_true_iff.1 hon
    exact absurd (hbad.symm.trans (sfuBad_enabled hclean l (List.mem_range.1 hl) hon)) (by decide)
  refine ⟨_, ?_, (reachedCore_sfuRounded op w hty).count (f := Reg.vecOps) (by decide) (by decide) 1⟩
  rw [vecSfu_eq, hbad]
  rfl

/-- Each instruction of Table 5-9. -/
theorem runs_vecSfu {i : Issue} {s : State} {c : Instr} {op : Nat}
    (hc : exec c s = vecInstr i s (decide (i.b ≠ 0 ∨ i.c ≠ 0)) (vecSfu op i)) (hs : s.issuing i) (hty : vTy i < 2)
    (hb : i.b = 0) (hc0 : i.c = 0) (hclean : s.w.cleanLanes i [i.a]) :
    Runs c s (fun t => s.w.vecIssued t i ∧ s.w.sameMemory t ∧ (t.core i.site).q = (s.w.core i.site).q + vTy i * b2n (vStoch i) ∧
      s.w.tookLanes t i i.d (sfuLane op s.w i)) := by
  refine runs_vecInstr hc hs hty (by simp [hb, hc0]) (vecSfu_ok op hty hclean) (sameButVec_sfuCore op s.w i) ?_
  intro t hissued hmem hcore
  refine ⟨hissued, hmem, by rw [hcore]; rfl, Wafer.tookLanes_of_vecWritten hcore (sfuBad_enabled hclean)⟩

/-! ### The bounds -/

/-- The place of an FP32 pattern among the values in rising order. -/
def placeOf (x : Nat) : Int := if x < 2 ^ 31 then (x : Nat) else -((x - 2 ^ 31 : Nat) : Int)

theorem patNear_le (up : Bool) (n : Nat) (e : Int) : patNear up n e ≤ fp32.infMag := by
  unfold patNear
  split
  · exact Nat.zero_le _
  · exact Nat.min_le_right _ _

/-- No place lies beyond the infinities. -/
theorem natAbs_placeNear_le (up : Bool) (n e : Int) : (placeNear up n e).natAbs ≤ fp32.infMag := by
  unfold placeNear
  split
  · exact patNear_le _ _ _
  · rw [Int.natAbs_neg]
    exact patNear_le _ _ _

theorem natAbs_sfuRange_le (op x : Nat) : (sfuRange op x).1.natAbs ≤ fp32.infMag ∧ (sfuRange op x).2.natAbs ≤ fp32.infMag := by
  unfold sfuRange
  split
  · exact ⟨natAbs_placeNear_le _ _ _, natAbs_placeNear_le _ _ _⟩
  · decide

/-- The place that `sfuWithin` picks. -/
def sfuPick (op x : Nat) : Int :=
  (sfuRange op x).1 + ((Config.sfu op x % (((sfuRange op x).2 - (sfuRange op x).1).toNat + 1) : Nat) : Int)

theorem sfuPick_ge (op x : Nat) : (sfuRange op x).1 ≤ sfuPick op x := by
  exact Int.le_add_of_nonneg_right (Int.natCast_nonneg _)

theorem sfuPick_le (op x : Nat) : sfuPick op x ≤ max (sfuRange op x).1 (sfuRange op x).2 := by
  unfold sfuPick
  generalize hlast : ((sfuRange op x).2 - (sfuRange op x).1).toNat = last
  have := Nat.mod_lt (Config.sfu op x) (Nat.succ_pos last)
  generalize Config.sfu op x % (last + 1) = r at this ⊢
  omega

/-- The pattern of a place, with either sign of 0, has that place. -/
theorem placeOf_pattern (p : Int) (z : Nat) (hp : p.natAbs < 2 ^ 31) :
    placeOf (if p = 0 then 2 ^ 31 * (z % 2) else if p < 0 then 2 ^ 31 + (-p).toNat else p.toNat) = p := by
  unfold placeOf
  rcases Int.lt_trichotomy p 0 with h | h | h
  · rw [if_neg (Int.ne_of_lt h), if_pos h, if_neg (by omega)]
    omega
  · rw [if_pos h]
    split <;> omega
  · rw [if_neg (Int.ne_of_gt h), if_neg (Int.lt_asymm h), if_pos (show p.toNat < 2 ^ 31 by omega)]
    omega

theorem placeOf_sfuWithin (op x : Nat) : placeOf (sfuWithin op x) = sfuPick op x := by
  refine placeOf_pattern (sfuPick op x) (Config.sfu (op + 64) x) ?_
  obtain ⟨hlo, hhi⟩ := natAbs_sfuRange_le op x
  have hinf : fp32.infMag < 2 ^ 31 := by decide
  have hge := sfuPick_ge op x
  have hle := sfuPick_le op x
  omega

/-- A result that Table 5-9 does not state lies within its bound. -/
theorem sfu32_within {op x : Nat} (h : sfuSpecial op (val32 x) = none) :
    (sfuRange op x).1 ≤ placeOf (sfu32 op x) ∧
      ((sfuRange op x).1 ≤ (sfuRange op x).2 → placeOf (sfu32 op x) ≤ (sfuRange op x).2) := by
  have hsfu : sfu32 op x = sfuWithin op x := by rw [sfu32, h, Option.getD_none]
  rw [hsfu, placeOf_sfuWithin]
  exact ⟨sfuPick_ge op x, fun hle => Int.max_eq_right hle ▸ sfuPick_le op x⟩

/-! ### The special inputs -/

/-- A special input has the value of Table 5-9. -/
theorem sfu32_of_special {op x v : Nat} (h : sfuSpecial op (val32 x) = some v) : sfu32 op x = v := by
  rw [sfu32, h, Option.getD_some]

theorem sfu32_nan (op : Nat) : sfu32 op 0x7FC00000 = fp32.nan :=
  sfu32_of_special (by rw [show val32 0x7FC00000 = .nan by decide]; rfl)

end Sys2Proof.Machine

/-!
SUPPORT. The cross-lane reductions (R122): the order of R77, the element that wins, and the fixed tree.
-/

namespace Sys2Proof.Machine

/-! ### The order of R77 -/

/-- The kinds of values in order: −∞, the numbers, +∞, NaN. -/
def Ext.kind : Ext → Int
  | .nan => 2
  | .inf neg => if neg then -1 else 1
  | .fin _ _ _ => 0

/-- An exponent at which a value is a whole number of units. -/
def Ext.exp : Ext → Int
  | .fin _ _ e => e
  | _ => 0

/-- A number in units of 2^q, for q not above its exponent. -/
def Ext.units (q : Int) : Ext → Int
  | .fin neg m e => if neg then -((m * 2 ^ (e - q).toNat : Nat) : Int) else ((m * 2 ^ (e - q).toNat : Nat) : Int)
  | _ => 0

/-- Finer units: each of them is a whole number of times smaller. -/
theorem Ext.units_fin_eq_mul (neg : Bool) (m : Nat) {e p q : Int} (hqp : q ≤ p) (hpe : p ≤ e) :
    (Ext.fin neg m e).units q = (Ext.fin neg m e).units p * ((2 ^ (p - q).toNat : Nat) : Int) := by
  have hpow : m * 2 ^ (e - q).toNat = m * 2 ^ (e - p).toNat * 2 ^ (p - q).toNat := by
    rw [Nat.mul_assoc, ← Nat.pow_add]
    congr 2
    omega
  simp only [Ext.units, hpow, Int.natCast_mul]
  cases neg
  · rfl
  · exact (Int.neg_mul _ _).symm

/-- The order of R77 is that of the kinds, and among numbers that of their units at any exponent common to both. -/
theorem Ext.lt_iff {a b : Ext} {q : Int} (ha : q ≤ a.exp) (hb : q ≤ b.exp) :
    a.lt b = true ↔ a.kind < b.kind ∨ a.kind = b.kind ∧ a.units q < b.units q := by
  cases a with
  | nan =>
    cases b with
    | nan => simp [Ext.lt, Ext.kind, Ext.units]
    | inf t => cases t <;> simp [Ext.lt, Ext.kind]
    | fin t n d => simp [Ext.lt, Ext.kind]
  | inf s =>
    cases b with
    | nan => cases s <;> simp [Ext.lt, Ext.kind]
    | inf t => cases s <;> cases t <;> simp [Ext.lt, Ext.kind, Ext.units]
    | fin t n d => cases s <;> simp [Ext.lt, Ext.kind]
  | fin s m e =>
    cases b with
    | nan => simp [Ext.lt, Ext.kind]
    | inf t => cases t <;> simp [Ext.lt, Ext.kind]
    | fin t n d =>
      have hq : q ≤ min e d := Int.le_min.2 ⟨ha, hb⟩
      have hlt : (Ext.fin s m e).lt (.fin t n d) =
          decide ((Ext.fin s m e).units (min e d) < (Ext.fin t n d).units (min e d)) := rfl
      have hpos : (0 : Int) < ((2 ^ (min e d - q).toNat : Nat) : Int) := Int.natCast_pos.2 (Nat.two_pow_pos _)
      rw [hlt, decide_eq_true_iff, Ext.units_fin_eq_mul s m hq (Int.min_le_left e d), Ext.units_fin_eq_mul t n hq (Int.min_le_right e d),
        Int.mul_lt_mul_right hpos]
      exact ⟨fun h => .inr ⟨rfl, h⟩, fun h => h.elim (fun h => absurd h (Int.lt_irrefl _)) (·.2)⟩

theorem Ext.lt_irrefl (a : Ext) : a.lt a = false := by
  rw [← Bool.not_eq_true, Ext.lt_iff (Int.le_refl _) (Int.le_refl _)]
  omega

theorem Ext.lt_asymm {a b : Ext} (h : a.lt b = true) : b.lt a = false := by
  have ha := Int.min_le_left a.exp b.exp
  have hb := Int.min_le_right a.exp b.exp
  rw [Ext.lt_iff ha hb] at h
  rw [← Bool.not_eq_true, Ext.lt_iff hb ha]
  omega

theorem Ext.lt_negTrans {a b c : Ext} (hab : a.lt b = false) (hbc : b.lt c = false) : a.lt c = false := by
  obtain ⟨q, ha, hb, hc⟩ : ∃ q, q ≤ a.exp ∧ q ≤ b.exp ∧ q ≤ c.exp := ⟨min a.exp (min b.exp c.exp), by omega, by omega, by omega⟩
  rw [← Bool.not_eq_true, Ext.lt_iff ha hb] at hab
  rw [← Bool.not_eq_true, Ext.lt_iff hb hc] at hbc
  rw [← Bool.not_eq_true, Ext.lt_iff ha hc]
  omega

/-! ### The winning element -/

/-- The value of element d beats that of e: it is below it for the smallest, above it for the largest. -/
def elemBeats (f : FpFmt) (small : Bool) (d e : Nat × Nat) : Bool :=
  if small then (f.dec d.2).lt (f.dec e.2) else (f.dec e.2).lt (f.dec d.2)

theorem elemBeats_irrefl (f : FpFmt) (small : Bool) (e : Nat × Nat) : elemBeats f small e e = false := by
  cases small <;> exact Ext.lt_irrefl _

theorem elemBeats_asymm {f : FpFmt} {small : Bool} {d e : Nat × Nat} (h : elemBeats f small d e = true) :
    elemBeats f small e d = false := by
  cases small <;> exact Ext.lt_asymm h

theorem elemBeats_negTrans {f : FpFmt} {small : Bool} {c d e : Nat × Nat} (h : elemBeats f small c d = false)
    (h' : elemBeats f small d e = false) : elemBeats f small c e = false := by
  cases small
  · exact Ext.lt_negTrans (a := f.dec e.2) h' h
  · exact Ext.lt_negTrans (a := f.dec c.2) h h'

/-- e wins among l: none beats it, and it beats every one of a lower index. -/
def WinsAmong (f : FpFmt) (small : Bool) (l : List (Nat × Nat)) (e : Nat × Nat) : Prop :=
  ∀ d ∈ l, elemBeats f small d e = false ∧ (d.1 < e.1 → elemBeats f small e d = true)

theorem bestElem_cons {f : FpFmt} {small : Bool} {l : List (Nat × Nat)} {b : Nat × Nat} (e : Nat × Nat)
    (h : bestElem f small l = some b) : bestElem f small (e :: l) = some (if elemBeats f small b e then b else e) := by
  rw [bestElem, h]
  rfl

/-- The best of elements in rising index order wins among them. -/
theorem bestElem_wins (f : FpFmt) (small : Bool) {l : List (Nat × Nat)} (hne : l ≠ []) (hidx : l.Pairwise (·.1 < ·.1)) :
    ∃ e ∈ l, bestElem f small l = some e ∧ WinsAmong f small l e := by
  induction l with
  | nil => exact absurd rfl hne
  | cons e l ih =>
    obtain ⟨hhead, htail⟩ := List.pairwise_cons.1 hidx
    by_cases hl : l = []
    · subst hl
      refine ⟨e, List.mem_singleton.2 rfl, rfl, fun d hd => ?_⟩
      rw [List.mem_singleton.1 hd]
      exact ⟨elemBeats_irrefl f small e, fun h => absurd h (Nat.lt_irrefl _)⟩
    · obtain ⟨b, hb, hbest, hwins⟩ := ih hl htail
      rw [bestElem_cons e hbest]
      by_cases hbeats : elemBeats f small b e = true
      · refine ⟨b, List.mem_cons_of_mem e hb, by rw [if_pos hbeats], fun d hd => ?_⟩
        rcases List.mem_cons.1 hd with rfl | hd
        · exact ⟨elemBeats_asymm hbeats, fun _ => hbeats⟩
        · exact hwins d hd
      · refine ⟨e, List.mem_cons_self, by rw [if_neg hbeats], fun d hd => ?_⟩
        rcases List.mem_cons.1 hd with rfl | hd
        · exact ⟨elemBeats_irrefl f small d, fun h => absurd h (Nat.lt_irrefl _)⟩
        · exact ⟨elemBeats_negTrans (hwins d hd).1 (Bool.eq_false_iff.2 hbeats), fun h => absurd h (Nat.lt_asymm (hhead d hd))⟩

/-- The elements of lane l with their indices. -/
def laneElems (w : Wafer) (i : Issue) (l : Nat) : List (Nat × Nat) :=
  if vTy i = 0 then [(l, w.lane i i.a l)]
  else [(2 * l, w.lane i i.a l % 2 ^ 16), (2 * l + 1, w.lane i i.a l / 2 ^ 16 % 2 ^ 16)]

theorem redElems_eq (w : Wafer) (i : Issue) : redElems w i = ((List.range 128).filter (vLanes w i)).flatMap (laneElems w i) := rfl

theorem laneElems_pairwise (w : Wafer) (i : Issue) (l : Nat) : (laneElems w i l).Pairwise (·.1 < ·.1) := by
  unfold laneElems
  split <;> simp

/-- Its index names the lane of an element. -/
theorem lane_of_mem_laneElems {w : Wafer} {i : Issue} {l : Nat} {e : Nat × Nat} (h : e ∈ laneElems w i l) :
    l = if vTy i = 0 then e.1 else e.1 / 2 := by
  unfold laneElems at h
  split at h
  next hty => rw [if_pos hty, List.mem_singleton.1 h]
  next hty =>
    rw [if_neg hty]
    rcases List.mem_cons.1 h with rfl | h
    · dsimp only
      omega
    · rw [List.mem_singleton.1 h]
      dsimp only
      omega

/-- The elements come in rising index order. -/
theorem redElems_pairwise (w : Wafer) (i : Issue) : (redElems w i).Pairwise (·.1 < ·.1) := by
  rw [redElems_eq]
  refine List.pairwise_flatMap.2 ⟨fun l _ => laneElems_pairwise w i l, (List.pairwise_lt_range.filter _).imp fun hjk x hx y hy => ?_⟩
  rw [lane_of_mem_laneElems hx, lane_of_mem_laneElems hy] at hjk
  split at hjk <;> omega

theorem redElems_ne_nil {w : Wafer} {i : Issue} (h : ∃ l, l < 128 ∧ vLanes w i l = true) : redElems w i ≠ [] := by
  obtain ⟨l, hl, hon⟩ := h
  intro hnil
  rw [redElems_eq, List.flatMap_eq_nil_iff] at hnil
  have hlane := hnil l (List.mem_filter.2 ⟨List.mem_range.2 hl, hon⟩)
  unfold laneElems at hlane
  split at hlane <;> exact List.cons_ne_nil _ _ hlane

/-! ### The fixed tree -/

theorem length_treeLevel (l : List (Option Nat)) : (treeLevel l).length = (l.length + 1) / 2 := by
  fun_induction treeLevel l with
  | case1 a b l ih => simp only [List.length_cons, ih]; omega
  | case2 l h =>
    match l with
    | [] => rfl
    | [_] => rw [List.length_singleton]
    | a :: b :: l => exact absurd rfl (h a b l)

/-- A level has a sum where a lane takes part. -/
theorem any_isSome_treeLevel (l : List (Option Nat)) : (treeLevel l).any Option.isSome = l.any Option.isSome := by
  fun_induction treeLevel l with
  | case1 a b l ih => cases a <;> cases b <;> simp [ih]
  | case2 l h => rfl

theorem treeSum_isSome {l : List (Option Nat)} (hlen : l.length = 128) (h : l.any Option.isSome = true) :
    ∃ v, treeSum l = some v := by
  unfold treeSum
  generalize htop : treeLevel (treeLevel (treeLevel (treeLevel (treeLevel (treeLevel (treeLevel l)))))) = top
  have hone : top.length = 1 := by simp only [← htop, length_treeLevel, hlen]
  have hany : top.any Option.isSome = true := by simp only [← htop, any_isSome_treeLevel, h]
  obtain ⟨x, rfl⟩ := List.length_eq_one_iff.1 hone
  exact Option.isSome_iff_exists.1 (by simpa using hany)

/-! ### The instructions -/

/-- The core after a reduction. -/
def redCore (w : Wafer) (i : Issue) (l0 : Nat) (l1 : Option Nat) : Core :=
  ((w.core i.site).vset i.d (l0 :: l1.getD 0 :: List.replicate 126 0)).setVbad i.d [redBad w i, redBad w i && l1.isSome]

theorem redWrite_vecDone_ok {w : Wafer} {i : Issue} (hclean : w.cleanLanes i [i.a]) (l0 : Nat) (l1 : Option Nat) :
    ∃ t, (redWrite w i l0 l1).vecDone i (redBad w i) = .ok t ∧ w.ReachedCore t i.site (redCore w i l0 l1) := by
  have hwritten : w.ReachedCore (redWrite w i l0 l1) i.site (redCore w i l0 l1) := (Wafer.ReachedCore.refl w i.site).updCore
    fun c => (c.vset i.d (l0 :: l1.getD 0 :: List.replicate 126 0)).setVbad i.d [redBad w i, redBad w i && l1.isSome]
  refine ⟨_, ?_, hwritten.count (f := Reg.vecOps) (by decide) (by decide) 1⟩
  rw [show redBad w i = false from any_bad_eq_false hclean]
  rfl

theorem sameButVec_redCore (w : Wafer) (i : Issue) (l0 : Nat) (l1 : Option Nat) :
    (w.core i.site).sameButVec (redCore w i l0 l1) :=
  Core.sameButVec_with_lanes (w.core i.site) _ _ _

theorem redCore_vget (w : Wafer) (i : Issue) (l0 : Nat) (l1 : Option Nat) :
    (redCore w i l0 l1).vget i.d = l0 :: l1.getD 0 :: List.replicate 126 0 := by
  rw [redCore, Core.vget_setVbad, Core.vget_vset]

theorem redCore_vget_ne (w : Wafer) (i : Issue) (l0 : Nat) (l1 : Option Nat) {k : Nat} (h : k ≠ i.d) :
    (redCore w i l0 l1).vget k = (w.core i.site).vget k := by
  rw [redCore, Core.vget_setVbad, Core.vget_vset_ne _ _ _ _ h]

/-- What every reduction leaves: +0 in the lanes of vD from lane 2 on, and all that is not vD. -/
def Wafer.reducedInto (w t : Wafer) (i : Issue) : Prop :=
  w.vecIssued t i ∧ w.sameMemory t ∧ (∀ l, 2 ≤ l → l < 128 → t.lane i i.d l = 0) ∧
    (∀ k l, k ≠ i.d → l < 128 → t.lane i k l = w.lane i k l)

theorem runs_reduction {i : Issue} {s : State} {c : Instr} {go : Wafer → Went} {l0 : Nat} {l1 : Option Nat}
    (hc : exec c s = vecInstr i s (decide (i.b ≠ 0 ∨ i.c ≠ 0)) go) (hs : s.issuing i) (hty : vTy i < 2)
    (hb : i.b = 0) (hc0 : i.c = 0) (hclean : s.w.cleanLanes i [i.a])
    (hgo : go s.w = (redWrite s.w i l0 l1).vecDone i (redBad s.w i)) :
    Runs c s (fun t => s.w.reducedInto t i ∧ t.lane i i.d 0 = l0 ∧ t.lane i i.d 1 = l1.getD 0) := by
  refine runs_vecInstr hc hs hty (by simp [hb, hc0]) (k := redCore s.w i l0 l1) (hgo ▸ redWrite_vecDone_ok hclean l0 l1)
    (sameButVec_redCore s.w i l0 l1) fun t hissued hmem hcore => ?_
  have hd : (t.core i.site).vget i.d = l0 :: l1.getD 0 :: List.replicate 126 0 := hcore ▸ redCore_vget s.w i l0 l1
  refine ⟨⟨hissued, hmem, fun l hl hl' => ?_, fun k l hk _ => ?_⟩, by rw [Wafer.lane, hd]; rfl, by rw [Wafer.lane, hd]; rfl⟩
  · obtain ⟨l, rfl⟩ := Nat.exists_eq_add_of_le' hl
    rw [Wafer.lane, hd, List.getD_cons_succ, List.getD_cons_succ]
    rw [List.getD, List.getElem?_replicate_of_lt (by omega), Option.getD_some]
  · rw [Wafer.lane, hcore, redCore_vget_ne _ _ _ _ hk]
    rfl

/-- RMAX, RMIN, RARGMAX and RARGMIN. -/
theorem runs_vecBest {i : Issue} {s : State} {c : Instr} (small arg : Bool)
    (hc : exec c s = vecInstr i s (decide (i.b ≠ 0 ∨ i.c ≠ 0)) (vecBest small arg i)) (hs : s.issuing i) (hty : vTy i < 2)
    (hb : i.b = 0) (hc0 : i.c = 0) (hclean : s.w.cleanLanes i [i.a]) (hon : ∃ l, l < 128 ∧ vLanes s.w i l = true) :
    let f := if vTy i = 0 then fp32 else bf16
    Runs c s (fun t => s.w.reducedInto t i ∧ ∃ e ∈ redElems s.w i,
      t.lane i i.d 0 = f.enc .near (f.dec e.2) ∧ t.lane i i.d 1 = (if arg then e.1 else 0) ∧ WinsAmong f small (redElems s.w i) e) := by
  intro f
  obtain ⟨e, he, hbest, hwins⟩ := bestElem_wins f small (redElems_ne_nil hon) (redElems_pairwise s.w i)
  have hgo : vecBest small arg i s.w =
      (redWrite s.w i (f.enc .near (f.dec e.2)) (if arg then some e.1 else none)).vecDone i (redBad s.w i) := by
    rw [vecBest, hbest]
  have hlane1 : (if arg then some e.1 else none).getD 0 = if arg then e.1 else 0 := by cases arg <;> rfl
  refine (runs_reduction hc hs hty hb hc0 hclean hgo).mono ?_
  rintro t ⟨hinto, h0, h1⟩
  exact ⟨hinto, e, he, h0, h1.trans hlane1, hwins⟩

/-- The lanes that RSUM adds up: those that take part, as FP32. -/
def sumLanes (w : Wafer) (i : Issue) : List (Option Nat) :=
  (List.range 128).map fun l => if vLanes w i l then some (sumLane (vTy i) (w.lane i i.a l)) else none

theorem treeSum_sumLanes_isSome {w : Wafer} {i : Issue} (h : ∃ l, l < 128 ∧ vLanes w i l = true) :
    ∃ v, treeSum (sumLanes w i) = some v := by
  obtain ⟨l, hl, hon⟩ := h
  refine treeSum_isSome (by rw [sumLanes, List.length_map, List.length_range])
    (List.any_eq_true.2 ⟨_, List.mem_map_of_mem (List.mem_range.2 hl), ?_⟩)
  rw [if_pos hon]
  rfl

/-- RSUM: the total of the fixed tree. -/
theorem runs_vecRsum {i : Issue} {s : State} (hs : s.issuing i) (hty : vTy i < 2) (hb : i.b = 0) (hc0 : i.c = 0)
    (hclean : s.w.cleanLanes i [i.a]) (hon : ∃ l, l < 128 ∧ vLanes s.w i l = true) :
    Runs (.vecRsum i) s (fun t => s.w.reducedInto t i ∧ t.lane i i.d 1 = 0 ∧
      some (t.lane i i.d 0) = (treeSum (sumLanes s.w i)).map fun v => rne (val32 v)) := by
  obtain ⟨v, hv⟩ := treeSum_sumLanes_isSome hon
  have hred := runs_reduction (c := .vecRsum i) (l1 := none) (go := fun w =>
    (redWrite w i (rne (val32 ((treeSum (sumLanes w i)).getD 0))) none).vecDone i (redBad w i)) rfl hs hty hb hc0 hclean rfl
  refine hred.mono ?_
  rintro t ⟨hinto, h0, h1⟩
  refine ⟨hinto, h1, ?_⟩
  rw [h0, hv]
  rfl

end Sys2Proof.Machine

/-!
SUPPORT. The statement on special functions and reductions (R86, R121, R122).
-/

namespace Sys2Proof.Machine

/-- Settles O10: each special function is one vector write of its lane function, a free result is the pattern of a place within the
bound, and a reduction writes the total of the tree or the element that wins under the order of R77. -/
theorem vectorSpecialFunctions : Obligations.VectorSpecialFunctions := by
  unfold Obligations.VectorSpecialFunctions
  refine ⟨⟨?_, fun op x h => sfu32_within h, fun op _ => sfu32_nan op, ?_⟩, ?_⟩
  · intro i s c op hs hty hb hc0 hclean hop
    have hexec : exec c s = vecInstr i s (decide (i.b ≠ 0 ∨ i.c ≠ 0)) (vecSfu op i) := by
      simp only [List.mem_cons, Prod.mk.injEq, List.not_mem_nil, or_false] at hop
      rcases hop with ⟨rfl, rfl⟩ | ⟨rfl, rfl⟩ | ⟨rfl, rfl⟩ | ⟨rfl, rfl⟩ | ⟨rfl, rfl⟩ | ⟨rfl, rfl⟩ | ⟨rfl, rfl⟩ |
        ⟨rfl, rfl⟩ | ⟨rfl, rfl⟩ <;> rfl
    exact runs_vecSfu hexec hs hty hb hc0 hclean
  · decide
  · intro i s hs hty hb hc0 hclean hon
    exact ⟨runs_vecRsum hs hty hb hc0 hclean hon, runs_vecBest false false rfl hs hty hb hc0 hclean hon,
      runs_vecBest true false rfl hs hty hb hc0 hclean hon, runs_vecBest false true rfl hs hty hb hc0 hclean hon,
      runs_vecBest true true rfl hs hty hb hc0 hclean hon⟩

end Sys2Proof.Machine
